-- ==== Sys2Proof/Word.lean ====
section
/-!
DEFINITION. The word types of the FF9 (00_scope.md R10, R12, R22): registers are 32 bits, memory is
addressed by the byte, samples are Q1.31 in 32 bits.
-/
namespace Sys2Proof

/-- A register or a memory word (R12). -/
abbrev Word := BitVec 32

/-- A byte of memory. -/
abbrev Byte := BitVec 8

end Sys2Proof
end

