-- ==== Sys2Proof/Machine/Bits.lean ====
section
/-!
DEFINITION. Bit fields, signed readings, saturation and the narrowing rule of 00_scope.md R10, over numbers.
Marks (notes/assumptions): DEDUCED 83.
-/
namespace Sys2Proof.Machine

/-- Bits `lo + n - 1 : lo` of a word, as a number. -/
def bits (w : Word) (lo n : Nat) : Nat := (w.toNat >>> lo) % 2 ^ n

/-- Bit `i` of a word. -/
def bit (w : Word) (i : Nat) : Bool := (w.toNat >>> i) % 2 == 1

/-- The word `w` with bits `lo + n - 1 : lo` replaced by `v` (cut to `n` bits). -/
def setBits (w : Word) (lo n v : Nat) : Word :=
  BitVec.ofNat 32 (w.toNat - (bits w lo n) * 2 ^ lo + (v % 2 ^ n) * 2 ^ lo)

/-- The number `1` for a true flag, `0` for a false one. -/
def b2n (b : Bool) : Nat := if b then 1 else 0

/-- The word of a number, cut to 32 bits. -/
def w32 (n : Nat) : Word := BitVec.ofNat 32 n

/-- A number of `n` bits read as two's complement. -/
def sgn (n v : Nat) : Int :=
  let m := v % 2 ^ n
  if m < 2 ^ (n - 1) then (m : Int) else (m : Int) - (2 ^ n : Nat)

/-- An integer cut to `n` bits, two's complement. -/
def unsgn (n : Nat) (v : Int) : Nat := (v % (2 ^ n : Nat)).toNat

/-- The word that holds an integer in two's complement. -/
def wOfInt (v : Int) : Word := w32 (unsgn 32 v)

/-- A word read as a signed integer. -/
def wInt (w : Word) : Int := sgn 32 w.toNat

/-- Does `v` fit in `n` bits of two's complement? -/
def fits (n : Nat) (v : Int) : Bool := -(2 ^ (n - 1) : Nat) ≤ v && v < (2 ^ (n - 1) : Nat)

/-- `v` saturated to `n` bits of two's complement. -/
def sat (n : Nat) (v : Int) : Int :=
  if v < -(2 ^ (n - 1) : Nat) then -(2 ^ (n - 1) : Nat)
  else if v ≥ (2 ^ (n - 1) : Nat) then (2 ^ (n - 1) : Nat) - 1
  else v

/-- Narrowing by `k` bits toward minus infinity (R10). -/
def narrow (v : Int) (k : Nat) : Int := v / (2 ^ k : Nat)

/-- The floor of `a / b` for a positive `b`; `0` when `b` is `0`. -/
def floorDiv (a : Int) (b : Nat) : Int := if b = 0 then 0 else a / (b : Int)

/-- A counter of `n` bits that saturates at its largest value. -/
def satInc (n v : Nat) : Nat := if v + 1 < 2 ^ n then v + 1 else 2 ^ n - 1

/-- A 64-bit value of two words, the lower first (R14). -/
def pair (lo hi : Word) : Nat := hi.toNat * 2 ^ 32 + lo.toNat

/-- The bits of `f` that are set in `mask` taken from `v`, the others from `w`. -/
def merge (w mask v : Word) : Word := (w &&& ~~~mask) ||| (v &&& mask)

end Sys2Proof.Machine
end

