-- ==== Sys2Proof/Machine/Table.lean ====
section
/-!
DEFINITION. Sparse tables: lists of key and value pairs in one canonical form, keys strictly rising, so that
equal tables are equal data. Memory, the register file and every indexed store of the model are such tables.
-/
namespace Sys2Proof.Machine

/-- A sparse table from numbers to `α`. -/
abbrev Tbl (α : Type) := List (Nat × α)

/-- The entry of key `k`. -/
def Tbl.get? {α : Type} (t : Tbl α) (k : Nat) : Option α :=
  match t with
  | [] => none
  | (a, v) :: rest => if a = k then some v else Tbl.get? rest k

/-- The entry of key `k`, or `d` where the table lists none. -/
def Tbl.getD {α : Type} (t : Tbl α) (k : Nat) (d : α) : α := (Tbl.get? t k).getD d

/-- The table without key `k`. -/
def Tbl.del {α : Type} (t : Tbl α) (k : Nat) : Tbl α :=
  match t with
  | [] => []
  | (a, v) :: rest => if a = k then Tbl.del rest k else (a, v) :: Tbl.del rest k

/-- The entry `(k, v)` put before the first larger key. -/
def Tbl.ins {α : Type} (t : Tbl α) (k : Nat) (v : α) : Tbl α :=
  match t with
  | [] => [(k, v)]
  | (a, w) :: rest => if k < a then (k, v) :: (a, w) :: rest else (a, w) :: Tbl.ins rest k v

/-- The table with `v` at key `k`. -/
def Tbl.put {α : Type} (t : Tbl α) (k : Nat) (v : α) : Tbl α := Tbl.ins (Tbl.del t k) k v

/-- The table with `v` at key `k`, where an unlisted key reads as `d`: writing `d` removes the entry. -/
def Tbl.set {α : Type} [DecidableEq α] (t : Tbl α) (d : α) (k : Nat) (v : α) : Tbl α :=
  if v = d then Tbl.del t k else Tbl.put t k v

/-- The table without the keys that satisfy `p`. -/
def Tbl.drop {α : Type} (t : Tbl α) (p : Nat → Bool) : Tbl α := t.filter (fun e => !p e.1)

/-- Keys strictly rising. -/
def Tbl.rising {α : Type} (t : Tbl α) : Bool :=
  match t with
  | [] => true
  | [_] => true
  | (a, _) :: (b, w) :: rest => decide (a < b) && Tbl.rising ((b, w) :: rest)

/-- The canonical form: keys strictly rising and no entry equal to what an unlisted key reads as. -/
def Tbl.wf {α : Type} [DecidableEq α] (t : Tbl α) (d : α) : Bool :=
  Tbl.rising t && t.all (fun e => decide (e.2 ≠ d))

end Sys2Proof.Machine
end

