-- ==== Sys2Proof/Machine/Reg.lean ====
section
/-!
DEFINITION. Registers, fields and rows of a register map as data (00_scope.md R12 to R19), and the register file.
Marks (notes/assumptions): DESIGN CHOICE 5.
-/
namespace Sys2Proof.Machine

/-- A register: its peripheral block (64 for the engine registers of 05_virif_engines.md R166), its byte offset,
the strides of a numbered register, the instance or agent its copy belongs to, and its reset value. -/
structure Reg where
  blk : Nat
  off : Nat
  st1 : Nat
  st2 : Nat
  rst : Nat
  inst : Nat
  deriving DecidableEq, Repr

/-- A field of a register: its lowest bit and its width. -/
structure Fld where
  reg : Reg
  lo : Nat
  len : Nat
  deriving DecidableEq, Repr

/-- Copy `i` of a numbered register. -/
def Reg.at (r : Reg) (i : Nat) : Reg := { r with off := r.off + r.st1 * i }

/-- Copy `j` of unit `i` of a register numbered twice. -/
def Reg.at2 (r : Reg) (i j : Nat) : Reg := { r with off := r.off + r.st1 * i + r.st2 * j }

/-- The copy that belongs to instance, or agent, `i`. -/
def Reg.of (r : Reg) (i : Nat) : Reg := { r with inst := i }

def Fld.at (f : Fld) (i : Nat) : Fld := { f with reg := f.reg.at i }
def Fld.of (f : Fld) (i : Nat) : Fld := { f with reg := f.reg.of i }

/-- The address of a register (00_scope.md R22). -/
def Reg.addr (r : Reg) : Nat := 0x50000000 + r.blk * 65536 + r.off

/-- The address of an engine's register (05_virif_engines.md R142, R166). -/
def engAddr (e off : Nat) : Nat := 0x400F0000 + e * 2 ^ 20 + off

/-- The key of a register in the register file. -/
def Reg.key (r : Reg) : Nat := (r.blk * 65536 + r.off) * 65536 + r.inst

/-- A row of a register map, as the bus uses it: where it is, how often it repeats, its reset value, the bits a
write sets (`wmask`) and the bits a written 1 clears (`cmask`). A bit in neither mask ignores writes. -/
structure RegRow where
  reg : Reg
  n1 : Nat
  n2 : Nat
  wmask : Nat
  cmask : Nat
  deriving DecidableEq, Repr

/-- The register file: unlisted registers hold their reset value. -/
abbrev RegFile := Tbl Word

def RegFile.rd (t : RegFile) (r : Reg) : Word := Tbl.getD t r.key (w32 r.rst)
def RegFile.wr (t : RegFile) (r : Reg) (v : Word) : RegFile := Tbl.set t (w32 r.rst) r.key v

/-- The block that a key of the register file belongs to. -/
def keyBlk (k : Nat) : Nat := k / 2 ^ 32

/-- The offset that a key of the register file belongs to. -/
def keyOff (k : Nat) : Nat := (k / 65536) % 65536

/-- Every register of block `b` back at its reset value. -/
def RegFile.resetBlk (t : RegFile) (b : Nat) : RegFile := Tbl.drop t (fun k => keyBlk k == b)

end Sys2Proof.Machine
end

