-- ==== Sys2Proof/Machine/Terms.lean ====
section
/-!
DEFINITION. The operand types of the commands: who makes an access (00_scope.md R24) and what arrives from outside
the block (frames, packets, messages, measurements), as plain data.
Marks (notes/assumptions): DESIGN CHOICE 8; DEDUCED 92.
-/
namespace Sys2Proof.Machine

/-- Who makes an access (00_scope.md R24). -/
inductive Agent
  | pcie
  | spi
  | i2c
  | station (k : Fin 4)
  | virif (e : Fin 16)
  | twin
  | dma (k : Fin 2)
  | debug
  deriving DecidableEq, Repr

/-- The agent number of R24. -/
def Agent.num (m : Agent) : Nat :=
  match m with
  | .pcie => 1
  | .spi => 2
  | .i2c => 3
  | .station k => 4 + k.val
  | .virif e => 8 + e.val
  | .twin => 24
  | .dma k => 25 + k.val
  | .debug => 31

/-- The fabric master that carries an agent (13_memory.md R372). -/
def Agent.master (m : Agent) : Nat :=
  let n := m.num
  if n ≤ 3 then 11 else if n ≤ 7 then n - 4 else if n ≤ 23 then 4 else if n = 24 then 12 else if n ≤ 26 then n - 17 else 13

/-- An error that an access to memory finds (13_memory.md R368, R387): an address in the 64-bit word, and whether it is a double-bit error, which is
not corrected. -/
structure EccHit where
  addr : Nat
  double : Bool
  deriving DecidableEq, Repr

/-- An error that a unit's read of a store finds (13_memory.md R367, R368): the store's index, its 64-bit word, and whether it is a double-bit
error. -/
structure StoreHit where
  store : Fin 8
  word : Nat
  double : Bool
  deriving DecidableEq, Repr

/-- An object update record of eight words (02_gain_solver.md R48). -/
structure Rec8 where
  w0 : Word
  w1 : Word
  w2 : Word
  w3 : Word
  w4 : Word
  w5 : Word
  w6 : Word
  w7 : Word
  deriving DecidableEq, Repr

/-- A move slot of a standard bundle (05_virif_engines.md R152); `low` is bits 3:0. -/
structure Slot where
  mop : Fin 8
  ptr : Fin 8
  am : Fin 8
  reg : Fin 32
  low : Fin 16
  deriving DecidableEq, Repr

/-- A standard bundle but for its OPC, which the row gives (R150, R151), and the single-bit errors that the engine corrects as it reads for the
bundle (R144). -/
structure Std where
  dst : Fin 32
  sa : Fin 32
  sb : Fin 32
  acc : Fin 4
  md : Fin 4
  x : Slot
  y : Slot
  ce : Fin 8
  deriving DecidableEq, Repr

/-- An immediate bundle but for its IOP (R153); `rsv` is bits 45:32, `ce` as in `Std`. -/
structure Imm where
  reg : Fin 32
  reg2 : Fin 32
  rsv : Fin 16384
  imm : Word
  ce : Fin 8
  deriving DecidableEq, Repr

/-- A control bundle but for its COP (R154); `rsv` is bits 31:13, `ce` as in `Std`. -/
structure Ctl where
  reg : Fin 32
  cond : Fin 8
  count : Fin 65536
  rsv : Fin 524288
  target : Fin 8192
  ce : Fin 8
  deriving DecidableEq, Repr

/-- One frame of a TDM port (07_tdm_ports.md R206): the sample index that MCK0 gives it in the receive direction, the bits on DIN from the active FSYNC edge to
the end of the last slot, the frame's period and phase as measured, and whether a slave met a glitch. -/
structure TdmFrame where
  rx : Nat
  din : List Bool
  period : Nat
  phase : Nat
  glitch : Bool
  deriving DecidableEq, Repr

/-- One frame of an AES3 interface (R223): the sample index that MCK0 gives it as to a received frame, the two 24-bit audio fields, their validity bits,
their biphase or parity errors, the measured rate (AR_RATE) and phase. -/
structure AesFrame where
  idx : Nat
  a : Nat
  b : Nat
  va : Bool
  vb : Bool
  ea : Bool
  eb : Bool
  rate : Nat
  phase : Nat
  deriving DecidableEq, Repr

/-- A time stamp (08_network.md R256): nanoseconds, seconds (48 bits), tenths of a nanosecond. -/
structure Stamp where
  ns : Nat
  sec : Nat
  tenth : Nat
  deriving DecidableEq, Repr

/-- How a transmission ended (R238): sent, or not sent (bad length, fetch error); whether the fabric could not keep up; the core cycle of
the frame's first bit, and the tenths of it (09_time_references.md R262). -/
structure TxResult where
  ok : Bool
  underrun : Bool
  cyc : Nat
  sub : Fin 10
  ecc : List EccHit
  deriving DecidableEq, Repr

/-- A received frame (R237, R238): its bytes without FCS, with its PRP trailer where it has one; its error (0 none, 1 FCS, 2 symbol); the
core cycle of its first bit and the tenths of it (09_time_references.md R262); MCK0's sample index then (R245); the errors that its store finds. -/
structure RxFrame where
  bytes : List Byte
  error : Fin 3
  cyc : Nat
  sub : Fin 10
  now : Nat
  ecc : List EccHit
  deriving DecidableEq, Repr

/-- A PTP message that Station firmware handles (09_time_references.md R261, R279): port, domain, and of an Announce the
clockClass and clockAccuracy. -/
structure PtpMsg where
  port : Fin 3
  domain : Nat
  announce : Option (Nat × Nat)
  deriving DecidableEq, Repr

/-- What the reference unit measures of an input at a tick (R278, R280): edges arrive, an edge was outside its window, the
frequency offset in ppb over the latest 64 ms, and the nominal rate matched: its multiple (0 none), of the 44.1 kHz family or of the
48 kHz family. -/
structure RefMeas where
  present : Bool
  glitch : Bool
  freq : Int
  mult : Fin 4
  fam : Bool
  deriving DecidableEq, Repr

/-- What a channel measures at a tick (R286): the loop error in 1/256 sample, stage 1's frequency offset in ppb. -/
structure ChMeas where
  err : Int
  freq : Int
  deriving DecidableEq, Repr

/-- A consist car (15_consist_boot.md R411): its header words and its payload. -/
structure Car where
  w0 : Word
  w1 : Word
  w2 : Word
  w3 : Word
  payload : List Word
  deriving DecidableEq, Repr

/-- A burst of a fabric master (13_memory.md R372 to R378): master, the agent it carries, ID, the core cycle in which it was issued, direction,
address, bytes, the data of a write (none where the byte is not enabled), whether it belongs to a locked sequence (R377), and the errors that the
access finds (R368). -/
structure FabReq where
  master : Fin 14
  agent : Option Agent
  id : Fin 16
  since : Nat
  write : Bool
  addr : Nat
  size : Nat
  data : List (Option Byte)
  lock : Bool
  ecc : List EccHit
  deriving DecidableEq, Repr

/-- A grant of target `tgt` in core cycle `cyc`, to a read or a write, and the bursts that the masters have issued since the latest grant, in the
order of issue. -/
structure Grant where
  tgt : Fin 14
  write : Bool
  cyc : Nat
  reqs : List FabReq
  deriving DecidableEq, Repr

/-- A burst of a real-time DRAM port (R384): port, address, the data of a write, the feed it serves. -/
structure RtReq where
  port : Fin 2
  addr : Nat
  data : Option (List Byte)
  feed : Nat
  deriving DecidableEq, Repr

/-- What the controller meets as it serves a request (R383, R384, R387): the real-time requests queued since the latest one, how many of the oldest
requests are older than 2 us, the bursts of read data that the units have taken from each port's buffer since, the errors that the burst finds. -/
structure DramReq where
  arrive : List RtReq
  old : Nat
  took0 : Nat
  took1 : Nat
  ecc : List EccHit
  deriving DecidableEq, Repr

end Sys2Proof.Machine
end

