-- ==== Sys2Proof/Machine/UGsv.lean ====
section
/-!
DEFINITION. The state of the gain solver beside its registers (02_gain_solver.md): the layout tables, the object
queues and records, the node-target slots, the flush marks and the ring fetcher.
-/
namespace Sys2Proof.Machine

/-- Three integers: a position in mm or a velocity in mm per block (R10). -/
structure Vec3 where
  x : Int
  y : Int
  z : Int
  deriving DecidableEq, Repr

/-- Three binary32 values. -/
structure FVec where
  x : Word
  y : Word
  z : Word
  deriving DecidableEq, Repr

/-- A speaker of the layout (R60). -/
structure Speaker where
  feed : Nat
  pos : Vec3
  dir : FVec
  zone : Nat
  deriving DecidableEq, Repr

/-- A virtual speaker: up to eight (speaker, weight) pairs (R60). -/
structure VSpeaker where
  pos : Vec3
  dir : FVec
  pairs : List (Nat × Word)
  deriving DecidableEq, Repr

/-- A triangle: its vertices, the rows of the inverse of its vertex-direction matrix, its neighbours, each across
the edge opposite a vertex (R60). -/
structure Triangle where
  v0 : Nat
  v1 : Nat
  v2 : Nat
  r0 : FVec
  r1 : FVec
  r2 : FVec
  n0 : Nat
  n1 : Nat
  n2 : Nat
  deriving DecidableEq, Repr

/-- One triple of a bed entry: feed, gain Q4.20, delay (R60). -/
structure BedTriple where
  feed : Nat
  gain : Nat
  dly : Nat
  deriving DecidableEq, Repr

/-- One member of an array group (R60). -/
structure ArrMember where
  feed : Nat
  pos : Vec3
  nrm : FVec
  deriving DecidableEq, Repr

/-- An array group (R60). -/
structure ArrGroup where
  centre : Vec3
  nrm : FVec
  tauRef : Nat
  members : List ArrMember
  deriving DecidableEq, Repr

/-- The loudspeaker layout (R60). `bed` and `arr` list the entries that are present, by number; `objs` gives the
CRM input of object `n` at position `n`. -/
structure Layout where
  spk : List Speaker
  vspk : List VSpeaker
  tri : List Triangle
  bed : Tbl (List BedTriple)
  arr : Tbl ArrGroup
  boxC : Vec3
  boxH : Vec3
  objs : List Nat
  deriving DecidableEq, Repr

def Layout.empty : Layout := ⟨[], [], [], [], [], ⟨0, 0, 0⟩, ⟨0, 0, 0⟩, []⟩

/-- A queued update with its effective block (R55). -/
structure QUpd where
  rc : Rec8
  eff : Nat
  deriving DecidableEq, Repr

/-- A node target: gain code and delay code (R71). -/
structure Tgt where
  gain : Nat
  dly : Nat
  deriving DecidableEq, Repr

/-- The update in effect of an object: its record, its effective block and the block it was applied on (R56, R58). -/
structure LiveUpd where
  rc : Rec8
  eff : Nat
  since : Nat
  deriving DecidableEq, Repr

/-- An object: its queue (oldest first), the update in effect, the position of the latest block solved, the kept
triangle of R63, the triangle OBJ_TRI reports, the direction of the previous solved block (R64), the targets last
written by feed (R72), and whether the latest block carried it (R73). -/
structure Obj where
  queue : List QUpd
  live : Option LiveUpd
  pos : Vec3
  kept : Nat
  tri : Option Nat
  dir : FVec
  tgts : Tbl Tgt
  carried : Bool
  deriving DecidableEq, Repr

/-- The direction `(0, 1, 0)` of the first block an object is solved (R64). -/
def FVec.front : FVec := ⟨0#32, 0x3F800000#32, 0#32⟩

def Obj.empty : Obj := ⟨[], none, ⟨0, 0, 0⟩, 0, none, .front, [], false⟩

/-- A node write of the solver (R72): input, feed, target, ramp time in blocks. -/
structure NodeTgt where
  input : Nat
  feed : Nat
  tgt : Tgt
  ramp : Nat
  deriving DecidableEq, Repr

/-- A filled slot of QID 295: the block, its node writes, and the objects as they were before it was solved (what
R59 returns to). -/
structure GsvSlot where
  blk : Nat
  writes : List NodeTgt
  before : Tbl Obj
  deriving DecidableEq, Repr

/-- The parameters of R75 as the solver uses them. -/
structure GsvPar where
  en : Bool
  dref : Nat
  roll : Nat
  sound : Nat
  extrap : Nat
  deriving DecidableEq, Repr

def GsvPar.reset : GsvPar := ⟨true, 0x1388, 0, 0x53BD8, 0x40⟩

/-- The gain solver. `pars` lists parameter writes that wait for their block (R75), oldest first, as (block, offset, value); `flushes` the
object and block of a FLUSH that has not acted (R53); `ringWait` the ring record that waits for a ticket (R51);
`ringKeep` the producer index at the latest disable. -/
structure Gsv where
  layout : Layout
  objs : Tbl Obj
  slots : List GsvSlot
  next : Nat
  par : GsvPar
  pars : List (Nat × Nat × Nat)
  flushes : List (Nat × Nat)
  ringWait : Option Rec8
  ringKeep : Nat
  deriving DecidableEq, Repr

def Gsv.reset : Gsv := ⟨.empty, [], [], 0, .reset, [], [], none, 0⟩

def Gsv.obj (g : Gsv) (o : Nat) : Obj := Tbl.getD g.objs o .empty
def Gsv.setObj (g : Gsv) (o : Nat) (v : Obj) : Gsv := { g with objs := Tbl.set g.objs .empty o v }

end Sys2Proof.Machine
end

