-- ==== Sys2Proof/Machine/UCrm.lean ====
section
/-!
DEFINITION. The state of the crosspoint rendering matrix beside its registers (03_crosspoint.md R76 to R107).
-/
namespace Sys2Proof.Machine

/-- A node record (R79). `stRamp` to `nz` are the STATE bits; `wrA`, `wrB` say which banks a window or loader write
has written since the latest uncorrectable error (R101), `loud` that a target gain was not 0 as the latest block began (R90). -/
structure Node where
  aGain : Nat
  aDly : Nat
  bGain : Nat
  bDly : Nat
  liveGain : Nat
  liveDly : Nat
  stRamp : Bool
  stXf : Bool
  lim : Bool
  eccx : Bool
  nz : Bool
  wrA : Bool
  wrB : Bool
  loud : Bool
  deriving DecidableEq, Repr

def Node.zero : Node := ⟨0, 0, 0, 0, 0, 0, false, false, false, false, false, false, false, false⟩

/-- A node is dormant when both target gains and the live gain are 0 (R93). -/
def Node.dormant (n : Node) : Bool := n.aGain == 0 && n.bGain == 0 && n.liveGain == 0

/-- A queued whole-set swap (R95): the bank to flip to (true = B), the ramp time, TIMED, the block it asks for, and whether the block it named
was past at its write (R96). -/
structure SwapReq where
  bank : Bool
  ramp : Nat
  timed : Bool
  blk : Nat
  late : Bool
  deriving DecidableEq, Repr

/-- The block being rendered: its index, the next group of four feeds, node counts and cycles so far (R103). -/
structure Rend where
  blk : Nat
  grp : Nat
  act : Nat
  xf : Nat
  cyc : Nat
  deriving DecidableEq, Repr

/-- What takes effect on a block, as its departure settled it (01_architecture.md R32): the flip (R94), a COPY (R85), NZ_CLR (R107), the
solver's writes (R84) with the errors that they find, and the node writes that complete after the departure and before the CRM begins the
block, as (input, feed, gain, delay). -/
structure CrmDep where
  blk : Nat
  flip : Option SwapReq
  copy : Bool
  nz : Bool
  writes : List NodeTgt
  ecc : List EccHit
  posts : List (Nat × Nat × Nat × Nat)
  deriving DecidableEq, Repr

/-- The CRM. `wait` holds the departed blocks that it has not begun, because the one before is unfinished, oldest first
(01_architecture.md R31). `lines` holds each input's delay line, newest sample first (R78), of block `lineBlk`; `ramp` the first
block after each input's ramp end (R86); `run` the running swap's bank and the first block after its ramp end;
`begun` the first block that has not begun. `src` maps an input to a queue and channel (consist); `fbuf` holds
the rendered blocks of each feed that the CCE has not taken, oldest first. -/
structure Crm where
  nin : Nat
  nout : Nat
  src : Tbl (Nat × Nat)
  nodes : Tbl Node
  lines : Tbl (List Word)
  lineBlk : Nat
  ramp : Tbl Nat
  live : Bool
  run : Option (Bool × Nat)
  queued : Option SwapReq
  copyAt : Option Nat
  copyRun : Bool
  nzAt : Option Nat
  ldRun : Bool
  ldAddr : Nat
  ldLeft : Nat
  rend : Option Rend
  wait : List CrmDep
  begun : Nat
  fbuf : Tbl (List (Nat × List Word))
  deriving DecidableEq, Repr

def Crm.reset : Crm :=
  ⟨0, 0, [], [], [], 0, [], false, none, none, none, false, none, false, 0, 0, none, [], 0, []⟩

/-- The key of node `(i, o)` (R80). -/
def nodeKey (i o : Nat) : Nat := 1024 * o + i

def Crm.node (c : Crm) (i o : Nat) : Node := Tbl.getD c.nodes (nodeKey i o) .zero
def Crm.setNode (c : Crm) (i o : Nat) (n : Node) : Crm :=
  { c with nodes := Tbl.set c.nodes .zero (nodeKey i o) n }
def Crm.rampEnd (c : Crm) (i : Nat) : Nat := Tbl.getD c.ramp i 0

end Sys2Proof.Machine
end

