-- ==== Sys2Proof/Machine/UCce.lean ====
section
/-!
DEFINITION. The state of the correction engine beside its registers (04_correction.md R108 to R140).
-/
namespace Sys2Proof.Machine

/-- A coefficient bank of a feed (R114 to R116, R123): section coefficients by `5 * section + index`, bypass mask,
error feedback, FIR taps, and whether the last load of the taps was complete (R121). -/
structure CBank where
  coef : Tbl Word
  byp : Nat
  ef : Bool
  taps : List Word
  whole : Bool
  deriving DecidableEq, Repr

/-- Reset: every section bypassed, coefficients and taps 0 (R137, R140). -/
def CBank.reset : CBank := ⟨[], 0xFFFF, false, [], true⟩

/-- The state of one second-order section (R114). -/
structure Sec where
  x1 : Int
  x2 : Int
  y1 : Int
  y2 : Int
  e1 : Int
  deriving DecidableEq, Repr

def Sec.zero : Sec := ⟨0, 0, 0, 0, 0⟩

/-- A path through stages 4 and 5: the sections that are not at 0, and the stage-4 samples, newest first. -/
structure Path where
  secs : Tbl Sec
  hist : List Word
  deriving DecidableEq, Repr

def Path.zero : Path := ⟨[], []⟩

/-- A ramping factor of stage 7, Q2.30 (R130): live value, target, first block after its ramp end. -/
structure Factor where
  live : Nat
  tgt : Nat
  stop : Nat
  deriving DecidableEq, Repr

/-- 1.0 in Q2.30. -/
def one30 : Nat := 0x40000000

/-- A running swap (R124, R125): a dip or a crossfade, the bank it flips to, its ramp time, its first block. -/
structure FSwap where
  dip : Bool
  bank : Bool
  ramp : Nat
  start : Nat
  deriving DecidableEq, Repr

/-- A queued swap of a feed (R126, R127): the bank, the ramp time, the block it asks for, and whether a group request made it. -/
structure FReq where
  bank : Bool
  ramp : Nat
  blk : Nat
  grp : Bool
  deriving DecidableEq, Repr

/-- A feed's chain. `m` is the live multiplier of stages 1 and 2 (R111), `dly` the live delay and `line` the delay
line, newest first (R113); `path` runs the live bank and `fresh` the new bank of a crossfade; `gs` and `hold` belong
to the limiter (R129); `late` asks for the ramp of R31. -/
structure Feed where
  m : Int
  dly : Nat
  line : List Word
  bankA : CBank
  bankB : CBank
  live : Bool
  run : Option FSwap
  queued : Option FReq
  path : Path
  old : Path
  user : Factor
  glob : Factor
  swp : Factor
  sys : Factor
  gs : Word
  hold : Nat
  limAct : Bool
  muted : Bool
  eccx : Bool
  late : Bool
  deriving DecidableEq, Repr

/-- A feed after reset: every factor of R130 at 0 (R137). Its factors then ramp as `Feed.rises` says. -/
def Feed.reset : Feed :=
  ⟨0, 0, [], .reset, .reset, false, none, none, .zero, .zero, ⟨0, one30, 0⟩, ⟨0, one30, 0⟩, ⟨0, one30, 0⟩, ⟨0, 0, 0⟩,
   0x3F800000#32, 0, false, false, false, false⟩

/-- The factors rise from 0 over block `b`, the system factor to `sys` (R130, R137: RAMP resets to one block). -/
def Feed.rises (f : Feed) (b sys : Nat) : Feed :=
  { f with user := ⟨0, one30, b + 1⟩, glob := ⟨0, one30, b + 1⟩, swp := ⟨0, one30, b + 1⟩, sys := ⟨0, sys, b + 1⟩ }

/-- The factor that a change of target concerns (R130): a feed's user factor, every feed's global factor, the system factor of one feed or of
every feed. -/
inductive Which
  | user (o : Nat)
  | glob
  | sys (o : Option Nat)
  deriving DecidableEq, Repr

/-- A change of a factor's target that waits for its block (R88, R110, R130): the block, the target, the ramp time, and whether the factor starts
from 0. -/
structure Aim where
  who : Which
  blk : Nat
  tgt : Nat
  ramp : Nat
  zero : Bool
  deriving DecidableEq, Repr

/-- What takes effect on a block, as its departure settled it (01_architecture.md R32): the registers (R110), the changes of target (R130) and
the swaps that flip, by feed (R126). -/
structure CceDep where
  blk : Nat
  latch : RegFile
  aims : List Aim
  flips : Tbl FSwap
  deriving DecidableEq, Repr

/-- The FIR loader (R121): feed, source, taps asked for; `wait` while the feed's swap runs (R123). -/
structure FirLoad where
  feed : Nat
  addr : Nat
  count : Nat
  wait : Bool
  deriving DecidableEq, Repr

/-- The correction engine: the feeds, the block being processed (`cut` after its output cut-off has passed), the
samples of the feeds done for it with a flag per sample that some stage saturated, the feeds that wait for DRAM, the
cycles and the DRAM traffic so far, whether the block had an underflow or a wait, the latest departed block, the registers as the block being
processed uses them (R110), the changes of target that wait for a departure, the departed blocks that have not begun because the one before is
unfinished (01_architecture.md R31), oldest first, the loader, the dither generator. -/
structure Cce where
  feeds : Tbl Feed
  blk : Option Nat
  cut : Bool
  done : Tbl (List (Word × Bool))
  waits : List Nat
  cyc : Nat
  traf : Nat
  ufl : Bool
  waited : Bool
  dep : Nat
  latch : RegFile
  aims : List Aim
  wait : List CceDep
  load : Option FirLoad
  dith : Nat
  deriving DecidableEq, Repr

def Cce.reset : Cce := ⟨[], none, false, [], [], 0, 0, false, false, 0, [], [], [], none, 0⟩

/-- The registers of the correction block, as a departure latches them. -/
def Cce.latchFrom (_c : Cce) (t : RegFile) : RegFile := t.filter (fun e => keyBlk e.1 == 5)

def Cce.feed (c : Cce) (o : Nat) : Feed := Tbl.getD c.feeds o .reset
def Cce.setFeed (c : Cce) (o : Nat) (f : Feed) : Cce := { c with feeds := Tbl.set c.feeds .reset o f }

/-- The swap that feed `o` runs once the departed blocks have begun (R126). -/
def Cce.runOf (c : Cce) (o : Nat) : Option FSwap :=
  c.wait.foldl (fun r p => match Tbl.get? p.flips o with
    | some s => some s
    | none => r) (c.feed o).run

/-- The bank to which that swap flips, or the live bank (R126). -/
def Cce.bankOf (c : Cce) (o : Nat) : Bool :=
  match c.runOf o with
  | some r => r.bank
  | none => (c.feed o).live

end Sys2Proof.Machine
end

