-- ==== Sys2Proof/Machine/UQueue.lean ====
section
/-!
DEFINITION. Ticketed queues (01_architecture.md R34 to R40): the accounts of every QID, and the blocks of samples
that the filled slots of the audio queues hold.
Marks (notes/assumptions): DEDUCED 41.
-/
namespace Sys2Proof.Machine

/-- The account of a queue: depth, tickets held, in flight, filled slots, and pops whose ticket has not arrived
back (R34 to R36). -/
structure Ticket where
  d : Nat
  h : Nat
  f : Nat
  s : Nat
  ret : Nat
  deriving DecidableEq, Repr

def Ticket.none : Ticket := ⟨0, 0, 0, 0, 0⟩

/-- A queue as the consist creates it (R34 step 1). -/
def Ticket.fresh (d : Nat) : Ticket := ⟨d, d, 0, 0, 0⟩

/-- One filled slot of an audio queue: the block and the samples of each channel, oldest first. -/
structure QSlot where
  blk : Nat
  ch : Tbl (List Word)
  deriving DecidableEq, Repr

/-- The queues: accounts by QID, the slots' samples by QID (oldest first), and the audit capture of R40: block, and
H, F, S by QID. `audit` is true from a capture until its comparison; `wait` holds, by QID, the slots that a producer without tickets waits to
write, oldest first (R37). -/
structure Queues where
  acc : Tbl Ticket
  slots : Tbl (List QSlot)
  cap : Tbl Ticket
  capBlk : Nat
  audit : Bool
  wait : Tbl (List QSlot)
  deriving DecidableEq, Repr

def Queues.reset : Queues := ⟨[], [], [], 0, false, []⟩

def Queues.get (q : Queues) (k : Nat) : Ticket := Tbl.getD q.acc k .none
def Queues.put (q : Queues) (k : Nat) (t : Ticket) : Queues := { q with acc := Tbl.set q.acc .none k t }

/-- The producer spends a ticket: the slot is in flight (R34 step 2). -/
def Queues.spend (q : Queues) (k : Nat) : Queues :=
  let t := q.get k
  if t.h = 0 then q else q.put k { t with h := t.h - 1, f := t.f + 1 }

/-- The write completes: the slot is filled (R34 step 3). -/
def Queues.fill (q : Queues) (k : Nat) : Queues :=
  let t := q.get k
  if t.f = 0 then q else q.put k { t with f := t.f - 1, s := t.s + 1 }

def Queues.slotsOf (q : Queues) (k : Nat) : List QSlot := Tbl.getD q.slots k []
def Queues.setSlots (q : Queues) (k : Nat) (l : List QSlot) : Queues := { q with slots := Tbl.set q.slots [] k l }

/-- A slot written whole: a ticket is spent and the slot is filled. -/
def Queues.push (q : Queues) (k : Nat) (v : QSlot) : Queues :=
  if (q.get k).h = 0 then q else (((q.spend k).fill k).setSlots k (q.slotsOf k ++ [v]))

def Queues.waiting (q : Queues) (k : Nat) : List QSlot := Tbl.getD q.wait k []

/-- The slot that has waited longest is written when the producer holds a ticket again (R37). -/
def Queues.letIn (q : Queues) (k : Nat) : Queues :=
  match q.waiting k with
  | [] => q
  | v :: rest => if (q.get k).h = 0 then q else ({ q with wait := Tbl.set q.wait [] k rest }).push k v

/-- A slot of a producer that waits for tickets (R37). -/
def Queues.offer (q : Queues) (k : Nat) (v : QSlot) : Queues :=
  if (q.get k).h = 0 ∨ q.waiting k ≠ [] then { q with wait := Tbl.set q.wait [] k (q.waiting k ++ [v]) } else q.push k v

/-- A returned ticket arrives at the producer (R36). -/
def Queues.back (q : Queues) (k : Nat) : Queues :=
  let t := q.get k
  if t.ret = 0 then q else (q.put k { t with ret := t.ret - 1, h := t.h + 1 }).letIn k

/-- The returned tickets of one queue arrive. -/
def Queues.settleOf (q : Queues) (k : Nat) : Queues :=
  let t := q.get k
  (q.put k { t with h := t.h + t.ret, ret := 0 }).letIn k

/-- The consumer pops: the ticket is on its way back (R34 step 4). At most one return of a queue is outstanding: that of the pop before has
arrived (R36). -/
def Queues.pop (q : Queues) (k : Nat) : Queues :=
  if (q.get k).s = 0 then q
  else
    let q := q.settleOf k
    let t := q.get k
    q.put k { t with s := t.s - 1, ret := 1 }

/-- The oldest slot taken out. -/
def Queues.take (q : Queues) (k : Nat) : Option QSlot × Queues :=
  let p := q.pop k
  match q.slotsOf k with
  | [] => (none, p)
  | v :: _ => (some v, p.setSlots k ((p.slotsOf k).drop 1))

/-- The slots before block `b` taken out, their data unused (07_tdm_ports.md R214: a slot is read for its own block only). -/
def Queues.skip (q : Queues) (k b : Nat) : (fuel : Nat) → Queues
  | 0 => q
  | fuel + 1 =>
    match q.slotsOf k with
    | v :: _ => if v.blk < b then (q.take k).2.skip k b fuel else q
    | [] => q

/-- The slot of block `b`, taken out where the queue holds it (R214). -/
def Queues.takeBlk (q : Queues) (k b : Nat) : Option QSlot × Queues :=
  let q := q.skip k b 16
  match q.slotsOf k with
  | v :: _ => if v.blk = b then q.take k else (none, q)
  | [] => (none, q)

/-- A queue that ceases to exist. -/
def Queues.remove (q : Queues) (k : Nat) : Queues := { (q.put k .none).setSlots k [] with wait := Tbl.del q.wait k }

/-- A queue that comes to exist with depth `n`, unless it exists already. -/
def Queues.create (q : Queues) (k n : Nat) : Queues := if (q.get k).d = 0 then q.put k (.fresh n) else q

/-- `n` slots written whole, as far as the producer has tickets. -/
def Queues.fillN (q : Queues) (k n : Nat) : Queues :=
  let t := q.get k
  let m := min n t.h
  q.put k { t with h := t.h - m, s := t.s + m }

/-- Every filled slot popped, one after the other: the return of the last one is outstanding (R36). -/
def Queues.popAll (q : Queues) (k : Nat) : Queues :=
  if (q.get k).s = 0 then q
  else
    let q := q.settleOf k
    let t := q.get k
    q.put k { t with s := 0, h := t.h + (t.s - 1), ret := 1 }

/-- Every returned ticket arrives (R36: none is outstanding at a capture). -/
def Queues.settle (q : Queues) : Queues :=
  (q.wait.map Prod.fst).foldl Queues.letIn { q with acc := q.acc.map (fun e => (e.1, { e.2 with h := e.2.h + e.2.ret, ret := 0 })) }

/-- The queue back at step 1 of R34, every ticket with the producer. -/
def Queues.renew (q : Queues) (k : Nat) : Queues :=
  { (q.put k (.fresh (q.get k).d)).setSlots k [] with wait := Tbl.del q.wait k }

end Sys2Proof.Machine
end

