-- ==== Sys2Proof/Machine/USbox.lean ====
section
/-!
DEFINITION. The state of the signal box beside its registers (06_signal_box.md R177 to R205).
Marks (notes/assumptions): DEDUCED 39.
-/
namespace Sys2Proof.Machine

/-- A descriptor's eight words (R178). -/
structure Desc where
  w0 : Word
  w1 : Word
  w2 : Word
  w3 : Word
  w4 : Word
  w5 : Word
  w6 : Word
  w7 : Word
  deriving DecidableEq, Repr

/-- A graph: descriptors and successor entries in order (R179). -/
structure Graph where
  items : List Desc
  succ : List Nat
  deriving DecidableEq, Repr

def Graph.empty : Graph := ⟨[], []⟩

/-- The states of R186. -/
inductive IState
  | waiting | delayed | ready | running | saved | done | aborted | dropped
  deriving DecidableEq, Repr

def IState.code (s : IState) : Nat :=
  match s with
  | .waiting => 0
  | .delayed => 1
  | .ready => 2
  | .running => 3
  | .saved => 4
  | .done => 5
  | .aborted => 6
  | .dropped => 7

/-- Has the item left its instance? -/
def IState.ended (s : IState) : Bool := decide (s.code ≥ 5)

/-- An item in one instance: its counter, its state, whether a decrement found the counter at 0 (R186), the marks of
R193 and R195, whether its release and deadline entries are still in the timetable (R185). -/
structure IRun where
  cnt : Nat
  st : IState
  bad : Bool
  dlmiss : Bool
  ovr : Bool
  rel : Bool
  dl : Bool
  deriving DecidableEq, Repr

/-- A graph instance: its block, the slot that holds its graph, the core cycle of its departure, its items in order,
whether a later departure has passed, and whether it has ended. `audit` until R198's check. -/
structure Inst where
  blk : Nat
  slot : Bool
  dep : Nat
  runs : List IRun
  past : Bool
  ended : Bool
  audit : Bool
  deriving DecidableEq, Repr

/-- Decrements to come (R186): the core cycle of the next four, the instance's block, the successors left in list order. -/
structure Dec where
  cyc : Nat
  blk : Nat
  js : List Nat
  deriving DecidableEq, Repr

/-- A pending graph swap (R183). -/
structure GSwap where
  timed : Bool
  blk : Nat
  deriving DecidableEq, Repr

/-- A trace record (R201). -/
structure TRec where
  w0 : Word
  w1 : Word
  w2 : Word
  w3 : Word
  deriving DecidableEq, Repr

def TRec.zero : TRec := ⟨0#32, 0#32, 0#32, 0#32⟩

/-- The signal box. `gA` and `gB` are slots 0 and 1; `cur` is the current slot, `curOk` and `nextOk` their validity;
`insts` the instances, the latest first; `plats` the platforms by number, as (block, item); `ld` a load: `some true` while
it waits for the former graph (R181); `cyc` and `eng` the CYCLE and engine of each
item's latest run, by slot and item; `decs` the decrements that completions have still to make and `rels` the release entries that have
expired, as core cycle, block and item, in core cycles whose second step is to come (R194); `nrec` the records in the ring, `lostEvt` whether TRC_FULL has set for it. -/
structure Sbox where
  gA : Graph
  gB : Graph
  cur : Bool
  curOk : Bool
  nextOk : Bool
  insts : List Inst
  plats : Tbl (List (Nat × Nat))
  swap : Option GSwap
  ld : Option Bool
  ldAddr : Nat
  cyc : Tbl Nat
  eng : Tbl Nat
  decs : List Dec
  rels : List (Nat × Nat × Nat)
  trace : Tbl TRec
  wptr : Nat
  nrec : Nat
  wrap : Bool
  lostEvt : Bool
  deriving DecidableEq, Repr

def Sbox.reset : Sbox := ⟨.empty, .empty, false, false, false, [], [], none, none, 0, [], [], [], [], [], 0, 0, false, false⟩

def Sbox.graph (s : Sbox) (k : Bool) : Graph := if k then s.gB else s.gA
def Sbox.curGraph (s : Sbox) : Graph := s.graph s.cur
def Sbox.setGraph (s : Sbox) (k : Bool) (g : Graph) : Sbox := if k then { s with gB := g } else { s with gA := g }

def Desc.zero : Desc := ⟨0#32, 0#32, 0#32, 0#32, 0#32, 0#32, 0#32, 0#32⟩
def Graph.item (g : Graph) (j : Nat) : Desc := (g.items[j]?).getD .zero

def Desc.kind (x : Desc) : Nat := bits x.w0 29 3
def Sbox.instGraph (s : Sbox) (i : Inst) : Graph := s.graph i.slot
/-- The instance of block `b`. -/
def Sbox.inst (s : Sbox) (b : Nat) : Option Inst := s.insts.find? (fun i => i.blk == b)
/-- Does a stage item of `kind` run in the instance of block `b` (R177)? -/
def Sbox.stageOn (s : Sbox) (kind b : Nat) : Bool :=
  match s.inst b with
  | none => false
  | some i => ((s.instGraph i).items.zip i.runs).any (fun p => p.1.kind == kind && p.2.st == .running)

end Sys2Proof.Machine
end

