-- ==== Sys2Proof/Machine/UVirif.lean ====
section
/-!
DEFINITION. The state of the Virif engines (05_virif_engines.md R145 to R176) and of the graph queues' slots.
-/
namespace Sys2Proof.Machine

/-- A level of the loop stack: first and last bundle, iterations left, counting the current one (R156). -/
structure LoopLvl where
  start : Nat
  stop : Nat
  count : Nat
  deriving DecidableEq, Repr

/-- A transfer in progress (R167): the registers as they stood at its XGO. `tick` while a QPUT waits for a ticket;
`data` holds the slot a QGET popped; `pc` is the XGO's bundle. -/
structure Xfer where
  kind : Nat
  y : Bool
  word : Nat
  n : Nat
  ext : Nat
  tick : Bool
  data : List Word
  pc : Nat
  deriving DecidableEq, Repr

/-- A transfer channel: its registers XLOC, XEXT_LO, XEXT_HI and XCTL's writable fields, ERR, and the transfer (R166).
`redo` marks a QPUT that a preemption withdrew (R172). -/
structure Chan where
  loc : Word
  extLo : Word
  extHi : Word
  ctl : Word
  err : Bool
  act : Option Xfer
  redo : Option Xfer
  deriving DecidableEq, Repr

def Chan.zero : Chan := ⟨0#32, 0#32, 0#32, 0#32, false, none, none⟩

/-- FLAGS (R166). -/
structure EFlags where
  protx : Bool
  qempty : Bool
  nov : Bool
  gov : Bool
  z : Bool
  n : Bool
  deriving DecidableEq, Repr

/-- The item a context runs, as its descriptor gives it (R170): item number, platform, PRE, arguments, the block of
its instance, queue bindings, entry. -/
structure ERun where
  item : Nat
  plat : Nat
  pre : Bool
  arg0 : Word
  arg1 : Word
  blk : Nat
  qb : Word
  entry : Nat
  deriving DecidableEq, Repr

/-- Everything a preemption saves (R172). An unlisted register is 0; accumulators are signed 80-bit values. -/
structure Ctx where
  run : ERun
  pc : Nat
  d : Tbl Word
  a : Tbl Int
  p : Tbl Nat
  m : Tbl Nat
  l : Tbl Nat
  loops : List LoopLvl
  calls : List Nat
  cache : Option (Nat × Nat)
  flags : EFlags
  sat : Bool
  ch : Tbl Chan
  cyc : Nat
  prot : Bool
  deriving DecidableEq, Repr

/-- What the engine waits for before its next bundle: the first bundle of an item dispatched to it while idle (R170); a busy channel that an XGO or a move meets (the move's words, with whether each is in Y
memory and stored), the channels of an XWAIT, the end of every transfer after END; or that a context is being saved or restored, or the debugger. -/
inductive EWait
  | go
  | starting
  | xgo (c : Nat)
  | conflict (words : List (Bool × Bool × Nat))
  | xwait (mask : Nat)
  | ending
  | saving
  | restoring
  | stopped
  deriving DecidableEq, Repr

def ERun.none : ERun := ⟨0, 0, false, 0#32, 0#32, 0, 0#32, 0⟩

/-- The initial state of a run (R170): D0 to D3 as given, everything else 0, SAT = 1. -/
def Ctx.start (r : ERun) : Ctx :=
  let d0 := Tbl.set (Tbl.set [] 0#32 0 r.arg0) 0#32 1 r.arg1
  let d := Tbl.set (Tbl.set d0 0#32 2 (w32 r.item)) 0#32 3 (w32 r.blk)
  ⟨r, r.entry, d, [], [], [], [], [], [], .none, ⟨false, false, false, false, false, false⟩, true, [], 0, false⟩

/-- An engine: the running context (the latest one as it was left while none runs), whether it runs, what it waits
for, a pending fault (cause, bundle), the saved contexts (latest first), and the item for which preemption of the running one is
requested (R172, R188). -/
structure Engine where
  ctx : Ctx
  run : Bool
  wait : EWait
  fault : Option (Nat × Nat)
  saved : List Ctx
  next : Option ERun
  deriving DecidableEq, Repr

def Engine.idle : Engine := ⟨.start .none, false, .go, none, [], none⟩

/-- The engines by number, and the words per slot of each graph queue that the consist creates (R418). -/
structure Virif where
  eng : Tbl Engine
  gslot : Tbl Nat
  deriving DecidableEq, Repr

def Virif.reset : Virif := ⟨[], []⟩

def Virif.get (v : Virif) (e : Nat) : Engine := Tbl.getD v.eng e .idle
def Virif.put (v : Virif) (e : Nat) (g : Engine) : Virif := { v with eng := Tbl.set v.eng .idle e g }

end Sys2Proof.Machine
end

