-- ==== Sys2Proof/Machine/Frames.lean ====
section
/-!
DEFINITION. The frames of the Epham link (12_twin.md R341 to R363), as plain data. A received frame's `good` says whether its CRC is right
(R341).
-/
namespace Sys2Proof.Machine

/-- Pairing properties (R337): the effective capability word, the BREV of every block, the tail-car check word, the render rate code, SIDE;
and the sender's state. -/
structure Props where
  caps : Word
  brevs : List Nat
  check : Word
  fs : Nat
  side : Bool
  st : Nat
  deriving DecidableEq, Repr

/-- A HELLO frame: the properties, and the one-way delay in ns that it measures (R359). -/
structure HelloFrame where
  good : Bool
  props : Props
  delay : Nat
  deriving DecidableEq, Repr

/-- A MARK frame (R342, R359): the departure it carries, its skew in 1/256 sample as the receiver measures it, and the sender's state and
health. -/
structure MarkFrame where
  good : Bool
  blk : Nat
  skew : Int
  st : Nat
  ok : Bool
  deriving DecidableEq, Repr

/-- A rendering-state write in a BLOCK frame (R343): address, agent, data; `sels` holds the agent's select registers on the ACTIVE as
it wrote, which the address leaves out. -/
structure WriteRec where
  addr : Nat
  agent : Agent
  sels : List Word
  data : Word
  deriving DecidableEq, Repr

/-- An object update in a BLOCK frame, with its effective block (R343). -/
structure UpdRec where
  rc : Rec8
  eff : Nat
  deriving DecidableEq, Repr

/-- The MODE section (R343): a Halt with its ramp time, or a resume with its block and its ramp time. -/
inductive ModeRec
  | halt (ramp : Nat)
  | resume (blk ramp : Nat)
  deriving DecidableEq, Repr

/-- A BLOCK frame (R343): the input slots by QID, updates, writes, the dither state before the block, the checksum and LATE
flag of the block before, a mode request. -/
structure BlockFrame where
  good : Bool
  blk : Nat
  inputs : Tbl QSlot
  updates : List UpdRec
  writes : List WriteRec
  dither : Nat
  crc : Word
  late : Bool
  mode : Option ModeRec
  deriving DecidableEq, Repr

/-- A loader whose source data the ACTIVE copies (R346): of nodes, of FIR taps, of graphs. -/
inductive Loader
  | node
  | fir
  | graph
  deriving DecidableEq, Repr

/-- A loader command (R346): the loader, its source, and for taps and nodes the count and the feed. -/
structure LoadCmd where
  loader : Loader
  addr : Nat
  count : Nat
  feed : Nat
  deriving DecidableEq, Repr

/-- Loader source data (R346) with the loader command; `stop` where the ACTIVE's load ended there, because a fetch failed. -/
structure BulkFrame where
  good : Bool
  cmd : LoadCmd
  bytes : List Byte
  stop : Bool
  deriving DecidableEq, Repr

/-- What a state chunk carries (R361): node records, a piece of a delay line, of a FIR bank or of a history of 1024 words, the rest of a
feed and of each unit, the registers of blocks 2 to 5, the graph queues, 4 KiB of an engine's memory or of a mirrored window. -/
inductive StatePart
  | nodes (g : Nat) (ns : Tbl Node)
  | line (i p : Nat) (ws : List Word)
  | crm (x : Crm)
  | words (o k p : Nat) (ws : List Word)
  | feed (o : Nat) (x : Feed)
  | cce (x : Cce)
  | obj (o : Nat) (x : Obj)
  | gsv (x : Gsv)
  | sbox (x : Sbox)
  | virif (x : Virif)
  | regs (x : RegFile)
  | queues (x : Queues)
  | window (addr : Nat) (bytes : List Byte)
  deriving DecidableEq, Repr

/-- A CHUNK frame (R361): its number of the `total` chunks of the state, the block before which it was captured, its contents. -/
structure ChunkFrame where
  good : Bool
  no : Nat
  total : Nat
  blk : Nat
  part : StatePart
  deriving DecidableEq, Repr

/-- A CRCPASS frame (R361, R363): the block before which the chunks stand, the number of the first chunk, the CRC of each chunk from there on,
and whether it ends a pass. -/
structure CrcPass where
  good : Bool
  blk : Nat
  first : Nat
  crcs : List Word
  last : Bool
  deriving DecidableEq, Repr

/-- An ACK frame (R342): tickets returned for QID 300; the loader whose load ended on the STANDBY (R346); the chunks, as first number and count,
that the STANDBY requests (R361). -/
structure AckFrame where
  good : Bool
  n : Nat
  loaded : Option Loader
  wants : List (Nat × Nat)
  deriving DecidableEq, Repr

/-- A frame that the unit sends (R342). -/
inductive TwinFrame
  | fault (cause intv : Nat)
  | mark (blk : Nat)
  | block (f : BlockFrame)
  | switch (blk : Nat)
  | ack (n : Nat) (loaded : Option Loader) (wants : List (Nat × Nat))
  | chunk (f : ChunkFrame)
  | crcPass (f : CrcPass)
  | bulk (f : BulkFrame)
  | check (blk : Nat) (crc : Word) (late : Bool)
  | health (ws : List Word)
  | hello (h : Props)
  deriving DecidableEq, Repr

end Sys2Proof.Machine
end

