-- ==== Sys2Proof/Syntax.lean ====
section
/-!
DEFINITION. The commands of spec/opcode_table.json, one constructor per row, each with its operands. A row that is
"a write of" a register carries the agent and the whole word written.
-/
namespace Sys2Proof

open Machine

/-- The commands of the block. -/
inductive Instr
  /-- DEPARTURE (R25) -/
  | departure (cyc : Nat) (ecc : List EccHit)
  /-- TICKET_AUDIT_COMPARE (R40) -/
  | ticketAuditCompare
  /-- QUEUE_SLOT_FILLED (R34) -/
  | queueSlotFilled (q : Nat)
  /-- TICKET_RETURN (R36) -/
  | ticketReturn (q : Nat)
  /-- REG_WRITE (R12) -/
  | regWrite (m : Agent) (addr : Nat) (v : Word)
  /-- WIDE_LO_READ (R14) -/
  | wideLoRead (m : Agent) (addr : Nat)
  /-- WIDE_LO_WRITE (R14) -/
  | wideLoWrite (m : Agent) (addr : Nat) (v : Word)
  /-- WIDE_HI_WRITE (R14) -/
  | wideHiWrite (m : Agent) (addr : Nat) (v : Word)
  /-- PEAK_REG_WRITE (R513) -/
  | peakRegWrite (m : Agent) (addr : Nat) (v : Word)
  /-- UNMAPPED_ACCESS (R13) -/
  | unmappedAccess (m : Agent) (write : Bool) (addr : Nat) (v : Word)
  /-- TKA_CLR (R41) -/
  | tkaClr (m : Agent) (v : Word)
  /-- OBJ_UPD_STAGE (R50) -/
  | objUpdStage (m : Agent) (k : Fin 7) (v : Word)
  /-- OBJ_POST (R50) -/
  | objPost (m : Agent) (v : Word)
  /-- GSV_RING_HEAD (R51) -/
  | gsvRingHead (m : Agent) (v : Word)
  /-- GSV_RING_ENABLE (R75) -/
  | gsvRingEnable (m : Agent) (v : Word)
  /-- RING_RECORD_FETCHED (R51) -/
  | ringRecordFetched (r : Rec8)
  /-- RING_STALL_END (R51) -/
  | ringStallEnd
  /-- RING_ERR (R51) -/
  | ringErr
  /-- FLUSH (R53) -/
  | flush (m : Agent) (v : Word)
  /-- SOLVE_BLOCK (R54) -/
  | solveBlock
  /-- GSV_CNT_CLR (R75) -/
  | gsvCntClr (m : Agent) (v : Word)
  /-- NODE_WR (R83) -/
  | nodeWr (m : Agent) (v : Word) (ecc : List EccHit)
  /-- NODE_CAPTURE_READ (R106) -/
  | nodeCaptureRead (m : Agent)
  /-- COPY (R85) -/
  | copy (m : Agent) (v : Word)
  /-- COPY_DONE (R85) -/
  | copyDone
  /-- QCLR (R95) -/
  | qclr (m : Agent) (v : Word)
  /-- NZ_CLR (R107) -/
  | nzClr (m : Agent) (v : Word)
  /-- CRM_SWAP (R95) -/
  | crmSwap (m : Agent) (v : Word)
  /-- CRM_RENDER_GROUP (R103) -/
  | crmRenderGroup (ecc : List EccHit)
  /-- BLK_GO (R105) -/
  | blkGo (m : Agent) (v : Word)
  /-- BLK_RECORD_APPLY (R105) -/
  | blkRecordApply (ecc : List EccHit)
  /-- BLK_ERR (R105) -/
  | blkErr
  /-- CRM_CNT_CLR (R107) -/
  | crmCntClr (m : Agent) (v : Word)
  /-- CCE_FEED_BLOCK (R108) -/
  | cceFeedBlock (feed : Nat) (cyc : Nat) (tailReady : Bool) (ecc : List StoreHit)
  /-- TAIL_WAIT_END (R135) -/
  | tailWaitEnd (feed : Nat) (cyc : Nat)
  /-- FC_DLY_WRITE (R112) -/
  | fcDlyWrite (m : Agent) (v : Word)
  /-- FC_SOS_COEF_ACCESS (R123) -/
  | fcSosCoefAccess (m : Agent) (write : Bool) (v : Word)
  /-- FC_SOS_BYP_WRITE (R123) -/
  | fcSosBypWrite (m : Agent) (v : Word)
  /-- FLD_GO (R121) -/
  | fldGo (m : Agent) (v : Word)
  /-- FLD_START_AFTER_SWAP (R123) -/
  | fldStartAfterSwap
  /-- FLD_DONE (R121) -/
  | fldDone (ecc : List EccHit)
  /-- FLD_ERR (R121) -/
  | fldErr (done : Nat)
  /-- FC_SWAP (R126) -/
  | fcSwap (m : Agent) (v : Word)
  /-- CCE_SWAP (R127) -/
  | cceSwap (m : Agent) (v : Word)
  /-- CCE_CNT_CLR (R140) -/
  | cceCntClr (m : Agent) (v : Word)
  /-- NOP (R157) -/
  | vNop (e : Fin 16) (o : Std)
  /-- MOV (R157) -/
  | vMov (e : Fin 16) (o : Std)
  /-- ADD (R157) -/
  | vAdd (e : Fin 16) (o : Std)
  /-- SUB (R157) -/
  | vSub (e : Fin 16) (o : Std)
  /-- ADDS (R157) -/
  | vAdds (e : Fin 16) (o : Std)
  /-- SUBS (R157) -/
  | vSubs (e : Fin 16) (o : Std)
  /-- NEGS (R157) -/
  | vNegs (e : Fin 16) (o : Std)
  /-- ABSS (R157) -/
  | vAbss (e : Fin 16) (o : Std)
  /-- AND (R157) -/
  | vAnd (e : Fin 16) (o : Std)
  /-- OR (R157) -/
  | vOr (e : Fin 16) (o : Std)
  /-- XOR (R157) -/
  | vXor (e : Fin 16) (o : Std)
  /-- NOT (R157) -/
  | vNot (e : Fin 16) (o : Std)
  /-- SHL (R157) -/
  | vShl (e : Fin 16) (o : Std)
  /-- SHR (R157) -/
  | vShr (e : Fin 16) (o : Std)
  /-- SHRL (R157) -/
  | vShrl (e : Fin 16) (o : Std)
  /-- MIN (R157) -/
  | vMin (e : Fin 16) (o : Std)
  /-- MAX (R157) -/
  | vMax (e : Fin 16) (o : Std)
  /-- CMP (R157) -/
  | vCmp (e : Fin 16) (o : Std)
  /-- NSB (R161) -/
  | vNsb (e : Fin 16) (o : Std)
  /-- MPY (R157) -/
  | vMpy (e : Fin 16) (o : Std)
  /-- MAC (R157) -/
  | vMac (e : Fin 16) (o : Std)
  /-- MSU (R157) -/
  | vMsu (e : Fin 16) (o : Std)
  /-- MAC2 (R157) -/
  | vMac2 (e : Fin 16) (o : Std)
  /-- ACLR (R157) -/
  | vAclr (e : Fin 16) (o : Std)
  /-- AMOV (R157) -/
  | vAmov (e : Fin 16) (o : Std)
  /-- AADD (R157) -/
  | vAadd (e : Fin 16) (o : Std)
  /-- ASHL (R164) -/
  | vAshl (e : Fin 16) (o : Std)
  /-- ASHR (R164) -/
  | vAshr (e : Fin 16) (o : Std)
  /-- ARD (R165) -/
  | vArd (e : Fin 16) (o : Std)
  /-- ALD (R157) -/
  | vAld (e : Fin 16) (o : Std)
  /-- TAPM (R160) -/
  | vTapm (e : Fin 16) (o : Std)
  /-- BXV (R161) -/
  | vBxv (e : Fin 16) (o : Std)
  /-- CMAC (R162) -/
  | vCmac (e : Fin 16) (o : Std)
  /-- BFLY (R163) -/
  | vBfly (e : Fin 16) (o : Std)
  /-- MVC (R166) -/
  | vMvc (e : Fin 16) (o : Std)
  /-- MCV (R157) -/
  | vMcv (e : Fin 16) (o : Std)
  /-- LOAD_WORD (R152) -/
  | loadWord (e : Fin 16) (y : Bool) (sl : Slot) (other : Slot) (ce : Fin 8)
  /-- STORE_WORD (R152) -/
  | storeWord (e : Fin 16) (y : Bool) (sl : Slot) (other : Slot) (ce : Fin 8)
  /-- LOAD_PAIR (R149) -/
  | loadPair (e : Fin 16) (y : Bool) (sl : Slot) (other : Slot) (ce : Fin 8)
  /-- STORE_PAIR (R149) -/
  | storePair (e : Fin 16) (y : Bool) (sl : Slot) (other : Slot) (ce : Fin 8)
  /-- STORE_ACC (R152) -/
  | storeAcc (e : Fin 16) (y : Bool) (sl : Slot) (other : Slot) (ce : Fin 8)
  /-- REGISTER_COPY (R152) -/
  | registerCopy (e : Fin 16) (y : Bool) (sl : Slot) (other : Slot) (ce : Fin 8)
  /-- LDI (R153) -/
  | ldi (e : Fin 16) (r : Imm)
  /-- LDIP (R153) -/
  | ldip (e : Fin 16) (r : Imm)
  /-- LDIM (R153) -/
  | ldim (e : Fin 16) (r : Imm)
  /-- LDIL (R153) -/
  | ldil (e : Fin 16) (r : Imm)
  /-- ADDI (R153) -/
  | addi (e : Fin 16) (r : Imm)
  /-- ADDIP (R153) -/
  | addip (e : Fin 16) (r : Imm)
  /-- MVP (R153) -/
  | mvp (e : Fin 16) (r : Imm)
  /-- MPV (R153) -/
  | mpv (e : Fin 16) (r : Imm)
  /-- CONTROL_NOP (R154) -/
  | controlNop (e : Fin 16) (c : Ctl)
  /-- BRA (R154) -/
  | bra (e : Fin 16) (c : Ctl)
  /-- CALL (R154) -/
  | call (e : Fin 16) (c : Ctl)
  /-- RET (R154) -/
  | ret (e : Fin 16) (c : Ctl)
  /-- LOOP (R156) -/
  | loop (e : Fin 16) (c : Ctl)
  /-- LOOPR (R154) -/
  | loopr (e : Fin 16) (c : Ctl)
  /-- END (R171) -/
  | endItem (e : Fin 16) (c : Ctl)
  /-- PROT (R173) -/
  | prot (e : Fin 16) (c : Ctl)
  /-- UNPROT (R173) -/
  | unprot (e : Fin 16) (c : Ctl)
  /-- XGO (R167) -/
  | xgo (e : Fin 16) (c : Ctl)
  /-- XWAIT (R154) -/
  | xwait (e : Fin 16) (c : Ctl)
  /-- BRK (R154) -/
  | brk (e : Fin 16) (c : Ctl)
  /-- XFER_START_AFTER_WAIT (R168) -/
  | xferStartAfterWait (e : Fin 16) (c : Fin 4)
  /-- XFER_DONE (R167) -/
  | xferDone (e : Fin 16) (c : Fin 4) (waited : Nat) (ecc : List EccHit)
  /-- XFER_ERR (R167) -/
  | xferErr (e : Fin 16) (c : Fin 4) (waited : Nat)
  /-- QPUT_TICKET_ARRIVE (R169) -/
  | qputTicketArrive (e : Fin 16) (c : Fin 4)
  /-- PROT_TIMEOUT (R173) -/
  | protTimeout (e : Fin 16)
  /-- ITEM_START (R170) -/
  | itemStart (e : Fin 16)
  /-- ITEM_DONE (R171) -/
  | itemDone (e : Fin 16) (cyc : Nat)
  /-- ITEM_ABORT (R174) -/
  | itemAbort (e : Fin 16) (ecc : Option Nat) (cyc : Nat)
  /-- PREEMPT_ACT (R172) -/
  | preemptAct (e : Fin 16)
  /-- CONTEXT_SAVED (R172) -/
  | contextSaved (e : Fin 16) (cyc : Nat)
  /-- CONTEXT_RESTORED (R172) -/
  | contextRestored (e : Fin 16)
  /-- ENG_CNT_CLR (R166) -/
  | engCntClr (m : Agent) (e : Fin 16) (v : Word)
  /-- DISPATCH (R188) -/
  | dispatch (cyc : Nat)
  /-- STAGE_DONE (R177) -/
  | stageDone (item : Nat) (cyc : Nat)
  /-- RELEASE_EXPIRE (R192) -/
  | releaseExpire (item : Nat) (cyc : Nat)
  /-- DEADLINE_EXPIRE (R193) -/
  | deadlineExpire (item : Nat) (cyc : Nat)
  /-- DAUDIT (R198) -/
  | daudit (cyc : Nat)
  /-- GLD_GO (R181) -/
  | gldGo (m : Agent) (v : Word)
  /-- GLD_START_AFTER_OLD (R181) -/
  | gldStartAfterOld
  /-- GLD_DONE (R181) -/
  | gldDone (ecc : List EccHit)
  /-- SB_GSWAP (R183) -/
  | sbGswap (m : Agent) (v : Word)
  /-- TRACE_CLR (R203) -/
  | traceClr (m : Agent) (v : Word)
  /-- TRACE_CAPTURE_READ (R204) -/
  | traceCaptureRead (m : Agent)
  /-- SB_CNT_CLR (R205) -/
  | sbCntClr (m : Agent) (v : Word)
  /-- PORT_ENABLE (R210) -/
  | portEnable (m : Agent) (v : Word)
  /-- PORT_DISABLE (R211) -/
  | portDisable (m : Agent) (v : Word)
  /-- TDM_FRAME (R206) -/
  | tdmFrame (p : Fin 16) (fr : TdmFrame)
  /-- PORT_LOCK (R210) -/
  | portLock (p : Fin 16)
  /-- STARTED (R211) -/
  | started (p : Fin 16)
  /-- SLOT_ZC_SWITCH (R212) -/
  | slotZcSwitch (p : Fin 16) (tx : Bool) (slot : Nat)
  /-- ZC_TO (R212) -/
  | zcTo (p : Fin 16)
  /-- STOPPED (R211) -/
  | stopped (p : Fin 16)
  /-- LOSS (R217) -/
  | loss (p : Fin 18)
  /-- RATE (R219) -/
  | rate (p : Fin 18)
  /-- REJOIN (R220) -/
  | rejoin (p : Fin 18) (phaseChanged : Bool)
  /-- TDM_GROUP_START (R215) -/
  | tdmGroupStart (m : Agent) (v : Word)
  /-- TDM_GROUP_STOP (R215) -/
  | tdmGroupStop (m : Agent) (v : Word)
  /-- GROUP_MEMBER_LEFT (R215) -/
  | groupMemberLeft (p : Fin 16)
  /-- AES_RX_LOCK (R223) -/
  | aesRxLock (r : Fin 2)
  /-- AES3_FRAME (R223) -/
  | aes3Frame (tx : Bool) (r : Fin 2) (fr : AesFrame)
  /-- CHANNEL_STATUS_BLOCK (R225) -/
  | channelStatusBlock (r : Fin 2) (sub : Bool) (bytes : List Byte)
  /-- AR_CS_CAPTURE_READ (R232) -/
  | arCsCaptureRead (m : Agent) (r : Fin 2)
  /-- AT_CS_STAGE (R227) -/
  | atCsStage (m : Agent) (t : Fin 2) (k : Fin 5) (v : Word)
  /-- AT_CS5_COMMIT (R227) -/
  | atCs5Commit (m : Agent) (t : Fin 2) (v : Word)
  /-- CS_BLOCK_BEGIN (R227) -/
  | csBlockBegin (t : Fin 2)
  /-- SRC_LOCKED (R229) -/
  | srcLocked (a : Fin 16) (ratio : Word)
  /-- SRC_RELOCK (R229) -/
  | srcRelock (a : Fin 16)
  /-- TIO_CNT_CLR (R233) -/
  | tioCntClr (m : Agent) (v : Word)
  /-- NB_POOL_CREATE (R238) -/
  | nbPoolCreate (m : Agent) (v : Word)
  /-- NB_ALLOC (R238) -/
  | nbAlloc (m : Agent)
  /-- NB_RELEASE (R238) -/
  | nbRelease (m : Agent) (v : Word)
  /-- NP_TXPOST (R238) -/
  | npTxpost (m : Agent) (p : Fin 3) (v : Word)
  /-- TX_DONE (R238) -/
  | txDone (p : Fin 3) (r : TxResult)
  /-- FRAME_RECEIVE (R238) -/
  | frameReceive (p : Fin 3) (fr : RxFrame)
  /-- NP_TXDONE_POP (R260) -/
  | npTxdonePop (m : Agent) (p : Fin 3)
  /-- NP_RXRDY_POP (R260) -/
  | npRxrdyPop (m : Agent) (p : Fin 3)
  /-- STREAM_ENABLE (R241) -/
  | streamEnable (m : Agent) (v : Word)
  /-- STREAM_PACKET_RX (R245) -/
  | streamPacketRx (p : Fin 3) (fr : RxFrame)
  /-- STREAM_PACKET_TX (R243) -/
  | streamPacketTx (st : Nat)
  /-- PRP_ENTRY_EXPIRE (R249) -/
  | prpEntryExpire (src : Nat) (seq : Nat)
  /-- NET_LINK_CHANGE (R249) -/
  | netLinkChange (p : Fin 3) (up : Bool) (speed : Fin 4)
  /-- TX_SELECT (R250) -/
  | txSelect (p : Fin 3) (guard : Nat) (cyc : Nat)
  /-- GCL_ENTRY_ADVANCE (R251) -/
  | gclEntryAdvance (p : Fin 3)
  /-- GCL_GO (R252) -/
  | gclGo (m : Agent) (p : Fin 3) (v : Word)
  /-- GCL_SWAP (R252) -/
  | gclSwap (p : Fin 3)
  /-- COLLISION (R254) -/
  | collision (late : Bool)
  /-- BACKOFF_EXPIRE (R254) -/
  | backoffExpire
  /-- DEFER_EXPIRE (R254) -/
  | deferExpire
  /-- TS_QUEUE_POP (R256) -/
  | tsQueuePop (m : Agent) (p : Fin 3) (tx : Bool)
  /-- METADATA_PACKET (R258) -/
  | metadataPacket (p : Fin 3) (fr : RxFrame)
  /-- MD_CFG_WRITE (R258) -/
  | mdCfgWrite (m : Agent) (v : Word)
  /-- NET_CNT_CLR (R260) -/
  | netCntClr (m : Agent) (v : Word)
  /-- PTP_MESSAGE (R261) -/
  | ptpMessage (pm : PtpMsg)
  /-- TI_OFSP (R267) -/
  | tiOfsp (m : Agent) (v : Word) (cyc : Nat)
  /-- TI_OFSS (R270) -/
  | tiOfss (m : Agent) (v : Word)
  /-- PRIMARY_TIMEOUT (R270) -/
  | primaryTimeout (k : Fin 4) (cyc : Nat)
  /-- SHADOW_TIMEOUT (R270) -/
  | shadowTimeout (k : Fin 4) (cyc : Nat)
  /-- CLR_BIAS (R271) -/
  | clrBias (m : Agent) (v : Word)
  /-- TIME_CAPTURE_READ (R266) -/
  | timeCaptureRead (m : Agent) (cyc : Nat)
  /-- MEDIA_CLOCK_TICK (R274) -/
  | mediaClockTick (mck : Fin 2) (n : Nat) (cyc : Nat)
  /-- REALIGN (R275) -/
  | realign (m : Agent) (mck : Fin 2) (v : Word)
  /-- PULSE_ARM (R276) -/
  | pulseArm (m : Agent) (k : Fin 8) (v : Word) (cyc : Nat)
  /-- PULSE_EDGE (R276) -/
  | pulseEdge (k : Fin 8) (cyc : Nat)
  /-- CAPTURE_EDGE (R277) -/
  | captureEdge (c : Fin 4) (rising : Bool) (n : Nat) (cyc : Nat) (width : Nat)
  /-- CAPTURE_POP (R277) -/
  | capturePop (m : Agent) (c : Fin 4)
  /-- TU_CNT_CLR (R290) -/
  | tuCntClr (m : Agent) (v : Word)
  /-- REF_TICK (R283) -/
  | refTick (ms : List RefMeas) (cs : List ChMeas)
  /-- REF_INPUT_LOSS (R280) -/
  | refInputLoss (k : Fin 8)
  /-- HOLDOFF_EXPIRE (R280) -/
  | holdoffExpire (k : Fin 8)
  /-- RESELECT (R281) -/
  | reselect (m : Agent) (v : Word)
  /-- FORCE (R281) -/
  | force (m : Agent) (v : Word)
  /-- SWITCH_END (R287) -/
  | switchEnd (ch : Fin 2) (phi : Int)
  /-- ACQUIRE_LOCK (R286) -/
  | acquireLock (ch : Fin 2)
  /-- HIST_VALID (R285) -/
  | histValid (ch : Fin 2)
  /-- RU_CNT_CLR (R291) -/
  | ruCntClr (m : Agent) (v : Word)
  /-- AI_ENABLE (R299) -/
  | aiEnable (m : Agent) (v : Word)
  /-- AI_DISABLE (R301) -/
  | aiDisable (m : Agent) (v : Word)
  /-- AI_SYNC (R299) -/
  | aiSync (m : Agent) (v : Word)
  /-- SYNC_DONE (R300) -/
  | syncDone (g : Nat)
  /-- FVALID_SET (R300) -/
  | fvalidSet (n : Fin 8)
  /-- PGA_WRITE (R294) -/
  | pgaWrite (m : Agent) (v : Word)
  /-- PGA_STEP (R294) -/
  | pgaStep (n : Fin 8)
  /-- PGA_TO (R294) -/
  | pgaTo (n : Fin 8)
  /-- ADC_SAMPLE (R295) -/
  | adcSample (n : Fin 8) (idx : Nat) (words : List (Fin 5)) (overload : Bool)
  /-- THR_OFF (R302) -/
  | thrOff (n : Fin 8)
  /-- MB_ENABLE (R306) -/
  | mbEnable (m : Agent) (k : Fin 2) (v : Word)
  /-- MB_DISABLE (R306) -/
  | mbDisable (m : Agent) (k : Fin 2) (v : Word)
  /-- MB_DWELL_END (R307) -/
  | mbDwellEnd (k : Fin 2) (lim : Bool)
  /-- MB_OC (R309) -/
  | mbOc (k : Fin 2)
  /-- MB_OPEN (R309) -/
  | mbOpen (k : Fin 2)
  /-- AI_CNT_CLR (R318) -/
  | aiCntClr (m : Agent) (v : Word)
  /-- JACK_MEASURE (R312) -/
  | jackMeasure (n : Fin 4) (ohms : Nat)
  /-- JACK_TYPE_ACCEPT (R314) -/
  | jackTypeAccept (n : Fin 4)
  /-- AO_ENABLE (R326) -/
  | aoEnable (m : Agent) (v : Word)
  /-- AO_DISABLE (R326) -/
  | aoDisable (m : Agent) (v : Word)
  /-- AO_DWELL_END (R326) -/
  | aoDwellEnd (c : Fin 12)
  /-- SLEW_UPDATE (R324) -/
  | slewUpdate (c : Fin 12)
  /-- SEQ_DONE (R326) -/
  | seqDone (c : Fin 12)
  /-- AO_SPAN_WRITE (R328) -/
  | aoSpanWrite (m : Agent) (v : Word)
  /-- AO_SOS_COEF_ACCESS (R323) -/
  | aoSosCoefAccess (m : Agent) (write : Bool) (v : Word)
  /-- AO_SOS_COMMIT (R323) -/
  | aoSosCommit (m : Agent) (v : Word)
  /-- EX_CFG_WRITE (R332) -/
  | exCfgWrite (m : Agent) (k : Fin 8) (v : Word)
  /-- EXPRESS_RAMP_DONE (R332) -/
  | expressRampDone (k : Fin 8)
  /-- EXPRESS_FADE_DONE (R333) -/
  | expressFadeDone (c : Fin 12)
  /-- AO_CNT_CLR (R336) -/
  | aoCntClr (m : Agent) (v : Word)
  /-- PAIR (R337) -/
  | pairUp (m : Agent) (v : Word)
  /-- SWITCH (R357) -/
  | switchTwin (m : Agent) (v : Word)
  /-- TAKE (R354) -/
  | take (m : Agent) (v : Word)
  /-- GIVEUP (R352) -/
  | giveup (m : Agent) (v : Word)
  /-- RESYNC (R361) -/
  | resync (m : Agent) (v : Word)
  /-- HELLO (R337) -/
  | hello (h : HelloFrame)
  /-- MARK (R359) -/
  | mark (k : MarkFrame)
  /-- BLOCK (R343) -/
  | block (b : BlockFrame)
  /-- SWITCH_FRAME (R357) -/
  | switchFrame (good : Bool) (blk : Nat)
  /-- ACK (R362) -/
  | ack (f : AckFrame)
  /-- CHUNK (R361) -/
  | chunk (c : ChunkFrame)
  /-- CRCPASS (R363) -/
  | crcpass (c : CrcPass)
  /-- BULK (R346) -/
  | bulk (b : BulkFrame)
  /-- CHECK (R351) -/
  | check (good : Bool) (blk : Nat) (crc : Word) (late : Bool)
  /-- HEALTH (R360) -/
  | health (good : Bool) (words : List Word)
  /-- FAULT (R353) -/
  | fault (good : Bool) (cause : Nat) (blk : Nat)
  /-- EPHAM_LINK_UP (R341) -/
  | ephamLinkUp (lane : Fin 2)
  /-- EPHAM_LINK_DOWN (R358) -/
  | ephamLinkDown (lane : Fin 2)
  /-- LINK_SILENCE (R354) -/
  | linkSilence
  /-- MARK_SEND (R342) -/
  | markSend
  /-- STANDBY_DEPARTURE (R344) -/
  | standbyDeparture (cyc : Nat) (ecc : List EccHit)
  /-- PIN_INSTANT (R350) -/
  | pinInstant (blk : Nat)
  /-- CLOCK_SKEW_FAULT (R359) -/
  | clockSkewFault
  /-- HEALTH_REPORT (R360) -/
  | healthReport (temp : Int)
  /-- TRANSFER_END (R362) -/
  | transferEnd
  /-- CATCHUP_END (R361) -/
  | catchupEnd
  /-- SYNCED (R361) -/
  | synced
  /-- TWN_CNT_CLR (R366) -/
  | twnCntClr (m : Agent) (v : Word)
  /-- SCRUB_VISIT (R371) -/
  | scrubVisit (st : Nat) (addr : Nat) (err : Nat)
  /-- FABRIC_GRANT (R376) -/
  | fabricGrant (g : Grant)
  /-- LOCKED_READ (R377) -/
  | lockedRead (m : Agent) (addr : Nat) (ecc : List EccHit)
  /-- UNLOCKING_WRITE (R377) -/
  | unlockingWrite (m : Agent) (addr : Nat) (v : Word) (ecc : List EccHit)
  /-- LOCK_TO (R377) -/
  | lockTo (t : Nat)
  /-- MS_REMAP_WRITE (R379) -/
  | msRemapWrite (m : Agent) (v : Word)
  /-- SELF_CHECK (R380) -/
  | selfCheck (res : List (Bool × Nat))
  /-- DR_SEG_WRITE (R382) -/
  | drSegWrite (m : Agent) (v : Word)
  /-- DR_INIT_DONE (R382) -/
  | drInitDone (n : Nat)
  /-- DRAM_REQUEST (R383) -/
  | dramRequest (r : DramReq)
  /-- DR_TRAIN_DONE (R385) -/
  | drTrainDone (gib : Nat) (lanes : List Word)
  /-- DRAM_TRACK (R385) -/
  | dramTrack (steps : List (Int × Int))
  /-- RETRAIN (R385) -/
  | retrain (m : Agent) (v : Word)
  /-- MS_CNT_CLR (R388) -/
  | msCntClr (m : Agent) (v : Word)
  /-- SPI_WRITE (R390) -/
  | spiWrite (addr : Nat) (ws : List Word)
  /-- SPI_READ (R390) -/
  | spiRead (addr : Nat) (n : Nat)
  /-- SPI_STATUS (R391) -/
  | spiStatus
  /-- I2C_WRITE (R392) -/
  | i2cWrite (bytes : List Byte)
  /-- I2C_READ (R392) -/
  | i2cRead (n : Nat)
  /-- PCIE_RESET (R401) -/
  | pcieReset (kind : Fin 4)
  /-- PCIE_LINK (R409) -/
  | pcieLink (up : Bool) (speed : Fin 4) (width : Fin 3)
  /-- QS_CMD_GO (R395) -/
  | qsCmdGo (m : Agent) (v : Word)
  /-- QS_DONE (R395) -/
  | qsDone (bytes : List Byte) (good : Bool)
  /-- MB_STAGE_WRITE (R397) -/
  | mbStageWrite (m : Agent) (k : Fin 16) (v : Word)
  /-- MB_DB (R397) -/
  | mbDb (m : Agent) (v : Word)
  /-- MB_ACK (R398) -/
  | mbAck (m : Agent) (v : Word)
  /-- MB_TIMEOUT (R400) -/
  | mbTimeout (x : Fin 32)
  /-- SIDE_RST (R401) -/
  | sideRst (m : Agent) (v : Word)
  /-- STATION_CORE_RESET (R401) -/
  | stationCoreReset (k : Fin 4) (wdog : Bool)
  /-- MB_AUDIT (R402) -/
  | mbAudit
  /-- MB_CNT_CLR (R408) -/
  | mbCntClr (m : Agent) (v : Word)
  /-- LOCK_READ (R404) -/
  | lockRead (m : Agent) (k : Fin 64)
  /-- LOCK_WRITE (R404) -/
  | lockWrite (m : Agent) (k : Fin 64) (v : Word)
  /-- GPIO_EDGE (R409) -/
  | gpioEdge (pin : Fin 32) (rising : Bool)
  /-- HELD_REPLY_POST (R406) -/
  | heldReplyPost (x : Fin 32)
  /-- PING (R407) -/
  | ping (h : Fin 3)
  /-- GET_INFO (R407) -/
  | getInfo (h : Fin 3)
  /-- GET_STATUS (R407) -/
  | getStatus (h : Fin 3)
  /-- SET_MODE (R441) -/
  | setMode (h : Fin 3)
  /-- CONSIST_LOAD (R436) -/
  | consistLoad (h : Fin 3)
  /-- FLASH_READ (R407) -/
  | flashRead (h : Fin 3) (bytes : List Byte) (good : Bool) (ecc : List EccHit)
  /-- FLASH_WRITE (R407) -/
  | flashWrite (h : Fin 3) (good : Bool) (ecc : List EccHit)
  /-- FLASH_ERASE (R407) -/
  | flashErase (h : Fin 3) (good : Bool)
  /-- PTP_SET (R407) -/
  | ptpSet (h : Fin 3)
  /-- PTP_GET (R407) -/
  | ptpGet (h : Fin 3)
  /-- SDP_GET (R407) -/
  | sdpGet (h : Fin 3)
  /-- FRAME_TX (R407) -/
  | frameTx (h : Fin 3) (ecc : List EccHit)
  /-- FRAME_RX_SET (R407) -/
  | frameRxSet (h : Fin 3)
  /-- FRAME_RX_DONE (R407) -/
  | frameRxDone (h : Fin 3) (ecc : List EccHit)
  /-- HEALTH_GET (R407) -/
  | healthGet (h : Fin 3)
  /-- SEC_CHALLENGE (R471) -/
  | secChallenge (h : Fin 3) (nonce : List Byte)
  /-- SEC_UNLOCK (R472) -/
  | secUnlock (h : Fin 3)
  /-- CAR_RECEIVED (R412) -/
  | carReceived (c : Car)
  /-- BOOT (R434) -/
  | boot (sel : Fin 4) (dir : List Word)
  /-- HALT_REQUEST (R443) -/
  | haltRequest (m : Agent) (v : Word)
  /-- RESUME_REQUEST (R445) -/
  | resumeRequest (m : Agent) (v : Word)
  /-- SHUNT_REQUEST (R442) -/
  | shuntRequest (m : Agent) (v : Word)
  /-- INSPECTION_REQUEST (R475) -/
  | inspectionRequest (m : Agent) (v : Word)
  /-- SIDING_REQUEST (R447) -/
  | sidingRequest (m : Agent) (v : Word)
  /-- DEPOT_REQUEST (R447) -/
  | depotRequest (m : Agent) (v : Word)
  /-- TRANSITION_STEP_END (R447) -/
  | transitionStepEnd
  /-- WAKE_N (R452) -/
  | wakeN
  /-- RTC_ALARM (R460) -/
  | rtcAlarm
  /-- WAKE (R450) -/
  | wake (src : Nat)
  /-- RAIL_STEP_END (R453) -/
  | railStepEnd
  /-- POWER_ON_RESET (R455) -/
  | powerOnReset (strap : Bool)
  /-- RESET_N (R456) -/
  | resetN
  /-- SYS_RST (R455) -/
  | sysRst (m : Agent) (v : Word)
  /-- SYS_BLKRST (R455) -/
  | sysBlkrst (m : Agent) (v : Word)
  /-- RAIL_UNDERVOLTAGE (R496) -/
  | railUndervoltage
  /-- SEC_LC_REQ (R462) -/
  | secLcReq (m : Agent) (v : Word)
  /-- LC_BURN_DONE (R463) -/
  | lcBurnDone (ok : Bool)
  /-- FUSE_PGM (R467) -/
  | fusePgm (m : Agent) (v : Word)
  /-- PGM_DONE (R467) -/
  | pgmDone (ok : Bool)
  /-- MONITOR_TRIP (R468) -/
  | monitorTrip
  /-- TRST_N (R455) -/
  | trstN
  /-- IDCODE (R469) -/
  | idcode
  /-- BYPASS (R469) -/
  | bypass
  /-- SAMPLE_PRELOAD (R469) -/
  | samplePreload (pins : List Bool)
  /-- EXTEST (R469) -/
  | extest (pins : List Bool)
  /-- DBG_CHAL (R471) -/
  | dbgChal (nonce : List Byte)
  /-- DBG_RESP (R469) -/
  | dbgResp (v : Nat)
  /-- DBG_MEM (R469) -/
  | dbgMem (write : Bool) (addr : Nat) (v : Word) (ecc : List EccHit)
  /-- DBG_ATTACH (R470) -/
  | dbgAttach
  /-- DBG_INSP (R470) -/
  | dbgInsp
  /-- DBG_RELEASE (R470) -/
  | dbgRelease
  /-- DBG_SUBMIT (R470) -/
  | dbgSubmit
  /-- UNLOCK_VERIFIED (R474) -/
  | unlockVerified
  /-- NONCE_EXPIRE (R471) -/
  | nonceExpire
  /-- RELOCK (R474) -/
  | relock (m : Agent) (v : Word)
  /-- DRAM_PATTERN_TEST (R360) -/
  | dramPatternTest (good : Bool)
  /-- BUILT_IN_TEST (R360) -/
  | builtInTest (e : Fin 16) (good : Bool)
  /-- CONSIST_FETCH_FAILURE (R429) -/
  | consistFetchFailure
  deriving DecidableEq, Repr

end Sys2Proof
end

