-- ==== Sys2Proof/WellFormed.lean ====
section
/-!
DEFINITION. Well-formed commands: the operands that the spec's ranges allow, as one check per constructor. The meanings are total and do
not rest on it.
-/
namespace Sys2Proof

open Machine

/-- An address of the 40-bit fabric (00_scope.md R22). -/
def addrOk (a : Nat) : Bool := decide (a < 2 ^ 40)

/-- A frame of at most 16383 bytes, the range of a descriptor's LEN (08_network.md R237). -/
def rxOk (fr : RxFrame) : Bool := decide (fr.bytes.length < 2 ^ 14)

/-- The longest TDM frame has 32 slots of 32 bits (07_tdm_ports.md R206). -/
def tdmOk (fr : TdmFrame) : Bool := decide (fr.din.length ≤ 1024)

def Instr.wellFormed (i : Instr) : Bool :=
  match i with
  | .departure _ _ => true
  | .ticketAuditCompare => true
  | .queueSlotFilled q => decide (q < 384)
  | .ticketReturn q => decide (q < 384)
  | .regWrite _ addr _ => addrOk addr
  | .wideLoRead _ addr => addrOk addr
  | .wideLoWrite _ addr _ => addrOk addr
  | .wideHiWrite _ addr _ => addrOk addr
  | .peakRegWrite _ addr _ => addrOk addr
  | .unmappedAccess _ _ addr _ => addrOk addr
  | .tkaClr _ _ => true
  | .objUpdStage _ _ _ => true
  | .objPost _ _ => true
  | .gsvRingHead _ _ => true
  | .gsvRingEnable _ _ => true
  | .ringRecordFetched _ => true
  | .ringStallEnd => true
  | .ringErr => true
  | .flush _ _ => true
  | .solveBlock => true
  | .gsvCntClr _ _ => true
  | .nodeWr _ _ _ => true
  | .nodeCaptureRead _ => true
  | .copy _ _ => true
  | .copyDone => true
  | .qclr _ _ => true
  | .nzClr _ _ => true
  | .crmSwap _ _ => true
  | .crmRenderGroup _ => true
  | .blkGo _ _ => true
  | .blkRecordApply _ => true
  | .blkErr => true
  | .crmCntClr _ _ => true
  | .cceFeedBlock feed _ _ _ => decide (feed < 1024)
  | .tailWaitEnd feed _ => decide (feed < 1024)
  | .fcDlyWrite _ _ => true
  | .fcSosCoefAccess _ _ _ => true
  | .fcSosBypWrite _ _ => true
  | .fldGo _ _ => true
  | .fldStartAfterSwap => true
  | .fldDone _ => true
  | .fldErr _ => true
  | .fcSwap _ _ => true
  | .cceSwap _ _ => true
  | .cceCntClr _ _ => true
  | .vNop _ _ => true
  | .vMov _ _ => true
  | .vAdd _ _ => true
  | .vSub _ _ => true
  | .vAdds _ _ => true
  | .vSubs _ _ => true
  | .vNegs _ _ => true
  | .vAbss _ _ => true
  | .vAnd _ _ => true
  | .vOr _ _ => true
  | .vXor _ _ => true
  | .vNot _ _ => true
  | .vShl _ _ => true
  | .vShr _ _ => true
  | .vShrl _ _ => true
  | .vMin _ _ => true
  | .vMax _ _ => true
  | .vCmp _ _ => true
  | .vNsb _ _ => true
  | .vMpy _ _ => true
  | .vMac _ _ => true
  | .vMsu _ _ => true
  | .vMac2 _ _ => true
  | .vAclr _ _ => true
  | .vAmov _ _ => true
  | .vAadd _ _ => true
  | .vAshl _ _ => true
  | .vAshr _ _ => true
  | .vArd _ _ => true
  | .vAld _ _ => true
  | .vTapm _ _ => true
  | .vBxv _ _ => true
  | .vCmac _ _ => true
  | .vBfly _ _ => true
  | .vMvc _ _ => true
  | .vMcv _ _ => true
  | .loadWord _ _ _ _ _ => true
  | .storeWord _ _ _ _ _ => true
  | .loadPair _ _ _ _ _ => true
  | .storePair _ _ _ _ _ => true
  | .storeAcc _ _ _ _ _ => true
  | .registerCopy _ _ _ _ _ => true
  | .ldi _ _ => true
  | .ldip _ _ => true
  | .ldim _ _ => true
  | .ldil _ _ => true
  | .addi _ _ => true
  | .addip _ _ => true
  | .mvp _ _ => true
  | .mpv _ _ => true
  | .controlNop _ _ => true
  | .bra _ _ => true
  | .call _ _ => true
  | .ret _ _ => true
  | .loop _ _ => true
  | .loopr _ _ => true
  | .endItem _ _ => true
  | .prot _ _ => true
  | .unprot _ _ => true
  | .xgo _ _ => true
  | .xwait _ _ => true
  | .brk _ _ => true
  | .xferStartAfterWait _ _ => true
  | .xferDone _ _ _ _ => true
  | .xferErr _ _ _ => true
  | .qputTicketArrive _ _ => true
  | .protTimeout _ => true
  | .itemStart _ => true
  | .itemDone _ _ => true
  | .itemAbort _ _ _ => true
  | .preemptAct _ => true
  | .contextSaved _ _ => true
  | .contextRestored _ => true
  | .engCntClr _ _ _ => true
  | .dispatch _ => true
  | .stageDone item _ => decide (item < 4096)
  | .releaseExpire item _ => decide (item < 4096)
  | .deadlineExpire item _ => decide (item < 4096)
  | .daudit _ => true
  | .gldGo _ _ => true
  | .gldStartAfterOld => true
  | .gldDone _ => true
  | .sbGswap _ _ => true
  | .traceClr _ _ => true
  | .traceCaptureRead _ => true
  | .sbCntClr _ _ => true
  | .portEnable _ _ => true
  | .portDisable _ _ => true
  | .tdmFrame _ fr => tdmOk fr
  | .portLock _ => true
  | .started _ => true
  | .slotZcSwitch _ _ slot => decide (slot < 32)
  | .zcTo _ => true
  | .stopped _ => true
  | .loss _ => true
  | .rate _ => true
  | .rejoin _ _ => true
  | .tdmGroupStart _ _ => true
  | .tdmGroupStop _ _ => true
  | .groupMemberLeft _ => true
  | .aesRxLock _ => true
  | .aes3Frame _ _ _ => true
  | .channelStatusBlock _ _ bytes => bytes.length == 24
  | .arCsCaptureRead _ _ => true
  | .atCsStage _ _ _ _ => true
  | .atCs5Commit _ _ _ => true
  | .csBlockBegin _ => true
  | .srcLocked _ _ => true
  | .srcRelock _ => true
  | .tioCntClr _ _ => true
  | .nbPoolCreate _ _ => true
  | .nbAlloc _ => true
  | .nbRelease _ _ => true
  | .npTxpost _ _ _ => true
  | .txDone _ _ => true
  | .frameReceive _ fr => rxOk fr
  | .npTxdonePop _ _ => true
  | .npRxrdyPop _ _ => true
  | .streamEnable _ _ => true
  | .streamPacketRx _ fr => rxOk fr
  | .streamPacketTx st => decide (st < 256)
  | .prpEntryExpire src seq => decide (src < 2 ^ 48) && decide (seq < 2 ^ 16)
  | .netLinkChange _ _ _ => true
  | .txSelect _ guard _ => decide (guard < 256)
  | .gclEntryAdvance _ => true
  | .gclGo _ _ _ => true
  | .gclSwap _ => true
  | .collision _ => true
  | .backoffExpire => true
  | .deferExpire => true
  | .tsQueuePop _ _ _ => true
  | .metadataPacket _ fr => rxOk fr
  | .mdCfgWrite _ _ => true
  | .netCntClr _ _ => true
  | .ptpMessage _ => true
  | .tiOfsp _ _ _ => true
  | .tiOfss _ _ => true
  | .primaryTimeout _ _ => true
  | .shadowTimeout _ _ => true
  | .clrBias _ _ => true
  | .timeCaptureRead _ _ => true
  | .mediaClockTick _ _ _ => true
  | .realign _ _ _ => true
  | .pulseArm _ _ _ _ => true
  | .pulseEdge _ _ => true
  | .captureEdge _ _ _ _ _ => true
  | .capturePop _ _ => true
  | .tuCntClr _ _ => true
  | .refTick _ _ => true
  | .refInputLoss _ => true
  | .holdoffExpire _ => true
  | .reselect _ _ => true
  | .force _ _ => true
  | .switchEnd _ _ => true
  | .acquireLock _ => true
  | .histValid _ => true
  | .ruCntClr _ _ => true
  | .aiEnable _ _ => true
  | .aiDisable _ _ => true
  | .aiSync _ _ => true
  | .syncDone _ => true
  | .fvalidSet _ => true
  | .pgaWrite _ _ => true
  | .pgaStep _ => true
  | .pgaTo _ => true
  | .adcSample _ _ _ _ => true
  | .thrOff _ => true
  | .mbEnable _ _ _ => true
  | .mbDisable _ _ _ => true
  | .mbDwellEnd _ _ => true
  | .mbOc _ => true
  | .mbOpen _ => true
  | .aiCntClr _ _ => true
  | .jackMeasure _ _ => true
  | .jackTypeAccept _ => true
  | .aoEnable _ _ => true
  | .aoDisable _ _ => true
  | .aoDwellEnd _ => true
  | .slewUpdate _ => true
  | .seqDone _ => true
  | .aoSpanWrite _ _ => true
  | .aoSosCoefAccess _ _ _ => true
  | .aoSosCommit _ _ => true
  | .exCfgWrite _ _ _ => true
  | .expressRampDone _ => true
  | .expressFadeDone _ => true
  | .aoCntClr _ _ => true
  | .pairUp _ _ => true
  | .switchTwin _ _ => true
  | .take _ _ => true
  | .giveup _ _ => true
  | .resync _ _ => true
  | .hello _ => true
  | .mark _ => true
  | .block _ => true
  | .switchFrame _ blk => decide (blk < 2 ^ 58)
  | .ack _ => true
  | .chunk _ => true
  | .crcpass _ => true
  | .bulk _ => true
  | .check _ blk _ _ => decide (blk < 2 ^ 58)
  | .health _ words => words.length == 8
  | .fault _ cause blk => decide (1 ≤ cause) && decide (cause ≤ 9) && decide (blk < 2 ^ 58)
  | .ephamLinkUp _ => true
  | .ephamLinkDown _ => true
  | .linkSilence => true
  | .markSend => true
  | .standbyDeparture _ _ => true
  | .pinInstant blk => decide (blk < 2 ^ 58)
  | .clockSkewFault => true
  | .healthReport temp => fits 16 temp
  | .transferEnd => true
  | .catchupEnd => true
  | .synced => true
  | .twnCntClr _ _ => true
  | .scrubVisit st addr err => decide (st < 8) && addrOk addr && decide (err < 3)
  | .fabricGrant _ => true
  | .lockedRead _ addr _ => addrOk addr
  | .unlockingWrite _ addr _ _ => addrOk addr
  | .lockTo t => decide (t < 14)
  | .msRemapWrite _ _ => true
  | .selfCheck _ => true
  | .drSegWrite _ _ => true
  | .drInitDone _ => true
  | .dramRequest _ => true
  | .drTrainDone _ lanes => lanes.length == 4
  | .dramTrack steps => steps.length == 4
  | .retrain _ _ => true
  | .msCntClr _ _ => true
  | .spiWrite addr _ => decide (addr < 2 ^ 32)
  | .spiRead addr _ => decide (addr < 2 ^ 32)
  | .spiStatus => true
  | .i2cWrite _ => true
  | .i2cRead _ => true
  | .pcieReset _ => true
  | .pcieLink _ _ _ => true
  | .qsCmdGo _ _ => true
  | .qsDone _ _ => true
  | .mbStageWrite _ _ _ => true
  | .mbDb _ _ => true
  | .mbAck _ _ => true
  | .mbTimeout _ => true
  | .sideRst _ _ => true
  | .stationCoreReset _ _ => true
  | .mbAudit => true
  | .mbCntClr _ _ => true
  | .lockRead _ _ => true
  | .lockWrite _ _ _ => true
  | .gpioEdge _ _ => true
  | .heldReplyPost _ => true
  | .ping _ => true
  | .getInfo _ => true
  | .getStatus _ => true
  | .setMode _ => true
  | .consistLoad _ => true
  | .flashRead _ _ _ _ => true
  | .flashWrite _ _ _ => true
  | .flashErase _ _ => true
  | .ptpSet _ => true
  | .ptpGet _ => true
  | .sdpGet _ => true
  | .frameTx _ _ => true
  | .frameRxSet _ => true
  | .frameRxDone _ _ => true
  | .healthGet _ => true
  | .secChallenge _ nonce => nonce.length == 16
  | .secUnlock _ => true
  | .carReceived _ => true
  | .boot _ dir => dir.length == 5
  | .haltRequest _ _ => true
  | .resumeRequest _ _ => true
  | .shuntRequest _ _ => true
  | .inspectionRequest _ _ => true
  | .sidingRequest _ _ => true
  | .depotRequest _ _ => true
  | .transitionStepEnd => true
  | .wakeN => true
  | .rtcAlarm => true
  | .wake src => decide (src < 8)
  | .railStepEnd => true
  | .powerOnReset _ => true
  | .resetN => true
  | .sysRst _ _ => true
  | .sysBlkrst _ _ => true
  | .railUndervoltage => true
  | .secLcReq _ _ => true
  | .lcBurnDone _ => true
  | .fusePgm _ _ => true
  | .pgmDone _ => true
  | .monitorTrip => true
  | .trstN => true
  | .idcode => true
  | .bypass => true
  | .samplePreload _ => true
  | .extest _ => true
  | .dbgChal nonce => nonce.length == 16
  | .dbgResp v => decide (v < 2 ^ 1032)
  | .dbgMem _ addr _ _ => addrOk addr
  | .dbgAttach => true
  | .dbgInsp => true
  | .dbgRelease => true
  | .dbgSubmit => true
  | .unlockVerified => true
  | .nonceExpire => true
  | .relock _ _ => true
  | .dramPatternTest _ => true
  | .builtInTest _ _ => true
  | .consistFetchFailure => true

end Sys2Proof
end

