-- ==== Sys2Proof/Decode.lean ====
section
/-!
DEFINITION. The decoder of table words: no row of spec/opcode_table.json gives bits, so no word spells a command.
-/
namespace Sys2Proof

/-- The command that the low `nbits` bits of `w` spell by the table: none, for every row's list of fields is empty. -/
def decodeTableWord (_nbits _w : Nat) : Option Instr := none

end Sys2Proof
end

