-- ==== Sys2Proof/Config.lean ====
section
/-!
DEFINITION. What the spec leaves open, as constants without a body: nothing can evaluate them or prove a value of
them, so every claim holds whatever they are. Each is named in a log entry under notes/assumptions/.
Marks (notes/assumptions): DESIGN CHOICE 9, 21, 22, 23, 24, 25, 27, 29, 44, 59, 61; DEDUCED 94, 102; PRESUMED 100.
-/
namespace Sys2Proof.Config

/-- A free word: the `n`-th value that the spec leaves open in a run. -/
opaque freeWord (n : Nat) : Word

/-- A free number. -/
opaque freeNat (n : Nat) : Nat

/-- The gain solver's square root of a binary32 (02_gain_solver.md R47: fixed tables). -/
opaque gsvSqrt (x : Word) : Word

/-- The gain solver's power `x ^ y` of binary32 values (R47). -/
opaque gsvPow (x y : Word) : Word

/-- The gain solver's cosine and sine of a binary32 angle (R47). -/
opaque gsvCos (x : Word) : Word
opaque gsvSin (x : Word) : Word

/-- The gain code of a feed that two speaker entries name, both with a non-zero gain (R60 allows it, R71 does not
say which code the one node takes). -/
opaque gsvSharedFeed (a b : Nat) : Nat

/-- Does the code of a cosine in the FIR's table of twiddle factors lie one unit above its floor (04_correction.md R119: the spec prints no table)?
The numerator and the denominator of the angle's share of a turn. -/
opaque twiddleUp (num den : Nat) : Bool

/-- The bits by which the FIR shifts a frame left before its transform, within the frame's headroom, and a class's sum right beyond what
32-bit mantissas need (R119 states neither). -/
opaque frameLead (xs : List Word) : Nat
opaque classShift (points : Nat) (x : List (Int × Int)) : Nat

/-- Does an entry of the correction engine's fixed tables lie one unit above the floor of the exact value (R111, R129: "fixed tables")? The
table: 0 threshold, 1 attack, 2 release, 3 gain reduction; its argument; the rate. -/
opaque tableUp (table : Nat) (arg : Int) (fs : Nat) : Bool

/-- What a channel of a sample-rate converter becomes with one more input sample, and what it delivers at a place of its output: the filter is
not stated, only that the output is a function of the input and of the ratio (07_tdm_ports.md R230). -/
opaque srcStep (ratio acc : Nat) (x : BitVec 32) : Nat
opaque srcOut (ratio acc place : Nat) : BitVec 32

/-- The Ethernet destination of a stream packet to a unicast address, and the bytes of its IPv4 and UDP headers that the spec does not state (DSCP,
identification, flags, lifetime, source address, checksums), by place: functions of the stream and the packet's first timestamp
(08_network.md R243). -/
opaque streamMac (addr : Nat) : Nat
opaque ipByte (stream t0 place : Nat) : BitVec 8

/-- The fixed coefficients of an analog input's decimation filters (10_analog_inputs.md R295, R304), which are not stated: those on one side of the
centre of half-band stage 0 or 1, at its odd distances, nearest first; those of the FIR from its centre outward, and whether it has two centre
coefficients; those of the fast path, latest sample first; the fraction bits that each of the four narrows away; and, of the poles with which the
high-pass filter's corner is 1.0 Hz at a rate, which one it has (R297). -/
opaque adcHalf (stage : Nat) : List Int
opaque adcFir : List Int
opaque adcFirEven : Bool
opaque adcFast (tap : Nat) : Int
opaque adcFrac (filter : Nat) : Nat
opaque hpfPole (rate : Nat) : Nat

/-- The fixed interpolation filter of an analog output (11_analog_outputs.md R321), whose coefficients are not stated: the value at tick `phase` of the
eight after the latest sample, of the latest samples, latest first. -/
opaque aoInterp (xs : List (BitVec 32)) (phase : Nat) : Int

/-- The die revision, set by the metal layers (18_variants_fuses.md R487): its letter and its digit. -/
opaque dieLetter : Nat
opaque dieDigit : Nat

/-- The version of the Station firmware that the boot ROM's factory default consist carries (14_host_mailboxes.md R407). -/
opaque defaultFirmware : Word

/-- The SHA-256 hashes that the boot ROM holds: of Amivia's public key and of the return key (15_consist_boot.md R415,
17_security_debug.md R472). -/
opaque amiviaKeyHash : List Byte
opaque returnKeyHash : List Byte

/-- Amivia's public key X and Y: the FIRMWARE car carries its signature alone (15_consist_boot.md R415). -/
opaque amiviaKeyX : List Byte
opaque amiviaKeyY : List Byte

/-- The depth of a queue for which the spec gives none (01_architecture.md R38: QID 296 and 297), less one. -/
opaque queueDepth (q : Nat) : Nat

/-- The fields of PTP_SET's argument words, whose places the spec does not give (14_host_mailboxes.md R407). -/
opaque ptpPort (w0 : Word) : Fin 3
opaque ptpInst (w0 : Word) : Fin 4
opaque ptpProfile (w0 : Word) : Nat
opaque ptpDomP (w1 : Word) : Nat
opaque ptpDomS (w1 : Word) : Nat
opaque ptpRole (w2 : Word) : Nat

/-- The word in which PTP_GET returns clockClass and clockAccuracy (R407). -/
opaque ptpQuality (cls acc : Nat) : Word

/-- What 12_twin.md R341 to R343 leave open of the link's frames: the KIND of the six sections; the words of a section's fields where the rule
gives no places (1: QID and channel count; 5: checksum and LATE; 6: a mode request); the word of a WRITE record with address bits 39:32 and the
agent; the payload of the frame types that R342 only describes, from their fields; BLK of a frame that concerns no block. -/
opaque sectionKind (k : Nat) : Nat
opaque sectionWords (k : Nat) (fields : List Nat) : List Word
opaque writeWho (high agent : Nat) : Word
opaque framePayload (type : Nat) (fields : List Nat) : List Word
opaque frameBlk (type : Nat) (seq : Word) : Nat

/-- The pattern that the fabric self-check writes (13_memory.md R380), by address. -/
opaque selfCheckPattern (addr : Nat) : Byte

/-- The boot ROM's bytes, as the remap window shows them (13_memory.md R379). -/
opaque bootRom (off : Nat) : Byte

/-- The cause that a failed built-in test of an engine records (12_twin.md R352, R360 name none for it). -/
opaque builtInCause : Nat

/-- The bank and the row of a DRAM address (13_memory.md R383). -/
opaque dramBank (addr : Nat) : Nat
opaque dramRow (addr : Nat) : Nat

/-- The SDP text of a transmit stream: where firmware places it in the control SRAM and its length (14_host_mailboxes.md R407). -/
opaque sdpAddr (stream : Nat) : Nat
opaque sdpLen (stream : Nat) : Nat

/-- The form of the dither generator, whose polynomial alone is given (04_correction.md R132): true Galois, false Fibonacci; and the
16-bit output of a state. -/
opaque ditherGalois : Bool
opaque ditherOut (state : Nat) : Nat

end Sys2Proof.Config
end

