-- ==== Sys2Proof/Machine/Float.lean ====
section
/-!
DEFINITION. IEEE 754 binary32 with round to nearest even, as 02_gain_solver.md R47 and 04_correction.md R129 use it:
a number is unpacked to sign, integer significand and exponent, the exact result is formed over integers, and one
rounding packs it.
-/
namespace Sys2Proof.Machine

/-- An unpacked binary32: `fin s m e` is `(-1)^s * m * 2^e`. -/
inductive FVal
  | nan
  | inf (s : Bool)
  | fin (s : Bool) (m : Nat) (e : Int)
  deriving DecidableEq, Repr

/-- The canonical quiet NaN. -/
def fNaN : Word := 0x7FC00000#32

def fInf (s : Bool) : Word := if s then 0xFF800000#32 else 0x7F800000#32

def fUnpack (w : Word) : FVal :=
  let s := bit w 31
  let e := bits w 23 8
  let m := bits w 0 23
  if e = 255 then (if m = 0 then .inf s else .nan)
  else if e = 0 then .fin s m (-149)
  else .fin s (m + 2 ^ 23) ((e : Int) - 150)

/-- A significand shifted right by `k` bits, rounded to nearest even. -/
def shrRne (m k : Nat) : Nat :=
  let q := m / 2 ^ k
  let r := m % 2 ^ k
  if k = 0 then m
  else if 2 * r > 2 ^ k then q + 1
  else if 2 * r = 2 ^ k then (if q % 2 = 1 then q + 1 else q)
  else q

/-- The binary32 nearest to `(-1)^s * m * 2^e`, ties to even. -/
def fPack (s : Bool) (m : Nat) (e : Int) : Word :=
  let sb := if s then 2 ^ 31 else 0
  if m = 0 then w32 sb
  else
    let len := Nat.log2 m + 1
    -- the exponent at which 24 bits remain, but never below the subnormal one
    let e' := max (e + (len : Int) - 24) (-149)
    let m' := if e' ≥ e then shrRne m (e' - e).toNat else m * 2 ^ (e - e').toNat
    let (m2, e2) := if m' ≥ 2 ^ 24 then (m' / 2, e' + 1) else (m', e')
    if m2 < 2 ^ 23 then w32 (sb + m2)
    else
      let ex := (e2 + 150).toNat
      if ex ≥ 255 then fInf s else w32 (sb + ex * 2 ^ 23 + (m2 - 2 ^ 23))

def fNeg (a : Word) : Word := a ^^^ 0x80000000#32
def fAbs (a : Word) : Word := a &&& 0x7FFFFFFF#32
def fZero : Word := 0#32
def fOne : Word := 0x3F800000#32
def fMOne : Word := 0xBF800000#32
def fHalf : Word := 0x3F000000#32

def fAdd (a b : Word) : Word :=
  match fUnpack a, fUnpack b with
  | .nan, _ => fNaN
  | _, .nan => fNaN
  | .inf s, .inf t => if s = t then fInf s else fNaN
  | .inf s, _ => fInf s
  | _, .inf t => fInf t
  | .fin s m e, .fin t n f =>
    let lo := min e f
    let x : Int := (if s then -1 else 1) * (m * 2 ^ (e - lo).toNat : Nat)
    let y : Int := (if t then -1 else 1) * (n * 2 ^ (f - lo).toNat : Nat)
    let z := x + y
    if z = 0 then (if s && t then w32 (2 ^ 31) else fZero)
    else fPack (decide (z < 0)) z.natAbs lo

def fSub (a b : Word) : Word := fAdd a (fNeg b)

def fMul (a b : Word) : Word :=
  match fUnpack a, fUnpack b with
  | .nan, _ => fNaN
  | _, .nan => fNaN
  | .inf s, .inf t => fInf (s != t)
  | .inf s, .fin t n _ => if n = 0 then fNaN else fInf (s != t)
  | .fin s m _, .inf t => if m = 0 then fNaN else fInf (s != t)
  | .fin s m e, .fin t n f => fPack (s != t) (m * n) (e + f)

def fDiv (a b : Word) : Word :=
  match fUnpack a, fUnpack b with
  | .nan, _ => fNaN
  | _, .nan => fNaN
  | .inf _, .inf _ => fNaN
  | .inf s, .fin t _ _ => fInf (s != t)
  | .fin s _ _, .inf t => fPack (s != t) 0 0
  | .fin s m e, .fin t n f =>
    if n = 0 then (if m = 0 then fNaN else fInf (s != t))
    else
      let q := m * 2 ^ 64 / n
      let sticky := if m * 2 ^ 64 % n = 0 then 0 else 1
      fPack (s != t) (2 * q + sticky) (e - f - 65)

/-- Is the value finite (R63)? -/
def fFinite (a : Word) : Bool := bits a 23 8 != 255

/-- `a < b`, false for a NaN. -/
def fLt (a b : Word) : Bool :=
  match fUnpack a, fUnpack b with
  | .nan, _ => false
  | _, .nan => false
  | .inf s, .inf t => s && !t
  | .inf s, _ => s
  | _, .inf t => !t
  | .fin s m e, .fin t n f =>
    let lo := min e f
    let x : Int := (if s then -1 else 1) * (m * 2 ^ (e - lo).toNat : Nat)
    let y : Int := (if t then -1 else 1) * (n * 2 ^ (f - lo).toNat : Nat)
    decide (x < y)

/-- `a` and `b` equal as numbers (the two zeros are equal), false for a NaN. -/
def fEq (a b : Word) : Bool :=
  match fUnpack a, fUnpack b with
  | .nan, _ => false
  | _, .nan => false
  | _, _ => !fLt a b && !fLt b a

def fLe (a b : Word) : Bool := fLt a b || fEq a b
def fGe (a b : Word) : Bool := fLe b a
def fIsZero (a : Word) : Bool := fEq a fZero

/-- The binary32 nearest to an integer. -/
def fOfInt (v : Int) : Word := fPack (decide (v < 0)) v.natAbs 0

/-- The binary32 nearest to `v * 2^e`. -/
def fOfScaled (v : Int) (e : Int) : Word := fPack (decide (v < 0)) v.natAbs e

/-- The floor of a finite value times `2^k`; `0` for a value that is not finite. -/
def fFloorScaled (a : Word) (k : Nat) : Int :=
  match fUnpack a with
  | .nan => 0
  | .inf _ => 0
  | .fin s m e =>
    let x : Int := (if s then -1 else 1) * (m : Int)
    let e' := e + (k : Int)
    if e' ≥ 0 then x * (2 ^ e'.toNat : Nat) else x / (2 ^ (-e').toNat : Nat)

/-- The floor of a finite value. -/
def fFloor (a : Word) : Int := fFloorScaled a 0

end Sys2Proof.Machine
end

