-- ==== Sys2Proof/Machine/GsvMath.lean ====
section
/-!
DEFINITION. The gain solver's mathematics (02_gain_solver.md R46, R57, R58, R63 to R72): from an object's update in
effect and the layout to the targets of its nodes for one block. Formulas are evaluated in binary32 in the order the
spec writes them (R47).
Marks (notes/assumptions): DEDUCED 89; DESIGN CHOICE 90.
-/
namespace Sys2Proof.Machine

/-! ### Fields of an update record (R48) -/

def Rec8.apply (r : Rec8) : Nat := pair r.w0 r.w1
def Rec8.kind (r : Rec8) : Nat := bits r.w3 30 2
def Rec8.spreadR (r : Rec8) : Nat := bits r.w2 24 8
def Rec8.spreadN (r : Rec8) : Nat := bits r.w3 24 6 + 1
def Rec8.ramp (r : Rec8) : Nat := bits r.w4 24 8
def Rec8.gain (r : Rec8) : Int := sgn 16 (bits r.w6 16 16)
def Rec8.silent (r : Rec8) : Bool := bits r.w6 16 16 == 0x8000
def Rec8.room (r : Rec8) : Bool := bit r.w7 31
def Rec8.snap (r : Rec8) : Bool := bit r.w7 30
def Rec8.arr (r : Rec8) : Nat := bits r.w7 26 4
def Rec8.objNo (r : Rec8) : Nat := bits r.w7 16 10
def Rec8.zones (r : Rec8) : Nat := bits r.w7 0 16
def Rec8.bedEntry (r : Rec8) : Nat := bits r.w2 0 8
def Rec8.rawPos (r : Rec8) : Vec3 := ⟨sgn 24 r.w2.toNat, sgn 24 r.w3.toNat, sgn 24 r.w4.toNat⟩
def Rec8.rawVel (r : Rec8) : Vec3 := ⟨sgn 16 r.w5.toNat, sgn 16 (bits r.w5 16 16), sgn 16 r.w6.toNat⟩

/-- Position in metric millimetres (R46): a room-relative axis is `C + floor (q * H)` with `q` in Q1.15. -/
def gsvPos (l : Layout) (r : Rec8) : Vec3 :=
  if r.room then
    let q (w : Word) : Int := sgn 16 w.toNat
    ⟨l.boxC.x + narrow (q r.w2 * l.boxH.x) 15, l.boxC.y + narrow (q r.w3 * l.boxH.y) 15,
     l.boxC.z + narrow (q r.w4 * l.boxH.z) 15⟩
  else r.rawPos

/-- Velocity in metric millimetres per block (R46). -/
def gsvVel (l : Layout) (r : Rec8) : Vec3 :=
  let v := r.rawVel
  if r.room then ⟨narrow (v.x * l.boxH.x) 15, narrow (v.y * l.boxH.y) 15, narrow (v.z * l.boxH.z) 15⟩ else v

/-! ### Vectors of binary32 -/

def FVec.dot (a b : FVec) : Word := fAdd (fAdd (fMul a.x b.x) (fMul a.y b.y)) (fMul a.z b.z)
def FVec.norm (a : FVec) : Word := Config.gsvSqrt (a.dot a)
def FVec.add (a b : FVec) : FVec := ⟨fAdd a.x b.x, fAdd a.y b.y, fAdd a.z b.z⟩
def FVec.sub (a b : FVec) : FVec := ⟨fSub a.x b.x, fSub a.y b.y, fSub a.z b.z⟩
def FVec.scale (k : Word) (a : FVec) : FVec := ⟨fMul k a.x, fMul k a.y, fMul k a.z⟩
def FVec.divBy (a : FVec) (k : Word) : FVec := ⟨fDiv a.x k, fDiv a.y k, fDiv a.z k⟩
def FVec.cross (a b : FVec) : FVec :=
  ⟨fSub (fMul a.y b.z) (fMul a.z b.y), fSub (fMul a.z b.x) (fMul a.x b.z), fSub (fMul a.x b.y) (fMul a.y b.x)⟩
def Vec3.toF (v : Vec3) : FVec := ⟨fOfInt v.x, fOfInt v.y, fOfInt v.z⟩

/-- The extrapolated position of block `b`, limited to the signed 24-bit range (R57): the update's apply time is
`t`, or `32 * E` for an apply time of 0; `x` is GSV_EXTRAP.MAX. The two sample indices are 64-bit integers: their difference is exact
and is the first binary32 operand of the formula (DEDUCED, log 89). -/
def gsvExtrap (l : Layout) (u : LiveUpd) (x : Nat) (b : Nat) : FVec :=
  let t : Int := if u.rc.apply = 0 then 32 * u.eff else u.rc.apply
  let k := fDiv (fOfInt (32 * ((b : Int) + 1) - t)) (fOfInt 32)
  let k' := if fLt (fOfInt x) k then fOfInt x else k
  let p := (gsvPos l u.rc).toF.add (FVec.scale k' (gsvVel l u.rc).toF)
  let lim (v : Word) : Word :=
    if fLt v (fOfInt (-8388608)) then fOfInt (-8388608)
    else if fLt (fOfInt 8388607) v then fOfInt 8388607 else v
  ⟨lim p.x, lim p.y, lim p.z⟩

/-- The position that OBJ_POS reports: each axis rounded toward minus infinity (DEDUCED, log 89). -/
def FVec.floorPos (p : FVec) : Vec3 := ⟨fFloor p.x, fFloor p.y, fFloor p.z⟩

/-! ### Direction gains (R63) -/

def Layout.tri! (l : Layout) (i : Nat) : Triangle :=
  (l.tri[i]?).getD ⟨0, 0, 0, ⟨0, 0, 0⟩, ⟨0, 0, 0⟩, ⟨0, 0, 0⟩, 0, 0, 0⟩

/-- The weights `d^T * M^-1` of a triangle (R63 step 2). -/
def triWeights (t : Triangle) (d : FVec) : FVec :=
  ⟨fAdd (fAdd (fMul d.x t.r0.x) (fMul d.y t.r1.x)) (fMul d.z t.r2.x),
   fAdd (fAdd (fMul d.x t.r0.y) (fMul d.y t.r1.y)) (fMul d.z t.r2.y),
   fAdd (fAdd (fMul d.x t.r0.z) (fMul d.y t.r1.z)) (fMul d.z t.r2.z)⟩

def fMin (a b : Word) : Word := if fLt b a then b else a

/-- The smallest weight of a triangle. -/
def FVec.least (g : FVec) : Word := fMin (fMin g.x g.y) g.z

/-- The neighbour across the edge opposite the vertex with the most negative weight, the lower position on equal
weights (R63 step 3). -/
def triNext (t : Triangle) (g : FVec) : Nat :=
  if fLe g.x g.y && fLe g.x g.z then t.n0 else if fLe g.y g.z then t.n1 else t.n2

def fClip0 (a : Word) : Word := if fLt a fZero then fZero else a

/-- The walk of R63 steps 1 to 4: `fuel` evaluations remain, `best` is the triangle so far with the largest smallest
weight, the lowest number on ties. -/
def triWalk (l : Layout) (d : FVec) : (fuel : Nat) → (cur : Nat) → (best : Nat × FVec) → Nat × FVec
  | 0, _, best => (best.1, ⟨fClip0 best.2.x, fClip0 best.2.y, fClip0 best.2.z⟩)
  | fuel + 1, cur, best =>
    let t := l.tri! cur
    let g := triWeights t d
    if fGe g.x fZero && fGe g.y fZero && fGe g.z fZero then (cur, g)
    else
      let better := fLt best.2.least g.least || (fEq best.2.least g.least && cur < best.1)
      triWalk l d fuel (triNext t g) (if better then (cur, g) else best)

/-- Gains by speaker number, added up. -/
def addGain (t : Tbl Word) (k : Nat) (g : Word) : Tbl Word := Tbl.put t k (fAdd (Tbl.getD t k fZero) g)

/-- The sum of the squares of the gains, added in ascending speaker number (DESIGN CHOICE, log 90: R63 gives no order). -/
def sumSq (t : Tbl Word) : Word := t.foldl (fun a e => fAdd a (fMul e.2 e.2)) fZero

/-- Every gain divided by the square root of the sum of the squares. -/
def renorm (t : Tbl Word) : Tbl Word :=
  let n := Config.gsvSqrt (sumSq t)
  t.map (fun e => (e.1, fDiv e.2 n))

/-- Direction gains of `d` by speaker, with the triangle the walk ends on (R63). -/
def dirGains (l : Layout) (d : FVec) (start : Nat) : Nat × Tbl Word :=
  if l.tri = [] then (start, [])
  else
    let (t, g) := triWalk l d 64 start (start, triWeights (l.tri! start) d)
    let n := Config.gsvSqrt (fAdd (fAdd (fMul g.x g.x) (fMul g.y g.y)) (fMul g.z g.z))
    let tr := l.tri! t
    let vs := [(tr.v0, fDiv g.x n), (tr.v1, fDiv g.y n), (tr.v2, fDiv g.z n)]
    let direct := vs.foldl (fun a e => if e.1 < 1024 then addGain a e.1 e.2 else a) ([] : Tbl Word)
    let all := vs.foldl (fun a e =>
      if e.1 < 1024 then a
      else match l.vspk[e.1 - 1024]? with
        | none => a
        | some v => v.pairs.foldl (fun b q => addGain b q.1 (fMul e.2 q.2)) a) direct
    let n2 := Config.gsvSqrt (sumSq all)
    let r := all.map (fun e => (e.1, fDiv e.2 n2))
    if fIsZero n || fIsZero n2 || vs.any (fun e => !fFinite e.2) || r.any (fun e => !fFinite e.2) then (t, [])
    else (t, r)

/-! ### Spread, snap, zones (R64 to R67) -/

/-- The zone of a feed: that of the lowest-numbered speaker entry that names it (R60). -/
def Layout.feedZone (l : Layout) (f : Nat) : Option Nat := (l.spk.find? (fun s => s.feed == f)).map Speaker.zone

def zoneOut (zones : Nat) (z : Option Nat) : Bool :=
  match z with
  | none => false
  | some k => (zones >>> k) % 2 == 1

/-- The unit direction of a position, or the previous one when it is shorter than 1 mm (R64). -/
def unitDir (p prev : FVec) : FVec := if fLt p.norm fOne then prev else p.divBy p.norm

/-- The spread sources of R65: `q_j = p + rho * sqrt ((j + 0.5) / N) * (cos (j phi) u + sin (j phi) v)`. -/
def spreadSource (p phat : FVec) (rho : Word) (n j : Nat) : FVec :=
  let c := FVec.cross ⟨fZero, fZero, fOne⟩ phat
  let u := if fLt c.norm 0x3A800000#32 then ⟨fOne, fZero, fZero⟩ else c.divBy c.norm
  let v := FVec.cross phat u
  let a := fMul (fOfInt j) 0x401998FE#32
  let k := fMul rho (Config.gsvSqrt (fDiv (fAdd (fOfInt j) fHalf) (fOfInt n)))
  p.add (FVec.scale k ((FVec.scale (Config.gsvCos a) u).add (FVec.scale (Config.gsvSin a) v)))

/-- The walks of the spread points in order, each from the triangle where the one before ended: the squares of
the gains added up by speaker (R65). -/
def spreadWalks (l : Layout) (p phat : FVec) (rho : Word) (n : Nat) : (k : Nat) → (j : Nat) → Nat → Tbl Word → Nat × Tbl Word
  | 0, _, t, acc => (t, acc)
  | k + 1, j, t, acc =>
    let q := spreadSource p phat rho n j
    let d := if fLt q.norm fOne then phat else q
    let (t', g) := dirGains l d t
    spreadWalks l p phat rho n k (j + 1) t' (g.foldl (fun a e => addGain a e.1 (fMul e.2 e.2)) acc)

/-- The speaker, not excluded, whose direction has the largest dot product with `phat`; the lowest number on ties
(R66). -/
def snapSpeaker (l : Layout) (zones : Nat) (phat : FVec) : Option Nat :=
  let step (best : Option (Nat × Word)) (e : Speaker × Nat) : Option (Nat × Word) :=
    if zoneOut zones (some e.1.zone) then best
    else
      let x := e.1.dir.dot phat
      match best with
      | none => some (e.2, x)
      | some (_, y) => if fLt y x then some (e.2, x) else best
  ((l.spk.zipIdx).foldl step none).map Prod.fst

/-- The 64 largest gains, the lower feed number on ties (R67 step 3); of two speakers on one feed with equal gains, the lower-numbered one
(DESIGN CHOICE, log 90). -/
def keep64 (l : Layout) (g : Tbl Word) : Tbl Word :=
  let feedOf (k : Nat) : Nat := ((l.spk[k]?).map Speaker.feed).getD 0
  let beats (a b : Nat × Word) : Bool := fLt b.2 a.2 || (fEq a.2 b.2 && (decide (feedOf a.1 < feedOf b.1) || (feedOf a.1 == feedOf b.1 && decide (a.1 < b.1))))
  g.filter (fun e => (g.filter (fun f => beats f e)).length < 64)

/-- Zone mask, snap and feed limit of R67 on the gains of a point object. -/
def limitGains (l : Layout) (zones : Nat) (phat : FVec) (g : Tbl Word) : Tbl Word :=
  let out (k : Nat) : Bool := zoneOut zones ((l.spk[k]?).map Speaker.zone)
  let cut := g.filter (fun e => !fIsZero e.2 && !out e.1)
  let lost := g.any (fun e => !fIsZero e.2 && out e.1)
  let g1 := if lost && cut ≠ [] then renorm cut else cut
  let g2 := if g1 = [] then
      match snapSpeaker l zones phat with
      | none => []
      | some k => [(k, fOne)]
    else g1
  if g2.length > 64 then renorm (keep64 l g2) else g2

/-! ### Gains to targets (R68 to R72) -/

/-- The object gain factor `A` (R68). -/
def gsvA (r : Rec8) : Word :=
  if r.silent then fZero else Config.gsvPow (fOfInt 10) (fDiv (fOfInt r.gain) (fOfInt 1280))

/-- The distance factor `a` (R68). -/
def gsvDist (p : GsvPar) (pos : FVec) : Word :=
  let r := pos.norm
  if p.roll = 0 || fLe r (fOfInt p.dref) then fOne
  else Config.gsvPow (fDiv (fOfInt p.dref) r) (fDiv (fOfInt p.roll) (fOfInt 16))

/-- The node gain code of R71: the floor of the product times 2^20, at most 0x7F_FFFF (03_crosspoint.md R81). -/
def gainCode (g : Word) : Nat :=
  let c := fFloorScaled g 20
  if c ≤ 0 then 0 else min c.toNat 0x7FFFFF

/-- The result of solving one object for one block. -/
structure Solved where
  pos : FVec
  dir : FVec
  kept : Nat
  tri : Option Nat
  want : Tbl Tgt
  clamp : Bool
  deriving DecidableEq, Repr

/-- A target put at a feed; where two speakers name one feed, the code is left open. -/
def putTgt (t : Tbl Tgt) (feed code : Nat) : Tbl Tgt :=
  match Tbl.get? t feed with
  | none => Tbl.put t feed ⟨code, 0⟩
  | some old =>
    if code = 0 then t
    else if old.gain = 0 then Tbl.put t feed ⟨code, 0⟩
    else Tbl.put t feed ⟨Config.gsvSharedFeed old.gain code % 2 ^ 23, 0⟩

/-- A point object (R63 to R68, R71). -/
def solvePoint (l : Layout) (par : GsvPar) (o : Obj) (u : LiveUpd) (b : Nat) : Solved :=
  let r := u.rc
  let p := gsvExtrap l u par.extrap b
  let phat := unitDir p o.dir
  let rho := if r.room then fDiv (fMul (fOfInt r.spreadR) (fOfInt l.boxH.x)) (fOfInt 256)
    else fOfInt (16 * r.spreadR)
  let n := r.spreadN
  let (kept, tri, g) : Nat × Option Nat × Tbl Word :=
    if r.snap then
      (o.kept, none, match snapSpeaker l r.zones phat with
        | none => []
        | some k => [(k, fOne)])
    else if n = 1 || fIsZero rho then
      let (t, g) := dirGains l (if fLt p.norm fOne then o.dir else p) o.kept
      (t, if l.tri = [] then none else some t, limitGains l r.zones phat g)
    else
      let (t, sq) := spreadWalks l p phat rho n n 0 o.kept []
      let g := sq.map (fun e => (e.1, Config.gsvSqrt (fMul (fDiv fOne (fOfInt n)) e.2)))
      (t, if l.tri = [] then none else some t, limitGains l r.zones phat g)
  let k := fMul (gsvA r) (gsvDist par p)
  let want := g.foldl (fun t e =>
    match l.spk[e.1]? with
    | none => t
    | some s => putTgt t s.feed (gainCode (fMul k e.2))) ([] : Tbl Tgt)
  ⟨p, phat, kept, tri, want, false⟩

/-- A bed object (R69). The direction of the previous solved block stays that of the latest point solve (R64), of two triples on one feed the
last wins, and OBJ_POS reports the record's position fields (DESIGN CHOICE, log 90). -/
def solveBed (l : Layout) (o : Obj) (u : LiveUpd) : Solved :=
  let r := u.rc
  let a := gsvA r
  let want := ((Tbl.get? l.bed r.bedEntry).getD []).foldl (fun t (q : BedTriple) =>
    if zoneOut r.zones (l.feedZone q.feed) then t
    else Tbl.put t q.feed ⟨gainCode (fMul a (fOfScaled q.gain (-20))), q.dly⟩) ([] : Tbl Tgt)
  ⟨(gsvPos l r).toF, o.dir, o.kept, none, want, false⟩

/-- An array object (R70): the active members with their raw weights, or the one member nearer than 1 mm. Of
two active members on one feed the last wins, and the direction of the previous solved block stays (DESIGN CHOICE, log 90). -/
def solveArray (l : Layout) (par : GsvPar) (fs : Nat) (o : Obj) (u : LiveUpd) (b : Nat) : Solved :=
  let r := u.rc
  let x := gsvExtrap l u par.extrap b
  let k := fMul (gsvA r) (gsvDist par x)
  match Tbl.get? l.arr r.arr with
  | none => ⟨x, o.dir, o.kept, none, [], false⟩
  | some a =>
    let focused := fLt fZero ((x.sub a.centre.toF).dot a.nrm)
    let open' := a.members.filter (fun m => !zoneOut r.zones (l.feedZone m.feed))
    let dist (m : ArrMember) : Word := (m.pos.toF.sub x).norm
    -- feed, weight, distance of the active members
    let act : List (Nat × Word × Word) :=
      match open'.find? (fun m => fLt (dist m) fOne) with
      | some m => [(m.feed, fOne, dist m)]
      | none => open'.filterMap (fun m =>
          let rk := dist m
          let e := if focused then fDiv ((x.sub m.pos.toF).dot m.nrm) rk
            else fDiv ((m.pos.toF.sub x).dot m.nrm) rk
          if fLt fZero e then some (m.feed, fDiv e (Config.gsvSqrt rk), rk) else none)
    let one := open'.any (fun m => fLt (dist m) fOne)
    let nrm := Config.gsvSqrt (act.foldl (fun s e => fAdd s (fMul e.2.1 e.2.1)) fZero)
    let rmin := act.foldl (fun s e => fMin s e.2.2) (fInf false)
    let rmax := act.foldl (fun s e => if fLt s e.2.2 then e.2.2 else s) fZero
    let dly (rk : Word) : Int :=
      if one then a.tauRef
      else
        let df := if focused then fSub rmax rk else fSub rk rmin
        a.tauRef + fFloor (fAdd (fDiv (fMul df (fOfInt fs)) (fOfInt par.sound)) fHalf)
    let want := act.foldl (fun t e =>
      let g := if one then fOne else fDiv e.2.1 nrm
      Tbl.put t e.1 ⟨gainCode (fMul k g), (min (dly e.2.2) 2047).toNat⟩) ([] : Tbl Tgt)
    ⟨x, o.dir, o.kept, none, want, act.any (fun e => dly e.2.2 > 2047)⟩

/-- The object solved for block `b`: an object that no update has reached keeps every target at 0. -/
def solveObj (l : Layout) (par : GsvPar) (fs : Nat) (o : Obj) (b : Nat) : Solved :=
  match o.live with
  | none => ⟨⟨fZero, fZero, fZero⟩, o.dir, o.kept, none, [], false⟩
  | some u =>
    if u.rc.kind = 1 then solveBed l o u
    else if u.rc.kind = 2 then solveArray l par fs o u b
    else solvePoint l par o u b

/-- The ramp time in blocks that writes of block `b` carry (R58). -/
def rampTime (o : Obj) (b : Nat) : Nat :=
  match o.live with
  | none => 1
  | some u =>
    let k := b - u.since
    if k ≤ u.rc.ramp then u.rc.ramp + 1 - k else 1

/-- The node writes of one object (R72): the targets that differ from those last written, a feed that is no longer
reached once with gain 0 and its previous delay. -/
def diffWrites (old want : Tbl Tgt) : Tbl Tgt :=
  let gone := old.filterMap (fun e =>
    if (Tbl.get? want e.1).isNone && e.2.gain ≠ 0 then some (e.1, (⟨0, e.2.dly⟩ : Tgt)) else none)
  let new := want.filter (fun e => decide (Tbl.getD old e.1 ⟨0, 0⟩ ≠ e.2))
  new.foldl (fun t e => Tbl.put t e.1 e.2) gone

end Sys2Proof.Machine
end

