-- ==== Sys2Proof/Machine/Mem.lean ====
section
/-!
DEFINITION. Memory: one sparse table of bytes over the 40-bit address space (00_scope.md R22). Every store is cleared
to 0 before use (13_memory.md R370, R382), so an unlisted byte reads 0. Words are little-endian.
Marks (notes/assumptions): DESIGN CHOICE 3.
-/
namespace Sys2Proof.Machine

/-- The memory, in its canonical form. -/
abbrev Memory := List Host.Cell

/-- Keys rising, and no byte listed that reads 0 anyway. -/
def Memory.wf (m : Memory) : Bool := Tbl.wf (α := Byte) m 0#8

def Memory.rd8 (m : Memory) (a : Nat) : Byte := Tbl.getD (α := Byte) m a 0#8
def Memory.wr8 (m : Memory) (a : Nat) (v : Byte) : Memory := Tbl.set (α := Byte) m 0#8 a v

/-- A little-endian word. -/
def Memory.rd32 (m : Memory) (a : Nat) : Word :=
  w32 ((Memory.rd8 m a).toNat + (Memory.rd8 m (a + 1)).toNat * 2 ^ 8 + (Memory.rd8 m (a + 2)).toNat * 2 ^ 16 +
    (Memory.rd8 m (a + 3)).toNat * 2 ^ 24)

def byteOf (n i : Nat) : Byte := BitVec.ofNat 8 (n >>> (8 * i))

/-- The bytes of a word, the lowest first. -/
def wordBytes (v : Word) : List Byte := (List.range 4).map (byteOf v.toNat)

def Memory.wr32 (m : Memory) (a : Nat) (v : Word) : Memory :=
  Memory.wr8 (Memory.wr8 (Memory.wr8 (Memory.wr8 m a (byteOf v.toNat 0)) (a + 1) (byteOf v.toNat 1))
    (a + 2) (byteOf v.toNat 2)) (a + 3) (byteOf v.toNat 3)

/-- `n` bytes from `a`. -/
def Memory.rdBytes (m : Memory) (a n : Nat) : List Byte := (List.range n).map (fun i => Memory.rd8 m (a + i))

/-- Bytes written from `a` upward. -/
def Memory.wrBytes (m : Memory) (a : Nat) (bs : List Byte) : Memory :=
  match bs with
  | [] => m
  | b :: rest => Memory.wrBytes (Memory.wr8 m a b) (a + 1) rest

/-- `n` words from `a`. -/
def Memory.rdWords (m : Memory) (a n : Nat) : List Word := (List.range n).map (fun i => Memory.rd32 m (a + 4 * i))

/-- Words written from `a` upward. -/
def Memory.wrWords (m : Memory) (a : Nat) (ws : List Word) : Memory :=
  match ws with
  | [] => m
  | w :: rest => Memory.wrWords (Memory.wr32 m a w) (a + 4) rest

/-- `n` bytes from `a` set to 0. -/
def Memory.clear (m : Memory) (a n : Nat) : Memory := Tbl.drop (α := Byte) m (fun k => decide (a ≤ k) && decide (k < a + n))

/-! ### The stores of the address map (R22) -/

def inSram (a : Nat) : Bool := decide (0x10000000 ≤ a) && decide (a < 0x10400000)
def inAudio (a : Nat) : Bool := decide (0x20000000 ≤ a) && decide (a < 0x22000000)
def inNodes (a : Nat) : Bool := decide (0x30000000 ≤ a) && decide (a < 0x31000000)
def inVirif (a : Nat) : Bool := decide (0x40000000 ≤ a) && decide (a < 0x41000000)
def inPeriph (a : Nat) : Bool := decide (0x50000000 ≤ a) && decide (a < 0x51000000)
def inDram (a : Nat) : Bool := decide (0x100000000 ≤ a) && decide (a < 0x300000000)

end Sys2Proof.Machine
end

