-- ==== Sys2Proof/Machine/RegMap.lean ====
section
/-!
DEFINITION. The register maps of the spec as data: every register (`R`), every named field (`F`), every event
bit (`Ev`, block and bit) and, per block, the rows the bus uses. Each register cites its map's rule.
-/
namespace Sys2Proof.Machine

namespace R

-- 01_architecture.md R41
def TKA_CTRL : Reg := ⟨0, 0x300, 0x0, 0x0, 0x1, 0⟩
def TKA_STATUS : Reg := ⟨0, 0x304, 0x0, 0x0, 0x0, 0⟩
def TKA_FIRST : Reg := ⟨0, 0x308, 0x0, 0x0, 0x0, 0⟩
def TKA_QSEL : Reg := ⟨0, 0x30C, 0x0, 0x0, 0x0, 0⟩
def TKA_QDEPTH : Reg := ⟨0, 0x310, 0x0, 0x0, 0x0, 0⟩
def TKA_QHELD : Reg := ⟨0, 0x314, 0x0, 0x0, 0x0, 0⟩
def TKA_QFLIGHT : Reg := ⟨0, 0x318, 0x0, 0x0, 0x0, 0⟩
def TKA_QFILL : Reg := ⟨0, 0x31C, 0x0, 0x0, 0x0, 0⟩
def DEP_IDX_LO : Reg := ⟨0, 0x320, 0x0, 0x0, 0x0, 0⟩
def DEP_IDX_HI : Reg := ⟨0, 0x324, 0x0, 0x0, 0x0, 0⟩
def LATE_COUNT : Reg := ⟨0, 0x328, 0x0, 0x0, 0x0, 0⟩
def LATE_FIRST : Reg := ⟨0, 0x32C, 0x0, 0x0, 0x0, 0⟩
def TKA_FMAP : Reg := ⟨0, 0x340, 0x4, 0x0, 0x0, 0⟩
-- 02_gain_solver.md R75
def OBJ_SEL : Reg := ⟨4, 0x0, 0x0, 0x0, 0x0, 0⟩
def EVT_GSV : Reg := ⟨4, 0x4, 0x0, 0x0, 0x0, 0⟩
def EVT_EN_GSV : Reg := ⟨4, 0x8, 0x0, 0x0, 0x0, 0⟩
def STATUS_GSV : Reg := ⟨4, 0xC, 0x0, 0x0, 0x0, 0⟩
def GSV_CTRL : Reg := ⟨4, 0x10, 0x0, 0x0, 0x3, 0⟩
def GSV_DIST_REF : Reg := ⟨4, 0x14, 0x0, 0x0, 0x1388, 0⟩
def GSV_DIST_LAW : Reg := ⟨4, 0x18, 0x0, 0x0, 0x0, 0⟩
def GSV_SOUND : Reg := ⟨4, 0x1C, 0x0, 0x0, 0x53BD8, 0⟩
def GSV_EXTRAP : Reg := ⟨4, 0x20, 0x0, 0x0, 0x40, 0⟩
def GSV_SIDX_LO : Reg := ⟨4, 0x24, 0x0, 0x0, 0x0, 0⟩
def GSV_SIDX_HI : Reg := ⟨4, 0x28, 0x0, 0x0, 0x0, 0⟩
def GSV_WR_LAST : Reg := ⟨4, 0x2C, 0x0, 0x0, 0x0, 0⟩
def GSV_WR_PEAK : Reg := ⟨4, 0x30, 0x0, 0x0, 0x0, 0⟩
def GSV_CARRY_CNT : Reg := ⟨4, 0x34, 0x0, 0x0, 0x0, 0⟩
def GSV_SLATE_CNT : Reg := ⟨4, 0x38, 0x0, 0x0, 0x0, 0⟩
def GSV_SUPER_CNT : Reg := ⟨4, 0x3C, 0x0, 0x0, 0x0, 0⟩
def GSV_LATEUPD_CNT : Reg := ⟨4, 0x40, 0x0, 0x0, 0x0, 0⟩
def GSV_REJ_CNT : Reg := ⟨4, 0x44, 0x0, 0x0, 0x0, 0⟩
def GSV_REJ_INFO : Reg := ⟨4, 0x48, 0x0, 0x0, 0x0, 0⟩
def GSV_ACLAMP_CNT : Reg := ⟨4, 0x4C, 0x0, 0x0, 0x0, 0⟩
def GSV_RING_BASE_LO : Reg := ⟨4, 0x50, 0x0, 0x0, 0x0, 0⟩
def GSV_RING_BASE_HI : Reg := ⟨4, 0x54, 0x0, 0x0, 0x0, 0⟩
def GSV_RING_CTRL : Reg := ⟨4, 0x58, 0x0, 0x0, 0x0, 0⟩
def GSV_RING_HEAD : Reg := ⟨4, 0x5C, 0x0, 0x0, 0x0, 0⟩
def GSV_RING_TAIL : Reg := ⟨4, 0x60, 0x0, 0x0, 0x0, 0⟩
def GSV_LAYOUT_INFO : Reg := ⟨4, 0x64, 0x0, 0x0, 0x0, 0⟩
def GSV_OBJ_INFO : Reg := ⟨4, 0x68, 0x0, 0x0, 0x0, 0⟩
def GSV_CNT_CLR : Reg := ⟨4, 0x6C, 0x0, 0x0, 0x0, 0⟩
def GSV_LAYOUT_TRI : Reg := ⟨4, 0x70, 0x0, 0x0, 0x0, 0⟩
def OBJ_STATE : Reg := ⟨4, 0x100, 0x0, 0x0, 0xC0, 0⟩
def OBJ_POS_X : Reg := ⟨4, 0x104, 0x0, 0x0, 0x0, 0⟩
def OBJ_POS_Y : Reg := ⟨4, 0x108, 0x0, 0x0, 0x0, 0⟩
def OBJ_POS_Z : Reg := ⟨4, 0x10C, 0x0, 0x0, 0x0, 0⟩
def OBJ_TRI : Reg := ⟨4, 0x110, 0x0, 0x0, 0x1000, 0⟩
def OBJ_DROP : Reg := ⟨4, 0x114, 0x0, 0x0, 0x0, 0⟩
def OBJ_CTRL : Reg := ⟨4, 0x118, 0x0, 0x0, 0x0, 0⟩
def OBJ_INPUT : Reg := ⟨4, 0x11C, 0x0, 0x0, 0x0, 0⟩
def OBJ_UPD : Reg := ⟨4, 0x120, 0x4, 0x0, 0x0, 0⟩
-- 03_crosspoint.md R107
def CRM_ISEL : Reg := ⟨3, 0x0, 0x0, 0x0, 0x0, 0⟩
def EVT_CRM : Reg := ⟨3, 0x4, 0x0, 0x0, 0x0, 0⟩
def EVT_EN_CRM : Reg := ⟨3, 0x8, 0x0, 0x0, 0x0, 0⟩
def STATUS_CRM : Reg := ⟨3, 0xC, 0x0, 0x0, 0x0, 0⟩
def CRM_OSEL : Reg := ⟨3, 0x10, 0x0, 0x0, 0x0, 0⟩
def CRM_CTRL : Reg := ⟨3, 0x14, 0x0, 0x0, 0x0, 0⟩
def CRM_DIM : Reg := ⟨3, 0x18, 0x0, 0x0, 0x0, 0⟩
def CRM_SWAP : Reg := ⟨3, 0x1C, 0x0, 0x0, 0x0, 0⟩
def CRM_SWAP_AT_LO : Reg := ⟨3, 0x20, 0x0, 0x0, 0x0, 0⟩
def CRM_SWAP_AT_HI : Reg := ⟨3, 0x24, 0x0, 0x0, 0x0, 0⟩
def CRM_SWAP_QINFO : Reg := ⟨3, 0x28, 0x0, 0x0, 0x0, 0⟩
def CRM_SWAP_END : Reg := ⟨3, 0x2C, 0x0, 0x0, 0x0, 0⟩
def CRM_SWAP_CNT : Reg := ⟨3, 0x30, 0x0, 0x0, 0x0, 0⟩
def CRM_SWAP_REPL_CNT : Reg := ⟨3, 0x34, 0x0, 0x0, 0x0, 0⟩
def CRM_SWAP_NOP_CNT : Reg := ⟨3, 0x38, 0x0, 0x0, 0x0, 0⟩
def CRM_SWAP_LATE_CNT : Reg := ⟨3, 0x3C, 0x0, 0x0, 0x0, 0⟩
def CRM_ACT_LAST : Reg := ⟨3, 0x40, 0x0, 0x0, 0x0, 0⟩
def CRM_XF_LAST : Reg := ⟨3, 0x44, 0x0, 0x0, 0x0, 0⟩
def CRM_CYC_LAST : Reg := ⟨3, 0x48, 0x0, 0x0, 0x0, 0⟩
def CRM_CYC_PEAK : Reg := ⟨3, 0x4C, 0x0, 0x0, 0x0, 0⟩
def CRM_GAINLIM_CNT : Reg := ⟨3, 0x50, 0x0, 0x0, 0x0, 0⟩
def CRM_ECC_CNT : Reg := ⟨3, 0x54, 0x0, 0x0, 0x0, 0⟩
def CRM_ECC_NODE : Reg := ⟨3, 0x58, 0x0, 0x0, 0x0, 0⟩
def CRM_BLK_ADDR_LO : Reg := ⟨3, 0x5C, 0x0, 0x0, 0x0, 0⟩
def CRM_BLK_ADDR_HI : Reg := ⟨3, 0x60, 0x0, 0x0, 0x0, 0⟩
def CRM_BLK_COUNT : Reg := ⟨3, 0x64, 0x0, 0x0, 0x0, 0⟩
def CRM_BLK_CTRL : Reg := ⟨3, 0x68, 0x0, 0x0, 0x0, 0⟩
def CRM_BLK_DONE : Reg := ⟨3, 0x6C, 0x0, 0x0, 0x0, 0⟩
def CRM_BLK_SKIP : Reg := ⟨3, 0x70, 0x0, 0x0, 0x0, 0⟩
def CRM_CNT_CLR : Reg := ⟨3, 0x74, 0x0, 0x0, 0x0, 0⟩
def CRM_CLIP : Reg := ⟨3, 0x80, 0x4, 0x0, 0x0, 0⟩
def NODE_A_GAIN : Reg := ⟨3, 0x100, 0x0, 0x0, 0x0, 0⟩
def NODE_A_DLY : Reg := ⟨3, 0x104, 0x0, 0x0, 0x0, 0⟩
def NODE_B_GAIN : Reg := ⟨3, 0x108, 0x0, 0x0, 0x0, 0⟩
def NODE_B_DLY : Reg := ⟨3, 0x10C, 0x0, 0x0, 0x0, 0⟩
def NODE_LIVE_GAIN : Reg := ⟨3, 0x110, 0x0, 0x0, 0x0, 0⟩
def NODE_LIVE_DLY : Reg := ⟨3, 0x114, 0x0, 0x0, 0x0, 0⟩
def INPUT_INFO : Reg := ⟨3, 0x118, 0x0, 0x0, 0x0, 0⟩
def INPUT_RAMP : Reg := ⟨3, 0x11C, 0x0, 0x0, 0x0, 0⟩
def INPUT_ACTIVE : Reg := ⟨3, 0x120, 0x0, 0x0, 0x0, 0⟩
def FEED_CLIPCNT : Reg := ⟨3, 0x124, 0x0, 0x0, 0x0, 0⟩
def FEED_PEAK : Reg := ⟨3, 0x128, 0x0, 0x0, 0x0, 0⟩
def FEED_ACTIVE : Reg := ⟨3, 0x12C, 0x0, 0x0, 0x0, 0⟩
def NODE_WDLY : Reg := ⟨3, 0x130, 0x0, 0x0, 0x0, 0⟩
def NODE_WR : Reg := ⟨3, 0x134, 0x0, 0x0, 0x0, 0⟩
-- 04_correction.md R140
def FEED_SEL : Reg := ⟨5, 0x0, 0x0, 0x0, 0x0, 0⟩
def EVT_CCE : Reg := ⟨5, 0x4, 0x0, 0x0, 0x0, 0⟩
def EVT_EN_CCE : Reg := ⟨5, 0x8, 0x0, 0x0, 0x0, 0⟩
def STATUS_CCE : Reg := ⟨5, 0xC, 0x0, 0x0, 0x0, 0⟩
def CCE_DIM : Reg := ⟨5, 0x10, 0x0, 0x0, 0x0, 0⟩
def CCE_TAPS : Reg := ⟨5, 0x14, 0x0, 0x0, 0x0, 0⟩
def CCE_TAPLIM : Reg := ⟨5, 0x18, 0x0, 0x0, 0x0, 0⟩
def CCE_GMUTE : Reg := ⟨5, 0x1C, 0x0, 0x0, 0x2, 0⟩
def CCE_SWAP : Reg := ⟨5, 0x20, 0x0, 0x0, 0x0, 0⟩
def CCE_SWAP_GRP : Reg := ⟨5, 0x24, 0x0, 0x0, 0x0, 0⟩
def CCE_SWAP_AT_LO : Reg := ⟨5, 0x28, 0x0, 0x0, 0x0, 0⟩
def CCE_SWAP_AT_HI : Reg := ⟨5, 0x2C, 0x0, 0x0, 0x0, 0⟩
def CCE_SWAP_CNT : Reg := ⟨5, 0x30, 0x0, 0x0, 0x0, 0⟩
def CCE_SWAP_REPL_CNT : Reg := ⟨5, 0x34, 0x0, 0x0, 0x0, 0⟩
def CCE_SWAP_NOP_CNT : Reg := ⟨5, 0x38, 0x0, 0x0, 0x0, 0⟩
def CCE_SWAP_LATE_CNT : Reg := ⟨5, 0x3C, 0x0, 0x0, 0x0, 0⟩
def CCE_CYC_LAST : Reg := ⟨5, 0x40, 0x0, 0x0, 0x0, 0⟩
def CCE_CYC_PEAK : Reg := ⟨5, 0x44, 0x0, 0x0, 0x0, 0⟩
def CCE_DRAM_LAST : Reg := ⟨5, 0x48, 0x0, 0x0, 0x0, 0⟩
def CCE_BFP_UFL_CNT : Reg := ⟨5, 0x4C, 0x0, 0x0, 0x0, 0⟩
def CCE_TAILWAIT_CNT : Reg := ⟨5, 0x50, 0x0, 0x0, 0x0, 0⟩
def CCE_DLYLIM_CNT : Reg := ⟨5, 0x54, 0x0, 0x0, 0x0, 0⟩
def CCE_ECC_CNT : Reg := ⟨5, 0x58, 0x0, 0x0, 0x0, 0⟩
def CCE_ECC_FEED : Reg := ⟨5, 0x5C, 0x0, 0x0, 0x0, 0⟩
def CCE_FLD_ADDR_LO : Reg := ⟨5, 0x60, 0x0, 0x0, 0x0, 0⟩
def CCE_FLD_ADDR_HI : Reg := ⟨5, 0x64, 0x0, 0x0, 0x0, 0⟩
def CCE_FLD_COUNT : Reg := ⟨5, 0x68, 0x0, 0x0, 0x0, 0⟩
def CCE_FLD_CTRL : Reg := ⟨5, 0x6C, 0x0, 0x0, 0x0, 0⟩
def CCE_FLD_DONE : Reg := ⟨5, 0x70, 0x0, 0x0, 0x0, 0⟩
def CCE_DITH_LO : Reg := ⟨5, 0x74, 0x0, 0x0, 0x0, 0⟩
def CCE_DITH_HI : Reg := ⟨5, 0x78, 0x0, 0x0, 0x0, 0⟩
def CCE_CNT_CLR : Reg := ⟨5, 0x7C, 0x0, 0x0, 0x0, 0⟩
def CCE_CLIP : Reg := ⟨5, 0x80, 0x4, 0x0, 0x0, 0⟩
def FC_INFO : Reg := ⟨5, 0x100, 0x0, 0x0, 0x0, 0⟩
def FC_LAYOUT : Reg := ⟨5, 0x104, 0x0, 0x0, 0x0, 0⟩
def FC_DLYCAP : Reg := ⟨5, 0x108, 0x0, 0x0, 0x0, 0⟩
def FC_DEST : Reg := ⟨5, 0x10C, 0x4, 0x0, 0x0, 0⟩
def FC_TRIM : Reg := ⟨5, 0x11C, 0x0, 0x0, 0x0, 0⟩
def FC_DLY : Reg := ⟨5, 0x120, 0x0, 0x0, 0x0, 0⟩
def FC_SOS_SEL : Reg := ⟨5, 0x124, 0x0, 0x0, 0x0, 0⟩
def FC_SOS_COEF : Reg := ⟨5, 0x128, 0x0, 0x0, 0x0, 0⟩
def FC_SOS_BYP : Reg := ⟨5, 0x12C, 0x0, 0x0, 0xFFFF, 0⟩
def FC_LIM : Reg := ⟨5, 0x130, 0x0, 0x0, 0x0, 0⟩
def FC_LIM_TIME : Reg := ⟨5, 0x134, 0x0, 0x0, 0x640032, 0⟩
def FC_LIM_GR : Reg := ⟨5, 0x138, 0x0, 0x0, 0x0, 0⟩
def FC_MUTE : Reg := ⟨5, 0x13C, 0x0, 0x0, 0x2, 0⟩
def FC_SWAP : Reg := ⟨5, 0x140, 0x0, 0x0, 0x0, 0⟩
def FC_SWAP_STAT : Reg := ⟨5, 0x144, 0x0, 0x0, 0x0, 0⟩
def FC_STATE : Reg := ⟨5, 0x148, 0x0, 0x0, 0x0, 0⟩
def FC_CLIPCNT : Reg := ⟨5, 0x14C, 0x0, 0x0, 0x0, 0⟩
def FC_PEAK : Reg := ⟨5, 0x150, 0x0, 0x0, 0x0, 0⟩
-- 05_virif_engines.md R166
def ENG_ID : Reg := ⟨64, 0x0, 0x0, 0x0, 0x0, 0⟩
def MODE : Reg := ⟨64, 0x4, 0x0, 0x0, 0x1, 0⟩
def FLAGS : Reg := ⟨64, 0x8, 0x0, 0x0, 0x0, 0⟩
def ITEM : Reg := ⟨64, 0xC, 0x0, 0x0, 0x0, 0⟩
def ARG0 : Reg := ⟨64, 0x10, 0x0, 0x0, 0x0, 0⟩
def ARG1 : Reg := ⟨64, 0x14, 0x0, 0x0, 0x0, 0⟩
def BLK_LO : Reg := ⟨64, 0x18, 0x0, 0x0, 0x0, 0⟩
def BLK_HI : Reg := ⟨64, 0x1C, 0x0, 0x0, 0x0, 0⟩
def CYCLE : Reg := ⟨64, 0x20, 0x0, 0x0, 0x0, 0⟩
def LOOPST : Reg := ⟨64, 0x24, 0x0, 0x0, 0x0, 0⟩
def ENG_STATUS : Reg := ⟨64, 0x28, 0x0, 0x0, 0x0, 0⟩
def ENG_STICKY : Reg := ⟨64, 0x2C, 0x0, 0x0, 0x0, 0⟩
def ENG_FAULT : Reg := ⟨64, 0x30, 0x0, 0x0, 0x0, 0⟩
def ENG_FAULT_PC : Reg := ⟨64, 0x34, 0x0, 0x0, 0x0, 0⟩
def ENG_RUNS : Reg := ⟨64, 0x38, 0x0, 0x0, 0x0, 0⟩
def ENG_CNT_CLR : Reg := ⟨64, 0x3C, 0x0, 0x0, 0x0, 0⟩
def XLOC : Reg := ⟨64, 0x40, 0x10, 0x0, 0x0, 0⟩
def XEXT_LO : Reg := ⟨64, 0x44, 0x10, 0x0, 0x0, 0⟩
def XEXT_HI : Reg := ⟨64, 0x48, 0x10, 0x0, 0x0, 0⟩
def XCTL : Reg := ⟨64, 0x4C, 0x10, 0x0, 0x0, 0⟩
-- 06_signal_box.md R205
def ITEM_SEL : Reg := ⟨2, 0x0, 0x0, 0x0, 0x0, 0⟩
def EVT_SB : Reg := ⟨2, 0x4, 0x0, 0x0, 0x0, 0⟩
def EVT_EN_SB : Reg := ⟨2, 0x8, 0x0, 0x0, 0x0, 0⟩
def STATUS_SB : Reg := ⟨2, 0xC, 0x0, 0x0, 0x0, 0⟩
def SB_GINFO : Reg := ⟨2, 0x10, 0x0, 0x0, 0x0, 0⟩
def SB_GSWAP : Reg := ⟨2, 0x14, 0x0, 0x0, 0x0, 0⟩
def SB_GSWAP_AT_LO : Reg := ⟨2, 0x18, 0x0, 0x0, 0x0, 0⟩
def SB_GSWAP_AT_HI : Reg := ⟨2, 0x1C, 0x0, 0x0, 0x0, 0⟩
def SB_GLD_ADDR_LO : Reg := ⟨2, 0x20, 0x0, 0x0, 0x0, 0⟩
def SB_GLD_ADDR_HI : Reg := ⟨2, 0x24, 0x0, 0x0, 0x0, 0⟩
def SB_GLD_CTRL : Reg := ⟨2, 0x28, 0x0, 0x0, 0x0, 0⟩
def SB_ENG : Reg := ⟨2, 0x2C, 0x0, 0x0, 0x0, 0⟩
def SB_TT_USE : Reg := ⟨2, 0x30, 0x0, 0x0, 0x0, 0⟩
def SB_INST_LAST : Reg := ⟨2, 0x34, 0x0, 0x0, 0x0, 0⟩
def SB_INST_PEAK : Reg := ⟨2, 0x38, 0x0, 0x0, 0x0, 0⟩
def SB_DISP_CNT : Reg := ⟨2, 0x3C, 0x0, 0x0, 0x0, 0⟩
def SB_PREEMPT_CNT : Reg := ⟨2, 0x40, 0x0, 0x0, 0x0, 0⟩
def SB_DLMISS_CNT : Reg := ⟨2, 0x44, 0x0, 0x0, 0x0, 0⟩
def SB_ABORT_CNT : Reg := ⟨2, 0x48, 0x0, 0x0, 0x0, 0⟩
def SB_DROP_CNT : Reg := ⟨2, 0x4C, 0x0, 0x0, 0x0, 0⟩
def SB_OVRUN_CNT : Reg := ⟨2, 0x50, 0x0, 0x0, 0x0, 0⟩
def SB_GSWAP_LATE : Reg := ⟨2, 0x54, 0x0, 0x0, 0x0, 0⟩
def SB_LAST_FAULT : Reg := ⟨2, 0x58, 0x0, 0x0, 0x0, 0⟩
def SB_DAUD_STATUS : Reg := ⟨2, 0x5C, 0x0, 0x0, 0x0, 0⟩
def SB_DAUD_FIRST : Reg := ⟨2, 0x60, 0x0, 0x0, 0x0, 0⟩
def SB_CNT_CLR : Reg := ⟨2, 0x64, 0x0, 0x0, 0x0, 0⟩
def SB_TRC_CTRL : Reg := ⟨2, 0x68, 0x0, 0x0, 0xFFFF0001, 0⟩
def SB_TRC_WPTR : Reg := ⟨2, 0x6C, 0x0, 0x0, 0x0, 0⟩
def SB_TRC_LOST : Reg := ⟨2, 0x70, 0x0, 0x0, 0x0, 0⟩
def SB_TRC_SEL : Reg := ⟨2, 0x74, 0x0, 0x0, 0x0, 0⟩
def SB_TRC_W : Reg := ⟨2, 0x78, 0x4, 0x0, 0x0, 0⟩
def ITEM_DESC : Reg := ⟨2, 0x100, 0x4, 0x0, 0x0, 0⟩
def ITEM_CYC : Reg := ⟨2, 0x120, 0x0, 0x0, 0x0, 0⟩
def ITEM_STATE : Reg := ⟨2, 0x124, 0x0, 0x0, 0x0, 0⟩
-- 07_tdm_ports.md R233
def PORT_SEL : Reg := ⟨6, 0x0, 0x0, 0x0, 0x0, 0⟩
def EVT_TIO : Reg := ⟨6, 0x4, 0x0, 0x0, 0x0, 0⟩
def EVT_EN_TIO : Reg := ⟨6, 0x8, 0x0, 0x0, 0x0, 0⟩
def STATUS_TIO : Reg := ⟨6, 0xC, 0x0, 0x0, 0x0, 0⟩
def TDM_GCTRL : Reg := ⟨6, 0x10, 0x0, 0x0, 0x0, 0⟩
def TDM_GAT_LO : Reg := ⟨6, 0x14, 0x0, 0x0, 0x0, 0⟩
def TDM_GAT_HI : Reg := ⟨6, 0x18, 0x0, 0x0, 0x0, 0⟩
def TIO_CNT_CLR : Reg := ⟨6, 0x1C, 0x0, 0x0, 0x0, 0⟩
def PT_CFG : Reg := ⟨6, 0x100, 0x0, 0x0, 0x80000, 0⟩
def PT_FMT : Reg := ⟨6, 0x104, 0x0, 0x0, 0x0, 0⟩
def PT_DIV : Reg := ⟨6, 0x108, 0x0, 0x0, 0x1000004, 0⟩
def PT_DIVF : Reg := ⟨6, 0x10C, 0x0, 0x0, 0x1, 0⟩
def PT_SIL : Reg := ⟨6, 0x110, 0x0, 0x0, 0x20, 0⟩
def PT_STATUS : Reg := ⟨6, 0x114, 0x0, 0x0, 0x0, 0⟩
def PT_EVT : Reg := ⟨6, 0x118, 0x0, 0x0, 0x0, 0⟩
def PT_EVT_EN : Reg := ⟨6, 0x11C, 0x0, 0x0, 0x0, 0⟩
def PT_PERIOD : Reg := ⟨6, 0x120, 0x0, 0x0, 0x0, 0⟩
def PT_PHASE : Reg := ⟨6, 0x124, 0x0, 0x0, 0x0, 0⟩
def PT_LOSS_CNT : Reg := ⟨6, 0x128, 0x0, 0x0, 0x0, 0⟩
def PT_OVR_CNT : Reg := ⟨6, 0x12C, 0x0, 0x0, 0x0, 0⟩
def PT_UND_CNT : Reg := ⟨6, 0x130, 0x0, 0x0, 0x0, 0⟩
def PT_DROP_CNT : Reg := ⟨6, 0x134, 0x0, 0x0, 0x0, 0⟩
def AR_CFG : Reg := ⟨6, 0x200, 0x40, 0x0, 0x0, 0⟩
def AR_STATUS : Reg := ⟨6, 0x204, 0x40, 0x0, 0x0, 0⟩
def AR_EVT : Reg := ⟨6, 0x208, 0x40, 0x0, 0x0, 0⟩
def AR_EVT_EN : Reg := ⟨6, 0x20C, 0x40, 0x0, 0x0, 0⟩
def AR_ERR_CNT : Reg := ⟨6, 0x210, 0x40, 0x0, 0x0, 0⟩
def AR_RATE : Reg := ⟨6, 0x214, 0x40, 0x0, 0x0, 0⟩
def AR_CS : Reg := ⟨6, 0x218, 0x40, 0x4, 0x0, 0⟩
def AT_CFG : Reg := ⟨6, 0x280, 0x40, 0x0, 0x0, 0⟩
def AT_STATUS : Reg := ⟨6, 0x284, 0x40, 0x0, 0x0, 0⟩
def AT_CS : Reg := ⟨6, 0x288, 0x40, 0x4, 0x0, 0⟩
def SRC_CFG : Reg := ⟨6, 0x400, 0x10, 0x0, 0x0, 0⟩
def SRC_STAT : Reg := ⟨6, 0x404, 0x10, 0x0, 0x0, 0⟩
def SRC_RATIO : Reg := ⟨6, 0x408, 0x10, 0x0, 0x0, 0⟩
-- 08_network.md R260
def STREAM_SEL : Reg := ⟨7, 0x0, 0x0, 0x0, 0x0, 0⟩
def EVT_NET : Reg := ⟨7, 0x4, 0x0, 0x0, 0x0, 0⟩
def EVT_EN_NET : Reg := ⟨7, 0x8, 0x0, 0x0, 0x0, 0⟩
def STATUS_NET : Reg := ⟨7, 0xC, 0x0, 0x0, 0x0, 0⟩
def NET_SMAC_LO : Reg := ⟨7, 0x10, 0x0, 0x0, 0x0, 0⟩
def NET_SMAC_HI : Reg := ⟨7, 0x14, 0x0, 0x0, 0x0, 0⟩
def NB_CTRL : Reg := ⟨7, 0x18, 0x0, 0x0, 0x0, 0⟩
def NB_BASE : Reg := ⟨7, 0x1C, 0x0, 0x0, 0x0, 0⟩
def NB_ALLOC : Reg := ⟨7, 0x20, 0x0, 0x0, 0x0, 0⟩
def NB_RELEASE : Reg := ⟨7, 0x24, 0x0, 0x0, 0x0, 0⟩
def NB_AUD_STATUS : Reg := ⟨7, 0x28, 0x0, 0x0, 0x0, 0⟩
def NB_CNT_FREE : Reg := ⟨7, 0x2C, 0x0, 0x0, 0x0, 0⟩
def NB_CNT_HW : Reg := ⟨7, 0x30, 0x0, 0x0, 0x0, 0⟩
def NB_CNT_SW : Reg := ⟨7, 0x34, 0x0, 0x0, 0x0, 0⟩
def MD_CFG : Reg := ⟨7, 0x38, 0x0, 0x0, 0x0, 0⟩
def MD_PKT : Reg := ⟨7, 0x3C, 0x0, 0x0, 0x0, 0⟩
def MD_BAD : Reg := ⟨7, 0x40, 0x0, 0x0, 0x0, 0⟩
def MD_DUP : Reg := ⟨7, 0x44, 0x0, 0x0, 0x0, 0⟩
def MD_GAP : Reg := ⟨7, 0x48, 0x0, 0x0, 0x0, 0⟩
def MD_DROP : Reg := ⟨7, 0x4C, 0x0, 0x0, 0x0, 0⟩
def NET_CNT_CLR : Reg := ⟨7, 0x50, 0x0, 0x0, 0x0, 0⟩
def ST_FMAP : Reg := ⟨7, 0x80, 0x4, 0x0, 0x0, 0⟩
def ST_CFG : Reg := ⟨7, 0x100, 0x0, 0x0, 0x0, 0⟩
def ST_ADDR : Reg := ⟨7, 0x104, 0x0, 0x0, 0x0, 0⟩
def ST_UDP : Reg := ⟨7, 0x108, 0x0, 0x0, 0x0, 0⟩
def ST_VLAN : Reg := ⟨7, 0x10C, 0x0, 0x0, 0x0, 0⟩
def ST_RTP : Reg := ⟨7, 0x110, 0x0, 0x0, 0x0, 0⟩
def ST_SSRC : Reg := ⟨7, 0x114, 0x0, 0x0, 0x0, 0⟩
def ST_LOFS : Reg := ⟨7, 0x118, 0x0, 0x0, 0x0, 0⟩
def ST_STATUS : Reg := ⟨7, 0x11C, 0x0, 0x0, 0x0, 0⟩
def ST_FLAGS : Reg := ⟨7, 0x120, 0x0, 0x0, 0x0, 0⟩
def ST_PKT : Reg := ⟨7, 0x124, 0x0, 0x0, 0x0, 0⟩
def ST_MISS : Reg := ⟨7, 0x128, 0x0, 0x0, 0x0, 0⟩
def ST_LATE : Reg := ⟨7, 0x12C, 0x0, 0x0, 0x0, 0⟩
def ST_DUP : Reg := ⟨7, 0x130, 0x0, 0x0, 0x0, 0⟩
def ST_CHAN : Reg := ⟨7, 0x134, 0x0, 0x0, 0x0, 0⟩
def ST_SEQ : Reg := ⟨7, 0x138, 0x0, 0x0, 0x0, 0⟩
def NP_CFG : Reg := ⟨7, 0x200, 0x100, 0x0, 0x0, 0⟩
def NP_STATUS : Reg := ⟨7, 0x204, 0x100, 0x0, 0x0, 0⟩
def NP_EVT : Reg := ⟨7, 0x208, 0x100, 0x0, 0x0, 0⟩
def NP_EVT_EN : Reg := ⟨7, 0x20C, 0x100, 0x0, 0x0, 0⟩
def NP_MAC_LO : Reg := ⟨7, 0x210, 0x100, 0x0, 0x0, 0⟩
def NP_MAC_HI : Reg := ⟨7, 0x214, 0x100, 0x0, 0x0, 0⟩
def NP_TXPOST : Reg := ⟨7, 0x218, 0x100, 0x0, 0x0, 0⟩
def NP_TXDONE : Reg := ⟨7, 0x21C, 0x100, 0x0, 0x0, 0⟩
def NP_RXRDY : Reg := ⟨7, 0x220, 0x100, 0x0, 0x0, 0⟩
def NP_CNT_SEL : Reg := ⟨7, 0x224, 0x100, 0x0, 0x0, 0⟩
def NP_CNT : Reg := ⟨7, 0x228, 0x100, 0x0, 0x0, 0⟩
def NP_CNT_HALF0 : Reg := ⟨7, 0x22C, 0x100, 0x0, 0x0, 0⟩
def NP_CNT_HALF1 : Reg := ⟨7, 0x230, 0x100, 0x0, 0x0, 0⟩
def NP_TSQ_OVF_RX : Reg := ⟨7, 0x234, 0x100, 0x0, 0x0, 0⟩
def NP_TSQ_OVF_TX : Reg := ⟨7, 0x238, 0x100, 0x0, 0x0, 0⟩
def NP_TSQR_W : Reg := ⟨7, 0x240, 0x100, 0x4, 0x0, 0⟩
def NP_TSQT_W : Reg := ⟨7, 0x250, 0x100, 0x4, 0x0, 0⟩
def NP_GCL_CTRL : Reg := ⟨7, 0x260, 0x100, 0x0, 0x0, 0⟩
def NP_GCL_CYCLE : Reg := ⟨7, 0x264, 0x100, 0x0, 0x0, 0⟩
def NP_GCL_BASE_NS : Reg := ⟨7, 0x268, 0x100, 0x0, 0x0, 0⟩
def NP_GCL_BASE_SEC_LO : Reg := ⟨7, 0x26C, 0x100, 0x0, 0x0, 0⟩
def NP_GCL_BASE_SEC_HI : Reg := ⟨7, 0x270, 0x100, 0x0, 0x0, 0⟩
def NP_GCL_SEL : Reg := ⟨7, 0x274, 0x100, 0x0, 0x0, 0⟩
def NP_GCL_ENT : Reg := ⟨7, 0x278, 0x100, 0x0, 0x0, 0⟩
def NP_CBS : Reg := ⟨7, 0x280, 0x100, 0x4, 0x0, 0⟩
-- 09_time_references.md R290
def TI_SEL : Reg := ⟨8, 0x0, 0x0, 0x0, 0x0, 0⟩
def EVT_TU : Reg := ⟨8, 0x4, 0x0, 0x0, 0x0, 0⟩
def EVT_EN_TU : Reg := ⟨8, 0x8, 0x0, 0x0, 0x0, 0⟩
def STATUS_TU : Reg := ⟨8, 0xC, 0x0, 0x0, 0x0, 0⟩
def TU_CNT_CLR : Reg := ⟨8, 0x10, 0x0, 0x0, 0x0, 0⟩
def TI_CTRL : Reg := ⟨8, 0x100, 0x0, 0x0, 0x0, 0⟩
def TI_STATUS : Reg := ⟨8, 0x104, 0x0, 0x0, 0x0, 0⟩
def TI_OFSP : Reg := ⟨8, 0x108, 0x0, 0x0, 0x0, 0⟩
def TI_OFSS : Reg := ⟨8, 0x10C, 0x0, 0x0, 0x0, 0⟩
def TI_TAG : Reg := ⟨8, 0x110, 0x0, 0x0, 0x0, 0⟩
def TI_KP : Reg := ⟨8, 0x114, 0x0, 0x0, 0x0, 0⟩
def TI_KI : Reg := ⟨8, 0x118, 0x0, 0x0, 0x0, 0⟩
def TI_FLIM : Reg := ⟨8, 0x11C, 0x0, 0x0, 0x7A120, 0⟩
def TI_STEP_THR : Reg := ⟨8, 0x120, 0x0, 0x0, 0x2710, 0⟩
def TI_LOCK_THR : Reg := ⟨8, 0x124, 0x0, 0x0, 0x64, 0⟩
def TI_TIMEOUT : Reg := ⟨8, 0x128, 0x0, 0x0, 0xBB8, 0⟩
def TI_SLEW : Reg := ⟨8, 0x12C, 0x0, 0x0, 0x3E8, 0⟩
def TI_FREQ_LO : Reg := ⟨8, 0x130, 0x0, 0x0, 0x0, 0⟩
def TI_FREQ_HI : Reg := ⟨8, 0x134, 0x0, 0x0, 0x0, 0⟩
def TI_BIAS : Reg := ⟨8, 0x138, 0x0, 0x0, 0x0, 0⟩
def TI_TNS : Reg := ⟨8, 0x13C, 0x0, 0x0, 0x0, 0⟩
def TI_TSEC_LO : Reg := ⟨8, 0x140, 0x0, 0x0, 0x0, 0⟩
def TI_TSEC_HI : Reg := ⟨8, 0x144, 0x0, 0x0, 0x0, 0⟩
def TI_STEP_CNT : Reg := ⟨8, 0x148, 0x0, 0x0, 0x0, 0⟩
def TI_SWITCH_CNT : Reg := ⟨8, 0x14C, 0x0, 0x0, 0x0, 0⟩
def TU_PCFG : Reg := ⟨8, 0x200, 0x20, 0x0, 0x0, 0⟩
def TU_ING : Reg := ⟨8, 0x204, 0x20, 0x0, 0x0, 0⟩
def TU_EGR : Reg := ⟨8, 0x208, 0x20, 0x0, 0x0, 0⟩
def TU_ASYM : Reg := ⟨8, 0x20C, 0x20, 0x0, 0x0, 0⟩
def MC_CFG : Reg := ⟨8, 0x300, 0x40, 0x0, 0x0, 0⟩
def MC_STATUS : Reg := ⟨8, 0x304, 0x40, 0x0, 0x0, 0⟩
def MC_CTRL : Reg := ⟨8, 0x308, 0x40, 0x0, 0x0, 0⟩
def MC_STEP_THR : Reg := ⟨8, 0x30C, 0x40, 0x0, 0x3E8, 0⟩
def MC_SLEW : Reg := ⟨8, 0x310, 0x40, 0x0, 0x3E8, 0⟩
def MC_BIAS_LO : Reg := ⟨8, 0x314, 0x40, 0x0, 0x0, 0⟩
def MC_BIAS_HI : Reg := ⟨8, 0x318, 0x40, 0x0, 0x0, 0⟩
def MC_PHERR : Reg := ⟨8, 0x31C, 0x40, 0x0, 0x0, 0⟩
def MC_REFUSE_CNT : Reg := ⟨8, 0x320, 0x40, 0x0, 0x0, 0⟩
def TP_CTRL : Reg := ⟨8, 0x400, 0x20, 0x0, 0x0, 0⟩
def TP_START_NS : Reg := ⟨8, 0x404, 0x20, 0x0, 0x0, 0⟩
def TP_START_SEC_LO : Reg := ⟨8, 0x408, 0x20, 0x0, 0x0, 0⟩
def TP_START_SEC_HI : Reg := ⟨8, 0x40C, 0x20, 0x0, 0x0, 0⟩
def TP_PERIOD : Reg := ⟨8, 0x410, 0x20, 0x0, 0x0, 0⟩
def TP_WIDTH : Reg := ⟨8, 0x414, 0x20, 0x0, 0x1, 0⟩
def TC_CFG : Reg := ⟨8, 0x600, 0x20, 0x0, 0x0, 0⟩
def TC_W0 : Reg := ⟨8, 0x604, 0x20, 0x0, 0x0, 0⟩
def TC_W1 : Reg := ⟨8, 0x608, 0x20, 0x0, 0x0, 0⟩
def TC_W2 : Reg := ⟨8, 0x60C, 0x20, 0x0, 0x0, 0⟩
def TC_W3 : Reg := ⟨8, 0x610, 0x20, 0x0, 0x0, 0⟩
def TC_OVF_CNT : Reg := ⟨8, 0x614, 0x20, 0x0, 0x0, 0⟩
-- 09_time_references.md R291
def RC_SEL : Reg := ⟨9, 0x0, 0x0, 0x0, 0x0, 0⟩
def EVT_RU : Reg := ⟨9, 0x4, 0x0, 0x0, 0x0, 0⟩
def EVT_EN_RU : Reg := ⟨9, 0x8, 0x0, 0x0, 0x0, 0⟩
def STATUS_RU : Reg := ⟨9, 0xC, 0x0, 0x0, 0x0, 0⟩
def RU_TDMSRC : Reg := ⟨9, 0x10, 0x0, 0x0, 0x0, 0⟩
def RU_HOLDOFF : Reg := ⟨9, 0x14, 0x0, 0x0, 0x1388, 0⟩
def RU_FWIN : Reg := ⟨9, 0x18, 0x0, 0x0, 0xC350, 0⟩
def RU_WCOUT : Reg := ⟨9, 0x1C, 0x0, 0x0, 0x0, 0⟩
def RU_CNT_CLR : Reg := ⟨9, 0x20, 0x0, 0x0, 0x0, 0⟩
def RC_CFG : Reg := ⟨9, 0x100, 0x0, 0x0, 0x322, 0⟩
def RC_STATUS : Reg := ⟨9, 0x104, 0x0, 0x0, 0x0, 0⟩
def RC_CMD : Reg := ⟨9, 0x108, 0x0, 0x0, 0x0, 0⟩
def RC_PHASE : Reg := ⟨9, 0x10C, 0x0, 0x0, 0x0, 0⟩
def RC_FOFS : Reg := ⟨9, 0x110, 0x0, 0x0, 0x0, 0⟩
def RC_SWITCH_CNT : Reg := ⟨9, 0x114, 0x0, 0x0, 0x0, 0⟩
def RC_CONF_PPB : Reg := ⟨9, 0x118, 0x0, 0x0, 0x64, 0⟩
def RI_CFG : Reg := ⟨9, 0x120, 0x4, 0x0, 0x0, 0⟩
def RI_STATUS : Reg := ⟨9, 0x200, 0x10, 0x0, 0xF, 0⟩
def RI_FREQ : Reg := ⟨9, 0x204, 0x10, 0x0, 0x0, 0⟩
def RI_DISQ_CNT : Reg := ⟨9, 0x208, 0x10, 0x0, 0x0, 0⟩
-- 10_analog_inputs.md R318
def AIN_SEL : Reg := ⟨10, 0x0, 0x0, 0x0, 0x0, 0⟩
def EVT_AI : Reg := ⟨10, 0x4, 0x0, 0x0, 0x0, 0⟩
def EVT_EN_AI : Reg := ⟨10, 0x8, 0x0, 0x0, 0x0, 0⟩
def STATUS_AI : Reg := ⟨10, 0xC, 0x0, 0x0, 0x8, 0⟩
def AI_SYNC : Reg := ⟨10, 0x10, 0x0, 0x0, 0x0, 0⟩
def AI_SYNC_AT_LO : Reg := ⟨10, 0x14, 0x0, 0x0, 0x0, 0⟩
def AI_SYNC_AT_HI : Reg := ⟨10, 0x18, 0x0, 0x0, 0x0, 0⟩
def MB_CTRL1 : Reg := ⟨10, 0x20, 0x0, 0x0, 0x0, 0⟩
def MB_CTRL2 : Reg := ⟨10, 0x24, 0x0, 0x0, 0x0, 0⟩
def MB_STATUS : Reg := ⟨10, 0x28, 0x0, 0x0, 0x0, 0⟩
def AI_CLIP : Reg := ⟨10, 0x2C, 0x0, 0x0, 0x0, 0⟩
def AI_OVR_CNT : Reg := ⟨10, 0x30, 0x0, 0x0, 0x0, 0⟩
def AI_CNT_CLR : Reg := ⟨10, 0x34, 0x0, 0x0, 0x0, 0⟩
def AI_CFG : Reg := ⟨10, 0x100, 0x0, 0x0, 0x0, 0⟩
def AI_STATUS : Reg := ⟨10, 0x104, 0x0, 0x0, 0x0, 0⟩
def AI_ZCTO : Reg := ⟨10, 0x108, 0x0, 0x0, 0x30, 0⟩
def AI_THR : Reg := ⟨10, 0x10C, 0x0, 0x0, 0xF600F580, 0⟩
def AI_THR_TIME : Reg := ⟨10, 0x110, 0x0, 0x0, 0x64, 0⟩
def AI_EVT : Reg := ⟨10, 0x114, 0x0, 0x0, 0x0, 0⟩
def AI_EVT_EN : Reg := ⟨10, 0x118, 0x0, 0x0, 0x0, 0⟩
def AI_PEAK : Reg := ⟨10, 0x11C, 0x0, 0x0, 0x0, 0⟩
def AI_CLIPCNT : Reg := ⟨10, 0x120, 0x0, 0x0, 0x0, 0⟩
-- 10_analog_inputs.md R319
def JD_CFG : Reg := ⟨11, 0x800, 0x0, 0x0, 0x20, 0⟩
def JD_STATUS : Reg := ⟨11, 0x804, 0x0, 0x0, 0x0, 0⟩
def JD_EVT : Reg := ⟨11, 0x808, 0x0, 0x0, 0x0, 0⟩
def JD_EVT_EN : Reg := ⟨11, 0x80C, 0x0, 0x0, 0x0, 0⟩
def JD_RES : Reg := ⟨11, 0x810, 0x4, 0x0, 0x3FFFFF, 0⟩
-- 11_analog_outputs.md R336
def AOUT_SEL : Reg := ⟨11, 0x0, 0x0, 0x0, 0x0, 0⟩
def EVT_AO : Reg := ⟨11, 0x4, 0x0, 0x0, 0x0, 0⟩
def EVT_EN_AO : Reg := ⟨11, 0x8, 0x0, 0x0, 0x0, 0⟩
def STATUS_AO : Reg := ⟨11, 0xC, 0x0, 0x0, 0xC, 0⟩
def AO_CNT_CLR : Reg := ⟨11, 0x10, 0x0, 0x0, 0x0, 0⟩
def AO_CLIP : Reg := ⟨11, 0x14, 0x0, 0x0, 0x0, 0⟩
def AO_UND_CNT : Reg := ⟨11, 0x18, 0x0, 0x0, 0x0, 0⟩
def EX_CFG : Reg := ⟨11, 0x40, 0x4, 0x0, 0x8000, 0⟩
def AO_CFG : Reg := ⟨11, 0x100, 0x0, 0x0, 0x0, 0⟩
def AO_STATUS : Reg := ⟨11, 0x104, 0x0, 0x0, 0x10, 0⟩
def AO_SLEW : Reg := ⟨11, 0x108, 0x0, 0x0, 0x40, 0⟩
def AO_SOS_SEL : Reg := ⟨11, 0x10C, 0x0, 0x0, 0x0, 0⟩
def AO_SOS_COEF : Reg := ⟨11, 0x110, 0x0, 0x0, 0x0, 0⟩
def AO_SOS_BYP : Reg := ⟨11, 0x114, 0x0, 0x0, 0xFF, 0⟩
def AO_SOS_CTRL : Reg := ⟨11, 0x118, 0x0, 0x0, 0x0, 0⟩
def AO_EVT : Reg := ⟨11, 0x11C, 0x0, 0x0, 0x0, 0⟩
def AO_EVT_EN : Reg := ⟨11, 0x120, 0x0, 0x0, 0x0, 0⟩
def AO_PEAK : Reg := ⟨11, 0x124, 0x0, 0x0, 0x0, 0⟩
def AO_CLIPCNT : Reg := ⟨11, 0x128, 0x0, 0x0, 0x0, 0⟩
-- 12_twin.md R366
def EVT_TWN : Reg := ⟨12, 0x4, 0x0, 0x0, 0x0, 0⟩
def EVT_EN_TWN : Reg := ⟨12, 0x8, 0x0, 0x0, 0x0, 0⟩
def STATUS_TWN : Reg := ⟨12, 0xC, 0x0, 0x0, 0x0, 0⟩
def TWN_CFG : Reg := ⟨12, 0x10, 0x0, 0x0, 0x8202000, 0⟩
def TWN_CTRL : Reg := ⟨12, 0x14, 0x0, 0x0, 0x0, 0⟩
def TWN_SW_AT_LO : Reg := ⟨12, 0x18, 0x0, 0x0, 0x0, 0⟩
def TWN_SW_AT_HI : Reg := ⟨12, 0x1C, 0x0, 0x0, 0x0, 0⟩
def TWN_FAULT : Reg := ⟨12, 0x20, 0x0, 0x0, 0x0, 0⟩
def TWN_TAKE_LO : Reg := ⟨12, 0x24, 0x0, 0x0, 0x0, 0⟩
def TWN_TAKE_HI : Reg := ⟨12, 0x28, 0x0, 0x0, 0x0, 0⟩
def TWN_LINK : Reg := ⟨12, 0x2C, 0x0, 0x0, 0x0, 0⟩
def TWN_MISM_CNT : Reg := ⟨12, 0x30, 0x0, 0x0, 0x0, 0⟩
def TWN_SKIP_CNT : Reg := ⟨12, 0x34, 0x0, 0x0, 0x0, 0⟩
def TWN_TAKE_CNT : Reg := ⟨12, 0x38, 0x0, 0x0, 0x0, 0⟩
def TWN_LINK_ERR_CNT : Reg := ⟨12, 0x3C, 0x0, 0x0, 0x0, 0⟩
def TWN_RESEND_CNT : Reg := ⟨12, 0x40, 0x0, 0x0, 0x0, 0⟩
def TWN_WR_IGN_CNT : Reg := ⟨12, 0x44, 0x0, 0x0, 0x0, 0⟩
def TWN_XFER_TOTAL : Reg := ⟨12, 0x48, 0x0, 0x0, 0x0, 0⟩
def TWN_XFER_DONE : Reg := ⟨12, 0x4C, 0x0, 0x0, 0x0, 0⟩
def TWN_VERIFY : Reg := ⟨12, 0x50, 0x0, 0x0, 0x0, 0⟩
def TWN_COPY_LAST : Reg := ⟨12, 0x54, 0x0, 0x0, 0x0, 0⟩
def TWN_COPY_PEAK : Reg := ⟨12, 0x58, 0x0, 0x0, 0x0, 0⟩
def TWN_CNT_CLR : Reg := ⟨12, 0x5C, 0x0, 0x0, 0x0, 0⟩
def TWN_HLTH : Reg := ⟨12, 0x60, 0x4, 0x0, 0x0, 0⟩
def TWN_PEER : Reg := ⟨12, 0x80, 0x4, 0x0, 0x0, 0⟩
-- 13_memory.md R388
def TGT_SEL : Reg := ⟨13, 0x0, 0x0, 0x0, 0x0, 0⟩
def EVT_MS : Reg := ⟨13, 0x4, 0x0, 0x0, 0x0, 0⟩
def EVT_EN_MS : Reg := ⟨13, 0x8, 0x0, 0x0, 0x0, 0⟩
def STATUS_MS : Reg := ⟨13, 0xC, 0x0, 0x0, 0x0, 0⟩
def MS_REMAP : Reg := ⟨13, 0x10, 0x0, 0x0, 0x0, 0⟩
def MS_LOCK_TO : Reg := ⟨13, 0x14, 0x0, 0x0, 0x100, 0⟩
def MS_AGE : Reg := ⟨13, 0x18, 0x0, 0x0, 0x400, 0⟩
def MS_SCRUB : Reg := ⟨13, 0x1C, 0x0, 0x0, 0x80000014, 0⟩
def MS_SCRUB_POS : Reg := ⟨13, 0x20, 0x0, 0x0, 0x0, 0⟩
def MS_SCHK : Reg := ⟨13, 0x24, 0x0, 0x0, 0x80000000, 0⟩
def MS_SCHK_FAIL_CNT : Reg := ⟨13, 0x28, 0x0, 0x0, 0x0, 0⟩
def MS_UE_CNT : Reg := ⟨13, 0x2C, 0x0, 0x0, 0x0, 0⟩
def MS_UE_INFO : Reg := ⟨13, 0x30, 0x0, 0x0, 0x0, 0⟩
def MS_CNT_CLR : Reg := ⟨13, 0x34, 0x0, 0x0, 0x0, 0⟩
def MS_CE_CNT : Reg := ⟨13, 0x40, 0x4, 0x0, 0x0, 0⟩
def TG_PRIO : Reg := ⟨13, 0x100, 0x0, 0x0, 0x5555555, 0⟩
def TG_LOCK : Reg := ⟨13, 0x104, 0x0, 0x0, 0x0, 0⟩
def TG_WAIT_PEAK : Reg := ⟨13, 0x108, 0x0, 0x0, 0x0, 0⟩
def TG_REQ_CNT : Reg := ⟨13, 0x10C, 0x0, 0x0, 0x0, 0⟩
def DR_CFG : Reg := ⟨13, 0x200, 0x0, 0x0, 0x0, 0⟩
def DR_STATUS : Reg := ⟨13, 0x204, 0x0, 0x0, 0x0, 0⟩
def DR_CTRL : Reg := ⟨13, 0x208, 0x0, 0x0, 0x0, 0⟩
def DR_SEG : Reg := ⟨13, 0x20C, 0x0, 0x0, 0x0, 0⟩
def DR_TRACK : Reg := ⟨13, 0x210, 0x0, 0x0, 0x10, 0⟩
def DR_RTP_CFG : Reg := ⟨13, 0x214, 0x4, 0x0, 0xC00040, 0⟩
def DR_RTP_STAT : Reg := ⟨13, 0x21C, 0x4, 0x0, 0x0, 0⟩
def DR_PANIC_CNT : Reg := ⟨13, 0x224, 0x4, 0x0, 0x0, 0⟩
def DR_INORDER_CNT : Reg := ⟨13, 0x22C, 0x0, 0x0, 0x0, 0⟩
def DR_CE_CNT : Reg := ⟨13, 0x230, 0x0, 0x0, 0x0, 0⟩
def DR_UE_CNT : Reg := ⟨13, 0x234, 0x0, 0x0, 0x0, 0⟩
def DR_UE_ADDR_LO : Reg := ⟨13, 0x238, 0x0, 0x0, 0x0, 0⟩
def DR_UE_ADDR_HI : Reg := ⟨13, 0x23C, 0x0, 0x0, 0x0, 0⟩
def DR_INVAL_CNT : Reg := ⟨13, 0x240, 0x0, 0x0, 0x0, 0⟩
def DR_BW_LAST : Reg := ⟨13, 0x244, 0x0, 0x0, 0x0, 0⟩
def DR_TRN : Reg := ⟨13, 0x250, 0x4, 0x0, 0x0, 0⟩
-- 14_host_mailboxes.md R408
def MB_SEL : Reg := ⟨14, 0x0, 0x0, 0x0, 0x0, 0⟩
def EVT_MBX : Reg := ⟨14, 0x4, 0x0, 0x0, 0x0, 0⟩
def EVT_EN_MBX : Reg := ⟨14, 0x8, 0x0, 0x0, 0x0, 0⟩
def STATUS_MBX : Reg := ⟨14, 0xC, 0x0, 0x0, 0x0, 0⟩
def MB_OCC_MAP : Reg := ⟨14, 0x10, 0x0, 0x0, 0x0, 0⟩
def MB_FULL_MAP : Reg := ⟨14, 0x14, 0x0, 0x0, 0x0, 0⟩
def MB_EMPTY_MAP : Reg := ⟨14, 0x18, 0x0, 0x0, 0x0, 0⟩
def MB_TO_MAP : Reg := ⟨14, 0x1C, 0x0, 0x0, 0x0, 0⟩
def MB_AUD_STATUS : Reg := ⟨14, 0x20, 0x0, 0x0, 0x0, 0⟩
def MB_AUD_FMAP : Reg := ⟨14, 0x24, 0x0, 0x0, 0x0, 0⟩
def LK_HELD : Reg := ⟨14, 0x28, 0x4, 0x0, 0x0, 0⟩
def LK_BRK : Reg := ⟨14, 0x30, 0x4, 0x0, 0x0, 0⟩
def MB_CNT_CLR : Reg := ⟨14, 0x38, 0x0, 0x0, 0x0, 0⟩
def MB_CFG : Reg := ⟨14, 0x100, 0x0, 0x0, 0x0, 0⟩
def MB_STAT : Reg := ⟨14, 0x104, 0x0, 0x0, 0x0, 0⟩
def MB_W : Reg := ⟨14, 0x108, 0x4, 0x0, 0x0, 0⟩
def MB_DB : Reg := ⟨14, 0x148, 0x0, 0x0, 0x0, 0⟩
def MB_ACK : Reg := ⟨14, 0x14C, 0x0, 0x0, 0x0, 0⟩
def MB_POSTED : Reg := ⟨14, 0x150, 0x0, 0x0, 0x0, 0⟩
def MB_READ : Reg := ⟨14, 0x154, 0x0, 0x0, 0x0, 0⟩
def MB_FLUSHED : Reg := ⟨14, 0x158, 0x0, 0x0, 0x0, 0⟩
def MB_REF_CNT : Reg := ⟨14, 0x15C, 0x0, 0x0, 0x0, 0⟩
def LOCK : Reg := ⟨14, 0x400, 0x4, 0x0, 0x0, 0⟩
-- 14_host_mailboxes.md R409
def EVT_HIF : Reg := ⟨15, 0x4, 0x0, 0x0, 0x0, 0⟩
def EVT_EN_HIF : Reg := ⟨15, 0x8, 0x0, 0x0, 0x0, 0⟩
def STATUS_HIF : Reg := ⟨15, 0xC, 0x0, 0x0, 0x0, 0⟩
def HIF_CTRL : Reg := ⟨15, 0x10, 0x0, 0x0, 0x0, 0⟩
def HIF_PCI_ID : Reg := ⟨15, 0x14, 0x0, 0x0, 0x0, 0⟩
def HIF_SPI_STAT : Reg := ⟨15, 0x18, 0x0, 0x0, 0x0, 0⟩
def HIF_I2C_STAT : Reg := ⟨15, 0x1C, 0x0, 0x0, 0x0, 0⟩
def GPIO_OUT : Reg := ⟨15, 0x40, 0x0, 0x0, 0x0, 0⟩
def GPIO_OE : Reg := ⟨15, 0x44, 0x0, 0x0, 0x0, 0⟩
def GPIO_IN : Reg := ⟨15, 0x48, 0x0, 0x0, 0x0, 0⟩
def GPIO_RISE : Reg := ⟨15, 0x4C, 0x0, 0x0, 0x0, 0⟩
def GPIO_FALL : Reg := ⟨15, 0x50, 0x0, 0x0, 0x0, 0⟩
def GPIO_EVT : Reg := ⟨15, 0x54, 0x0, 0x0, 0x0, 0⟩
def QS_CFG : Reg := ⟨15, 0x200, 0x0, 0x0, 0xC00, 0⟩
def QS_CMD : Reg := ⟨15, 0x204, 0x0, 0x0, 0x0, 0⟩
def QS_ADDR : Reg := ⟨15, 0x208, 0x0, 0x0, 0x0, 0⟩
def QS_DATA : Reg := ⟨15, 0x20C, 0x0, 0x0, 0x0, 0⟩
def QS_STAT : Reg := ⟨15, 0x210, 0x0, 0x0, 0x0, 0⟩
-- 15_consist_boot.md R439
def CFG_STATUS : Reg := ⟨0, 0x400, 0x0, 0x0, 0x0, 0⟩
def CFG_FAIL : Reg := ⟨0, 0x404, 0x0, 0x0, 0x0, 0⟩
def CFG_FAIL_CAR : Reg := ⟨0, 0x408, 0x0, 0x0, 0x0, 0⟩
def CFG_CHECK : Reg := ⟨0, 0x40C, 0x0, 0x0, 0x0, 0⟩
def CFG_LEN : Reg := ⟨0, 0x410, 0x0, 0x0, 0x0, 0⟩
def CFG_PROG : Reg := ⟨0, 0x414, 0x0, 0x0, 0x0, 0⟩
-- 16_modes_power.md R459
def EVT_SYS : Reg := ⟨0, 0x4, 0x0, 0x0, 0x0, 0⟩
def EVT_EN_SYS : Reg := ⟨0, 0x8, 0x0, 0x0, 0x0, 0⟩
def STATUS_SYS : Reg := ⟨0, 0xC, 0x0, 0x0, 0x22, 0⟩
def SYS_MODE_REQ : Reg := ⟨0, 0x20, 0x0, 0x0, 0x0, 0⟩
def SYS_RESUME_AT_LO : Reg := ⟨0, 0x24, 0x0, 0x0, 0x0, 0⟩
def SYS_RESUME_AT_HI : Reg := ⟨0, 0x28, 0x0, 0x0, 0x0, 0⟩
def SYS_HALT_BLK_LO : Reg := ⟨0, 0x2C, 0x0, 0x0, 0x0, 0⟩
def SYS_HALT_BLK_HI : Reg := ⟨0, 0x30, 0x0, 0x0, 0x0, 0⟩
def SYS_RESUME_BLK_LO : Reg := ⟨0, 0x34, 0x0, 0x0, 0x0, 0⟩
def SYS_RESUME_BLK_HI : Reg := ⟨0, 0x38, 0x0, 0x0, 0x0, 0⟩
def SYS_RST : Reg := ⟨0, 0x3C, 0x0, 0x0, 0x0, 0⟩
def SYS_BLKRST : Reg := ⟨0, 0x40, 0x0, 0x0, 0x0, 0⟩
def SYS_SIDING : Reg := ⟨0, 0x44, 0x0, 0x0, 0x0, 0⟩
-- 16_modes_power.md R460
def EVT_DP : Reg := ⟨16, 0x4, 0x0, 0x0, 0x0, 0⟩
def EVT_EN_DP : Reg := ⟨16, 0x8, 0x0, 0x0, 0x0, 0⟩
def STATUS_DP : Reg := ⟨16, 0xC, 0x0, 0x0, 0x0, 0⟩
def DP_CTRL : Reg := ⟨16, 0x10, 0x0, 0x0, 0x0, 0⟩
def DP_WAKE_EN : Reg := ⟨16, 0x14, 0x0, 0x0, 0x3, 0⟩
def DP_WAKE_CAUSE : Reg := ⟨16, 0x18, 0x0, 0x0, 0x80, 0⟩
def DP_RSEQ : Reg := ⟨16, 0x1C, 0x0, 0x0, 0xA0404, 0⟩
def DP_RST_CAUSE : Reg := ⟨16, 0x20, 0x0, 0x0, 0x1, 0⟩
def DP_RTC_LO : Reg := ⟨16, 0x24, 0x0, 0x0, 0x0, 0⟩
def DP_RTC_HI : Reg := ⟨16, 0x28, 0x0, 0x0, 0x0, 0⟩
def DP_ALARM : Reg := ⟨16, 0x2C, 0x0, 0x0, 0x0, 0⟩
def DP_SCRATCH : Reg := ⟨16, 0x30, 0x4, 0x0, 0x0, 0⟩
-- 17_security_debug.md R478
def FUSE_SEL : Reg := ⟨1, 0x0, 0x0, 0x0, 0x0, 0⟩
def EVT_SEC : Reg := ⟨1, 0x4, 0x0, 0x0, 0x0, 0⟩
def EVT_EN_SEC : Reg := ⟨1, 0x8, 0x0, 0x0, 0x0, 0⟩
def STATUS_SEC : Reg := ⟨1, 0xC, 0x0, 0x0, 0x0, 0⟩
def SEC_LC_REQ : Reg := ⟨1, 0x10, 0x0, 0x0, 0x0, 0⟩
def SEC_FAIL : Reg := ⟨1, 0x14, 0x0, 0x0, 0x0, 0⟩
def SEC_DBG : Reg := ⟨1, 0x18, 0x0, 0x0, 0x0, 0⟩
def FUSE_PGM : Reg := ⟨1, 0x20, 0x0, 0x0, 0x0, 0⟩
def FUSE_PGM_DATA : Reg := ⟨1, 0x24, 0x0, 0x0, 0x0, 0⟩
def SEC_DEVID_LO : Reg := ⟨1, 0x28, 0x0, 0x0, 0x0, 0⟩
def SEC_DEVID_HI : Reg := ⟨1, 0x2C, 0x0, 0x0, 0x0, 0⟩
def FUSE_MASK : Reg := ⟨1, 0x100, 0x0, 0x0, 0x0, 0⟩
def FUSE_DATA : Reg := ⟨1, 0x104, 0x0, 0x0, 0x0, 0⟩
-- 18_variants_fuses.md R490
def SYS_DIE_NAME0 : Reg := ⟨0, 0x80, 0x0, 0x0, 0x697A704F, 0⟩
def SYS_DIE_NAME1 : Reg := ⟨0, 0x84, 0x0, 0x0, 0x687479, 0⟩
def SYS_REV : Reg := ⟨0, 0x88, 0x0, 0x0, 0x0, 0⟩
def SYS_CAPS : Reg := ⟨0, 0x8C, 0x0, 0x0, 0x0, 0⟩
def SYS_CAPS_STAT : Reg := ⟨0, 0x90, 0x0, 0x0, 0x0, 0⟩
def SYS_LIMIT0 : Reg := ⟨0, 0x94, 0x0, 0x0, 0x0, 0⟩
def SYS_LIMIT1 : Reg := ⟨0, 0x98, 0x0, 0x0, 0x0, 0⟩

end R

namespace F

def TKA_CTRL_CLR : Fld := ⟨R.TKA_CTRL, 1, 1⟩
def TKA_CTRL_EN : Fld := ⟨R.TKA_CTRL, 0, 1⟩
def TKA_STATUS_FAIL_COUNT : Fld := ⟨R.TKA_STATUS, 16, 16⟩
def TKA_STATUS_BUSY : Fld := ⟨R.TKA_STATUS, 1, 1⟩
def TKA_STATUS_LAST_OK : Fld := ⟨R.TKA_STATUS, 0, 1⟩
def TKA_FIRST_VALID : Fld := ⟨R.TKA_FIRST, 31, 1⟩
def TKA_FIRST_BLK : Fld := ⟨R.TKA_FIRST, 9, 22⟩
def TKA_FIRST_QID : Fld := ⟨R.TKA_FIRST, 0, 9⟩
def TKA_QSEL_QID : Fld := ⟨R.TKA_QSEL, 0, 9⟩
def TKA_QDEPTH_COUNT : Fld := ⟨R.TKA_QDEPTH, 0, 16⟩
def TKA_QHELD_COUNT : Fld := ⟨R.TKA_QHELD, 0, 16⟩
def TKA_QFLIGHT_COUNT : Fld := ⟨R.TKA_QFLIGHT, 0, 16⟩
def TKA_QFILL_COUNT : Fld := ⟨R.TKA_QFILL, 0, 16⟩
def LATE_FIRST_VALID : Fld := ⟨R.LATE_FIRST, 31, 1⟩
def LATE_FIRST_BLK : Fld := ⟨R.LATE_FIRST, 0, 31⟩
def STATUS_GSV_AHEAD : Fld := ⟨R.STATUS_GSV, 2, 3⟩
def STATUS_GSV_RING_STALL : Fld := ⟨R.STATUS_GSV, 1, 1⟩
def STATUS_GSV_RUN : Fld := ⟨R.STATUS_GSV, 0, 1⟩
def GSV_CTRL_LEAD : Fld := ⟨R.GSV_CTRL, 1, 2⟩
def GSV_CTRL_EN : Fld := ⟨R.GSV_CTRL, 0, 1⟩
def GSV_REJ_INFO_SRC : Fld := ⟨R.GSV_REJ_INFO, 30, 2⟩
def GSV_REJ_INFO_OBJ : Fld := ⟨R.GSV_REJ_INFO, 16, 10⟩
def GSV_REJ_INFO_CAUSE : Fld := ⟨R.GSV_REJ_INFO, 0, 4⟩
def GSV_RING_CTRL_SIZE : Fld := ⟨R.GSV_RING_CTRL, 1, 4⟩
def GSV_RING_CTRL_EN : Fld := ⟨R.GSV_RING_CTRL, 0, 1⟩
def GSV_LAYOUT_INFO_SPK : Fld := ⟨R.GSV_LAYOUT_INFO, 0, 11⟩
def GSV_LAYOUT_INFO_VSPK : Fld := ⟨R.GSV_LAYOUT_INFO, 11, 7⟩
def GSV_LAYOUT_INFO_ARR : Fld := ⟨R.GSV_LAYOUT_INFO, 18, 5⟩
def GSV_LAYOUT_INFO_BED : Fld := ⟨R.GSV_LAYOUT_INFO, 23, 9⟩
def GSV_OBJ_INFO_LIMIT : Fld := ⟨R.GSV_OBJ_INFO, 0, 11⟩
def GSV_OBJ_INFO_COUNT : Fld := ⟨R.GSV_OBJ_INFO, 16, 11⟩
def OBJ_STATE_FEEDS : Fld := ⟨R.OBJ_STATE, 12, 6⟩
def OBJ_STATE_WIDE : Fld := ⟨R.OBJ_STATE, 11, 1⟩
def OBJ_STATE_CARRIED : Fld := ⟨R.OBJ_STATE, 10, 1⟩
def OBJ_STATE_KIND : Fld := ⟨R.OBJ_STATE, 8, 2⟩
def OBJ_STATE_SILENT : Fld := ⟨R.OBJ_STATE, 7, 1⟩
def OBJ_STATE_HELD : Fld := ⟨R.OBJ_STATE, 4, 3⟩
def OBJ_STATE_QUEUED : Fld := ⟨R.OBJ_STATE, 0, 3⟩
def STATUS_CRM_QBANK : Fld := ⟨R.STATUS_CRM, 6, 1⟩
def STATUS_CRM_COPY_PEND : Fld := ⟨R.STATUS_CRM, 5, 1⟩
def STATUS_CRM_BLK_RUN : Fld := ⟨R.STATUS_CRM, 4, 1⟩
def STATUS_CRM_SWAP_Q : Fld := ⟨R.STATUS_CRM, 3, 1⟩
def STATUS_CRM_SWAP_RUN : Fld := ⟨R.STATUS_CRM, 2, 1⟩
def STATUS_CRM_LIVE : Fld := ⟨R.STATUS_CRM, 1, 1⟩
def STATUS_CRM_RUN : Fld := ⟨R.STATUS_CRM, 0, 1⟩
def CRM_CTRL_NZ_CLR : Fld := ⟨R.CRM_CTRL, 2, 1⟩
def CRM_CTRL_QCLR : Fld := ⟨R.CRM_CTRL, 1, 1⟩
def CRM_CTRL_COPY : Fld := ⟨R.CRM_CTRL, 0, 1⟩
def CRM_DIM_FS : Fld := ⟨R.CRM_DIM, 28, 2⟩
def CRM_DIM_NOUT : Fld := ⟨R.CRM_DIM, 16, 11⟩
def CRM_DIM_NIN : Fld := ⟨R.CRM_DIM, 0, 11⟩
def CRM_SWAP_TIMED : Fld := ⟨R.CRM_SWAP, 31, 1⟩
def CRM_SWAP_RAMP : Fld := ⟨R.CRM_SWAP, 1, 9⟩
def CRM_SWAP_BANK : Fld := ⟨R.CRM_SWAP, 0, 1⟩
def CRM_SWAP_QINFO_VALID : Fld := ⟨R.CRM_SWAP_QINFO, 31, 1⟩
def CRM_SWAP_QINFO_TIMED : Fld := ⟨R.CRM_SWAP_QINFO, 30, 1⟩
def CRM_SWAP_QINFO_RAMP : Fld := ⟨R.CRM_SWAP_QINFO, 1, 9⟩
def CRM_SWAP_QINFO_BANK : Fld := ⟨R.CRM_SWAP_QINFO, 0, 1⟩
def CRM_ECC_NODE_VALID : Fld := ⟨R.CRM_ECC_NODE, 31, 1⟩
def CRM_ECC_NODE_OUTPUT : Fld := ⟨R.CRM_ECC_NODE, 16, 10⟩
def CRM_ECC_NODE_INPUT : Fld := ⟨R.CRM_ECC_NODE, 0, 10⟩
def CRM_BLK_CTRL_RUN : Fld := ⟨R.CRM_BLK_CTRL, 31, 1⟩
def CRM_BLK_CTRL_GO : Fld := ⟨R.CRM_BLK_CTRL, 0, 1⟩
def NODE_LIVE_DLY_STATE : Fld := ⟨R.NODE_LIVE_DLY, 11, 5⟩
def NODE_LIVE_DLY_DLY : Fld := ⟨R.NODE_LIVE_DLY, 0, 11⟩
def INPUT_INFO_SOLVER : Fld := ⟨R.INPUT_INFO, 31, 1⟩
def INPUT_INFO_OBJ : Fld := ⟨R.INPUT_INFO, 16, 10⟩
def INPUT_INFO_BANK : Fld := ⟨R.INPUT_INFO, 0, 1⟩
def INPUT_RAMP_RUN : Fld := ⟨R.INPUT_RAMP, 31, 1⟩
def INPUT_RAMP_LEFT : Fld := ⟨R.INPUT_RAMP, 16, 8⟩
def INPUT_RAMP_END : Fld := ⟨R.INPUT_RAMP, 0, 16⟩
def STATUS_CCE_GMUTE : Fld := ⟨R.STATUS_CCE, 3, 1⟩
def STATUS_CCE_XF_ANY : Fld := ⟨R.STATUS_CCE, 2, 1⟩
def STATUS_CCE_FLD_RUN : Fld := ⟨R.STATUS_CCE, 1, 1⟩
def STATUS_CCE_RUN : Fld := ⟨R.STATUS_CCE, 0, 1⟩
def CCE_DIM_NFEED : Fld := ⟨R.CCE_DIM, 0, 11⟩
def CCE_DIM_FS : Fld := ⟨R.CCE_DIM, 12, 2⟩
def CCE_GMUTE_RAMP : Fld := ⟨R.CCE_GMUTE, 1, 9⟩
def CCE_GMUTE_MUTE : Fld := ⟨R.CCE_GMUTE, 0, 1⟩
def CCE_SWAP_TIMED : Fld := ⟨R.CCE_SWAP, 31, 1⟩
def CCE_SWAP_RAMP : Fld := ⟨R.CCE_SWAP, 1, 9⟩
def CCE_SWAP_BANK : Fld := ⟨R.CCE_SWAP, 0, 1⟩
def CCE_FLD_CTRL_RUN : Fld := ⟨R.CCE_FLD_CTRL, 31, 1⟩
def CCE_FLD_CTRL_FEED : Fld := ⟨R.CCE_FLD_CTRL, 16, 10⟩
def CCE_FLD_CTRL_GO : Fld := ⟨R.CCE_FLD_CTRL, 0, 1⟩
def FC_INFO_DLYDRAM : Fld := ⟨R.FC_INFO, 31, 1⟩
def FC_INFO_XF : Fld := ⟨R.FC_INFO, 30, 1⟩
def FC_INFO_FIR : Fld := ⟨R.FC_INFO, 29, 1⟩
def FC_INFO_GROUP : Fld := ⟨R.FC_INFO, 24, 5⟩
def FC_INFO_TAPS : Fld := ⟨R.FC_INFO, 0, 17⟩
def FC_LAYOUT_N32 : Fld := ⟨R.FC_LAYOUT, 0, 5⟩
def FC_LAYOUT_N128 : Fld := ⟨R.FC_LAYOUT, 8, 5⟩
def FC_LAYOUT_N512 : Fld := ⟨R.FC_LAYOUT, 16, 5⟩
def FC_LAYOUT_N2048 : Fld := ⟨R.FC_LAYOUT, 24, 5⟩
def FC_DEST_VALID : Fld := ⟨R.FC_DEST, 31, 1⟩
def FC_DEST_DITH : Fld := ⟨R.FC_DEST, 30, 1⟩
def FC_DEST_TYPE : Fld := ⟨R.FC_DEST, 24, 3⟩
def FC_DEST_PORT : Fld := ⟨R.FC_DEST, 16, 7⟩
def FC_DEST_CHAN : Fld := ⟨R.FC_DEST, 0, 8⟩
def FC_TRIM_INV : Fld := ⟨R.FC_TRIM, 16, 1⟩
def FC_TRIM_GAIN : Fld := ⟨R.FC_TRIM, 0, 16⟩
def FC_SOS_SEL_AINC : Fld := ⟨R.FC_SOS_SEL, 31, 1⟩
def FC_SOS_SEL_RBANK : Fld := ⟨R.FC_SOS_SEL, 8, 1⟩
def FC_SOS_SEL_SEC : Fld := ⟨R.FC_SOS_SEL, 4, 4⟩
def FC_SOS_SEL_COEF : Fld := ⟨R.FC_SOS_SEL, 0, 3⟩
def FC_LIM_EN : Fld := ⟨R.FC_LIM, 31, 1⟩
def FC_LIM_THR : Fld := ⟨R.FC_LIM, 0, 16⟩
def FC_LIM_TIME_REL : Fld := ⟨R.FC_LIM_TIME, 16, 13⟩
def FC_LIM_TIME_HOLD : Fld := ⟨R.FC_LIM_TIME, 8, 8⟩
def FC_LIM_TIME_ATT : Fld := ⟨R.FC_LIM_TIME, 0, 8⟩
def FC_MUTE_RAMP : Fld := ⟨R.FC_MUTE, 1, 9⟩
def FC_MUTE_MUTE : Fld := ⟨R.FC_MUTE, 0, 1⟩
def FC_SWAP_TIMED : Fld := ⟨R.FC_SWAP, 31, 1⟩
def FC_SWAP_RAMP : Fld := ⟨R.FC_SWAP, 1, 9⟩
def FC_SWAP_BANK : Fld := ⟨R.FC_SWAP, 0, 1⟩
def FC_SWAP_STAT_LEFT : Fld := ⟨R.FC_SWAP_STAT, 8, 7⟩
def FC_SWAP_STAT_FLD : Fld := ⟨R.FC_SWAP_STAT, 5, 1⟩
def FC_SWAP_STAT_QBANK : Fld := ⟨R.FC_SWAP_STAT, 4, 1⟩
def FC_SWAP_STAT_Q : Fld := ⟨R.FC_SWAP_STAT, 3, 1⟩
def FC_SWAP_STAT_DIP : Fld := ⟨R.FC_SWAP_STAT, 2, 1⟩
def FC_SWAP_STAT_XF : Fld := ⟨R.FC_SWAP_STAT, 1, 1⟩
def FC_SWAP_STAT_LIVE : Fld := ⟨R.FC_SWAP_STAT, 0, 1⟩
def STATUS_SB_READY : Fld := ⟨R.STATUS_SB, 8, 13⟩
def STATUS_SB_SLOT : Fld := ⟨R.STATUS_SB, 5, 1⟩
def STATUS_SB_OLD_BUSY : Fld := ⟨R.STATUS_SB, 4, 1⟩
def STATUS_SB_GSWAP_PEND : Fld := ⟨R.STATUS_SB, 3, 1⟩
def STATUS_SB_GLD_RUN : Fld := ⟨R.STATUS_SB, 2, 1⟩
def STATUS_SB_NEXT_VALID : Fld := ⟨R.STATUS_SB, 1, 1⟩
def STATUS_SB_RUN : Fld := ⟨R.STATUS_SB, 0, 1⟩
def SB_GSWAP_TIMED : Fld := ⟨R.SB_GSWAP, 31, 1⟩
def SB_GSWAP_REQ : Fld := ⟨R.SB_GSWAP, 0, 1⟩
def SB_GLD_CTRL_RUN : Fld := ⟨R.SB_GLD_CTRL, 31, 1⟩
def SB_GLD_CTRL_CAUSE : Fld := ⟨R.SB_GLD_CTRL, 24, 4⟩
def SB_GLD_CTRL_ITEM : Fld := ⟨R.SB_GLD_CTRL, 12, 12⟩
def SB_GLD_CTRL_GO : Fld := ⟨R.SB_GLD_CTRL, 0, 1⟩
def SB_LAST_FAULT_VALID : Fld := ⟨R.SB_LAST_FAULT, 31, 1⟩
def SB_LAST_FAULT_TYPE : Fld := ⟨R.SB_LAST_FAULT, 28, 3⟩
def SB_LAST_FAULT_CAUSE : Fld := ⟨R.SB_LAST_FAULT, 24, 4⟩
def SB_LAST_FAULT_ENG : Fld := ⟨R.SB_LAST_FAULT, 16, 5⟩
def SB_LAST_FAULT_ITEM : Fld := ⟨R.SB_LAST_FAULT, 0, 12⟩
def SB_DAUD_STATUS_FAIL_COUNT : Fld := ⟨R.SB_DAUD_STATUS, 16, 16⟩
def SB_DAUD_STATUS_LAST_EXCL : Fld := ⟨R.SB_DAUD_STATUS, 1, 1⟩
def SB_DAUD_STATUS_LAST_OK : Fld := ⟨R.SB_DAUD_STATUS, 0, 1⟩
def SB_DAUD_FIRST_VALID : Fld := ⟨R.SB_DAUD_FIRST, 31, 1⟩
def SB_DAUD_FIRST_BLK : Fld := ⟨R.SB_DAUD_FIRST, 12, 19⟩
def SB_DAUD_FIRST_ITEM : Fld := ⟨R.SB_DAUD_FIRST, 0, 12⟩
def SB_TRC_CTRL_MASK : Fld := ⟨R.SB_TRC_CTRL, 16, 16⟩
def SB_TRC_CTRL_CLR : Fld := ⟨R.SB_TRC_CTRL, 2, 1⟩
def SB_TRC_CTRL_STOP : Fld := ⟨R.SB_TRC_CTRL, 1, 1⟩
def SB_TRC_CTRL_EN : Fld := ⟨R.SB_TRC_CTRL, 0, 1⟩
def ITEM_STATE_DLMISS : Fld := ⟨R.ITEM_STATE, 31, 1⟩
def ITEM_STATE_OVR : Fld := ⟨R.ITEM_STATE, 30, 1⟩
def ITEM_STATE_CNT : Fld := ⟨R.ITEM_STATE, 16, 12⟩
def ITEM_STATE_ENG : Fld := ⟨R.ITEM_STATE, 4, 5⟩
def ITEM_STATE_STATE : Fld := ⟨R.ITEM_STATE, 0, 3⟩
def PT_CFG_EN : Fld := ⟨R.PT_CFG, 31, 1⟩
def PT_CFG_RXEN : Fld := ⟨R.PT_CFG, 30, 1⟩
def PT_CFG_TXEN : Fld := ⟨R.PT_CFG, 29, 1⟩
def PT_CFG_MASTER : Fld := ⟨R.PT_CFG, 28, 1⟩
def PT_CFG_CLK : Fld := ⟨R.PT_CFG, 27, 1⟩
def PT_CFG_DOUBLE : Fld := ⟨R.PT_CFG, 26, 1⟩
def PT_CFG_RXSRC : Fld := ⟨R.PT_CFG, 25, 1⟩
def PT_CFG_TXSRC : Fld := ⟨R.PT_CFG, 24, 1⟩
def PT_CFG_GROUP : Fld := ⟨R.PT_CFG, 16, 4⟩
def PT_FMT_FSPOL : Fld := ⟨R.PT_FMT, 31, 1⟩
def PT_FMT_FSW : Fld := ⟨R.PT_FMT, 30, 1⟩
def PT_FMT_EDGE : Fld := ⟨R.PT_FMT, 29, 1⟩
def PT_FMT_WIDTH : Fld := ⟨R.PT_FMT, 24, 2⟩
def PT_FMT_SLOTS : Fld := ⟨R.PT_FMT, 16, 5⟩
def PT_FMT_OFS : Fld := ⟨R.PT_FMT, 8, 8⟩
def PT_DIV_FLEN : Fld := ⟨R.PT_DIV, 16, 11⟩
def PT_DIV_INT : Fld := ⟨R.PT_DIV, 0, 8⟩
def PT_DIVF_NUM : Fld := ⟨R.PT_DIVF, 16, 16⟩
def PT_DIVF_DEN : Fld := ⟨R.PT_DIVF, 0, 16⟩
def PT_SIL_METHOD : Fld := ⟨R.PT_SIL, 31, 1⟩
def PT_SIL_ZCTO : Fld := ⟨R.PT_SIL, 16, 12⟩
def PT_SIL_PRE : Fld := ⟨R.PT_SIL, 0, 16⟩
def PT_STATUS_RXVALID : Fld := ⟨R.PT_STATUS, 31, 1⟩
def PT_STATUS_LOCK : Fld := ⟨R.PT_STATUS, 30, 1⟩
def PT_STATUS_ALIGNED : Fld := ⟨R.PT_STATUS, 29, 1⟩
def PT_STATUS_STATE : Fld := ⟨R.PT_STATUS, 16, 3⟩
def PT_EVT_RX_UND : Fld := ⟨R.PT_EVT, 10, 1⟩
def PT_EVT_CFG : Fld := ⟨R.PT_EVT, 9, 1⟩
def PT_EVT_ZC_TO : Fld := ⟨R.PT_EVT, 8, 1⟩
def PT_EVT_TX_UND : Fld := ⟨R.PT_EVT, 7, 1⟩
def PT_EVT_RX_OVR : Fld := ⟨R.PT_EVT, 6, 1⟩
def PT_EVT_REJOIN : Fld := ⟨R.PT_EVT, 5, 1⟩
def PT_EVT_RATE : Fld := ⟨R.PT_EVT, 4, 1⟩
def PT_EVT_GLITCH : Fld := ⟨R.PT_EVT, 3, 1⟩
def PT_EVT_LOSS : Fld := ⟨R.PT_EVT, 2, 1⟩
def PT_EVT_STOPPED : Fld := ⟨R.PT_EVT, 1, 1⟩
def PT_EVT_STARTED : Fld := ⟨R.PT_EVT, 0, 1⟩
def AR_CFG_EN : Fld := ⟨R.AR_CFG, 31, 1⟩
def AR_CFG_VMUTE : Fld := ⟨R.AR_CFG, 30, 1⟩
def AR_CFG_CSCH : Fld := ⟨R.AR_CFG, 29, 1⟩
def AR_CFG_RXSRC : Fld := ⟨R.AR_CFG, 28, 1⟩
def AR_STATUS_LOCK : Fld := ⟨R.AR_STATUS, 31, 1⟩
def AR_STATUS_PRO : Fld := ⟨R.AR_STATUS, 30, 1⟩
def AR_STATUS_CSVALID : Fld := ⟨R.AR_STATUS, 29, 1⟩
def AR_STATUS_ALIGNED : Fld := ⟨R.AR_STATUS, 28, 1⟩
def AR_STATUS_GRADE : Fld := ⟨R.AR_STATUS, 26, 2⟩
def AR_STATUS_STATE : Fld := ⟨R.AR_STATUS, 16, 3⟩
def AR_STATUS_PHASE : Fld := ⟨R.AR_STATUS, 0, 16⟩
def AR_EVT_RX_UND : Fld := ⟨R.AR_EVT, 8, 1⟩
def AR_EVT_RX_OVR : Fld := ⟨R.AR_EVT, 7, 1⟩
def AR_EVT_GRADE : Fld := ⟨R.AR_EVT, 6, 1⟩
def AR_EVT_BIPH : Fld := ⟨R.AR_EVT, 5, 1⟩
def AR_EVT_CRC_ERR : Fld := ⟨R.AR_EVT, 4, 1⟩
def AR_EVT_CS : Fld := ⟨R.AR_EVT, 3, 1⟩
def AR_EVT_RATE : Fld := ⟨R.AR_EVT, 2, 1⟩
def AR_EVT_LOSS : Fld := ⟨R.AR_EVT, 1, 1⟩
def AR_EVT_LOCK : Fld := ⟨R.AR_EVT, 0, 1⟩
def AT_CFG_EN : Fld := ⟨R.AT_CFG, 31, 1⟩
def AT_CFG_CRCC : Fld := ⟨R.AT_CFG, 30, 1⟩
def AT_CFG_CLK : Fld := ⟨R.AT_CFG, 27, 1⟩
def AT_CFG_DOUBLE : Fld := ⟨R.AT_CFG, 26, 1⟩
def AT_CFG_TXSRC : Fld := ⟨R.AT_CFG, 25, 1⟩
def AT_STATUS_RUN : Fld := ⟨R.AT_STATUS, 31, 1⟩
def AT_STATUS_CSPEND : Fld := ⟨R.AT_STATUS, 30, 1⟩
def AT_STATUS_UND : Fld := ⟨R.AT_STATUS, 0, 16⟩
def SRC_CFG_VALID : Fld := ⟨R.SRC_CFG, 31, 1⟩
def SRC_CFG_DIR : Fld := ⟨R.SRC_CFG, 30, 1⟩
def SRC_CFG_TYPE : Fld := ⟨R.SRC_CFG, 28, 2⟩
def SRC_CFG_INST : Fld := ⟨R.SRC_CFG, 16, 7⟩
def SRC_CFG_FIRST : Fld := ⟨R.SRC_CFG, 8, 6⟩
def SRC_CFG_COUNT : Fld := ⟨R.SRC_CFG, 0, 7⟩
def SRC_STAT_STATE : Fld := ⟨R.SRC_STAT, 30, 2⟩
def SRC_STAT_RELOCK : Fld := ⟨R.SRC_STAT, 0, 16⟩
def STATUS_NET_ANY_EN : Fld := ⟨R.STATUS_NET, 0, 1⟩
def NB_CTRL_COUNT : Fld := ⟨R.NB_CTRL, 0, 13⟩
def NB_CTRL_BUFSZ : Fld := ⟨R.NB_CTRL, 16, 1⟩
def NB_ALLOC_VALID : Fld := ⟨R.NB_ALLOC, 31, 1⟩
def NB_ALLOC_INDEX : Fld := ⟨R.NB_ALLOC, 0, 12⟩
def NB_RELEASE_INDEX : Fld := ⟨R.NB_RELEASE, 0, 12⟩
def NB_AUD_STATUS_FAIL_COUNT : Fld := ⟨R.NB_AUD_STATUS, 16, 16⟩
def NB_AUD_STATUS_BADOP : Fld := ⟨R.NB_AUD_STATUS, 0, 16⟩
def MD_CFG_EN : Fld := ⟨R.MD_CFG, 31, 1⟩
def MD_CFG_UDP : Fld := ⟨R.MD_CFG, 0, 16⟩
def ST_CFG_EN : Fld := ⟨R.ST_CFG, 31, 1⟩
def ST_CFG_PORT : Fld := ⟨R.ST_CFG, 29, 2⟩
def ST_CFG_FMT : Fld := ⟨R.ST_CFG, 27, 2⟩
def ST_CFG_PKT : Fld := ⟨R.ST_CFG, 25, 2⟩
def ST_CFG_TC : Fld := ⟨R.ST_CFG, 21, 3⟩
def ST_CFG_SRC : Fld := ⟨R.ST_CFG, 16, 1⟩
def ST_CFG_NCH : Fld := ⟨R.ST_CFG, 0, 8⟩
def ST_UDP_SRC : Fld := ⟨R.ST_UDP, 16, 16⟩
def ST_UDP_DST : Fld := ⟨R.ST_UDP, 0, 16⟩
def ST_VLAN_EN : Fld := ⟨R.ST_VLAN, 31, 1⟩
def ST_VLAN_PCP : Fld := ⟨R.ST_VLAN, 13, 3⟩
def ST_VLAN_VID : Fld := ⟨R.ST_VLAN, 0, 12⟩
def ST_RTP_PT : Fld := ⟨R.ST_RTP, 0, 7⟩
def ST_LOFS_LOFS : Fld := ⟨R.ST_LOFS, 0, 15⟩
def ST_STATUS_RXVALID : Fld := ⟨R.ST_STATUS, 31, 1⟩
def ST_STATUS_RUN : Fld := ⟨R.ST_STATUS, 30, 1⟩
def ST_STATUS_GOT_A : Fld := ⟨R.ST_STATUS, 29, 1⟩
def ST_STATUS_GOT_B : Fld := ⟨R.ST_STATUS, 28, 1⟩
def ST_FLAGS_CFG : Fld := ⟨R.ST_FLAGS, 0, 1⟩
def ST_FLAGS_UND : Fld := ⟨R.ST_FLAGS, 1, 1⟩
def ST_FLAGS_LATE : Fld := ⟨R.ST_FLAGS, 2, 1⟩
def ST_FLAGS_EARLY : Fld := ⟨R.ST_FLAGS, 3, 1⟩
def ST_FLAGS_FMT : Fld := ⟨R.ST_FLAGS, 4, 1⟩
def ST_FLAGS_SEQGAP : Fld := ⟨R.ST_FLAGS, 5, 1⟩
def ST_FLAGS_RECOVER : Fld := ⟨R.ST_FLAGS, 6, 1⟩
def ST_FLAGS_TX_UND : Fld := ⟨R.ST_FLAGS, 7, 1⟩
def ST_CHAN_FIRST : Fld := ⟨R.ST_CHAN, 16, 10⟩
def ST_CHAN_COUNT : Fld := ⟨R.ST_CHAN, 0, 9⟩
def ST_SEQ_SEQ : Fld := ⟨R.ST_SEQ, 0, 16⟩
def NP_CFG_EN : Fld := ⟨R.NP_CFG, 31, 1⟩
def NP_CFG_PRP : Fld := ⟨R.NP_CFG, 30, 1⟩
def NP_CFG_SPEED : Fld := ⟨R.NP_CFG, 28, 2⟩
def NP_CFG_HDX : Fld := ⟨R.NP_CFG, 27, 1⟩
def NP_CFG_JUMBO : Fld := ⟨R.NP_CFG, 26, 1⟩
def NP_CFG_RXTSALL : Fld := ⟨R.NP_CFG, 25, 1⟩
def NP_CFG_QBV : Fld := ⟨R.NP_CFG, 24, 1⟩
def NP_STATUS_LINK : Fld := ⟨R.NP_STATUS, 31, 1⟩
def NP_STATUS_SPEED : Fld := ⟨R.NP_STATUS, 28, 2⟩
def NP_EVT_LINK : Fld := ⟨R.NP_EVT, 0, 1⟩
def NP_EVT_CFG : Fld := ⟨R.NP_EVT, 1, 1⟩
def NP_EVT_CNT_HALF : Fld := ⟨R.NP_EVT, 2, 1⟩
def NP_EVT_TSQ_OVF : Fld := ⟨R.NP_EVT, 3, 1⟩
def NP_EVT_GCL_SWAP : Fld := ⟨R.NP_EVT, 4, 1⟩
def NP_EVT_GCL_ERR : Fld := ⟨R.NP_EVT, 5, 1⟩
def NP_EVT_WRONGLAN : Fld := ⟨R.NP_EVT, 6, 1⟩
def NP_EVT_EXCESS_COLL : Fld := ⟨R.NP_EVT, 7, 1⟩
def NP_EVT_LATE_COLL : Fld := ⟨R.NP_EVT, 8, 1⟩
def NP_EVT_TX_ERR : Fld := ⟨R.NP_EVT, 9, 1⟩
def NP_TXPOST_INDEX : Fld := ⟨R.NP_TXPOST, 0, 12⟩
def NP_TXDONE_VALID : Fld := ⟨R.NP_TXDONE, 31, 1⟩
def NP_TXDONE_INDEX : Fld := ⟨R.NP_TXDONE, 0, 12⟩
def NP_RXRDY_VALID : Fld := ⟨R.NP_RXRDY, 31, 1⟩
def NP_RXRDY_INDEX : Fld := ⟨R.NP_RXRDY, 0, 12⟩
def NP_CNT_SEL_IDX : Fld := ⟨R.NP_CNT_SEL, 0, 6⟩
def NP_GCL_CTRL_GO : Fld := ⟨R.NP_GCL_CTRL, 31, 1⟩
def NP_GCL_CTRL_PEND : Fld := ⟨R.NP_GCL_CTRL, 30, 1⟩
def NP_GCL_CTRL_LEN : Fld := ⟨R.NP_GCL_CTRL, 0, 9⟩
def NP_GCL_SEL_AINC : Fld := ⟨R.NP_GCL_SEL, 31, 1⟩
def NP_GCL_SEL_ENTRY : Fld := ⟨R.NP_GCL_SEL, 0, 8⟩
def NP_GCL_ENT_GATES : Fld := ⟨R.NP_GCL_ENT, 24, 8⟩
def NP_GCL_ENT_INTERVAL : Fld := ⟨R.NP_GCL_ENT, 0, 24⟩
def NP_CBS_EN : Fld := ⟨R.NP_CBS, 31, 1⟩
def NP_CBS_IDLE : Fld := ⟨R.NP_CBS, 0, 14⟩
def STATUS_TU_LOCK : Fld := ⟨R.STATUS_TU, 0, 4⟩
def STATUS_TU_ALIGNED : Fld := ⟨R.STATUS_TU, 4, 2⟩
def TI_CTRL_EN : Fld := ⟨R.TI_CTRL, 31, 1⟩
def TI_CTRL_STEPEN : Fld := ⟨R.TI_CTRL, 30, 1⟩
def TI_CTRL_BIAS : Fld := ⟨R.TI_CTRL, 29, 1⟩
def TI_CTRL_CLR_BIAS : Fld := ⟨R.TI_CTRL, 28, 1⟩
def TI_CTRL_DOMP : Fld := ⟨R.TI_CTRL, 8, 8⟩
def TI_CTRL_DOMS : Fld := ⟨R.TI_CTRL, 0, 8⟩
def TI_STATUS_STATE : Fld := ⟨R.TI_STATUS, 0, 3⟩
def TI_STATUS_SHADOW_OK : Fld := ⟨R.TI_STATUS, 4, 1⟩
def TI_STATUS_BIASED : Fld := ⟨R.TI_STATUS, 5, 1⟩
def TI_STATUS_FLIM : Fld := ⟨R.TI_STATUS, 6, 1⟩
def TI_TAG_TAGS : Fld := ⟨R.TI_TAG, 8, 8⟩
def TI_TAG_TAGP : Fld := ⟨R.TI_TAG, 0, 8⟩
def TI_KP_KP : Fld := ⟨R.TI_KP, 0, 24⟩
def TI_KI_KI : Fld := ⟨R.TI_KI, 0, 24⟩
def TI_FLIM_FLIM : Fld := ⟨R.TI_FLIM, 0, 20⟩
def TI_STEP_THR_STEP_THR : Fld := ⟨R.TI_STEP_THR, 0, 31⟩
def TI_LOCK_THR_LOCK_THR : Fld := ⟨R.TI_LOCK_THR, 0, 31⟩
def TI_TIMEOUT_TIMEOUT : Fld := ⟨R.TI_TIMEOUT, 0, 16⟩
def TI_SLEW_SLEW : Fld := ⟨R.TI_SLEW, 0, 16⟩
def TI_TNS_NS : Fld := ⟨R.TI_TNS, 0, 30⟩
def TI_TNS_TENTH : Fld := ⟨R.TI_TNS, 30, 2⟩
def TI_TSEC_HI_TENTH : Fld := ⟨R.TI_TSEC_HI, 16, 4⟩
def TU_PCFG_TI : Fld := ⟨R.TU_PCFG, 0, 2⟩
def TU_PCFG_ONESTEP : Fld := ⟨R.TU_PCFG, 8, 1⟩
def TU_PCFG_TC : Fld := ⟨R.TU_PCFG, 9, 1⟩
def MC_CFG_TI : Fld := ⟨R.MC_CFG, 0, 2⟩
def MC_CFG_PTP : Fld := ⟨R.MC_CFG, 8, 1⟩
def MC_CFG_DOUBLE : Fld := ⟨R.MC_CFG, 9, 1⟩
def MC_STATUS_ALIGNED : Fld := ⟨R.MC_STATUS, 0, 1⟩
def MC_STATUS_BIASED : Fld := ⟨R.MC_STATUS, 1, 1⟩
def MC_STATUS_SLEWING : Fld := ⟨R.MC_STATUS, 2, 1⟩
def MC_CTRL_REALIGN : Fld := ⟨R.MC_CTRL, 0, 1⟩
def MC_STEP_THR_STEP_THR : Fld := ⟨R.MC_STEP_THR, 0, 24⟩
def MC_SLEW_SLEW : Fld := ⟨R.MC_SLEW, 0, 16⟩
def TP_CTRL_EN : Fld := ⟨R.TP_CTRL, 31, 1⟩
def TP_CTRL_POL : Fld := ⟨R.TP_CTRL, 8, 1⟩
def TP_CTRL_TI : Fld := ⟨R.TP_CTRL, 0, 2⟩
def TP_PERIOD_P : Fld := ⟨R.TP_PERIOD, 0, 31⟩
def TP_WIDTH_W : Fld := ⟨R.TP_WIDTH, 0, 30⟩
def TC_CFG_EN : Fld := ⟨R.TC_CFG, 31, 1⟩
def TC_CFG_EDGE : Fld := ⟨R.TC_CFG, 8, 2⟩
def TC_CFG_TI : Fld := ⟨R.TC_CFG, 0, 2⟩
def TC_W0_VALID : Fld := ⟨R.TC_W0, 31, 1⟩
def TC_W0_EDGE : Fld := ⟨R.TC_W0, 30, 1⟩
def TC_W0_NS : Fld := ⟨R.TC_W0, 0, 30⟩
def TC_W3_SIDX : Fld := ⟨R.TC_W3, 8, 24⟩
def TC_W3_FRAC : Fld := ⟨R.TC_W3, 0, 8⟩
def STATUS_RU_STATE0 : Fld := ⟨R.STATUS_RU, 0, 3⟩
def STATUS_RU_STATE1 : Fld := ⟨R.STATUS_RU, 4, 3⟩
def RU_TDMSRC_PORT : Fld := ⟨R.RU_TDMSRC, 0, 4⟩
def RU_HOLDOFF_HOLDOFF : Fld := ⟨R.RU_HOLDOFF, 0, 16⟩
def RU_FWIN_FWIN : Fld := ⟨R.RU_FWIN, 0, 20⟩
def RC_CFG_EN : Fld := ⟨R.RC_CFG, 31, 1⟩
def RC_CFG_HIST : Fld := ⟨R.RC_CFG, 8, 4⟩
def RC_CFG_BW : Fld := ⟨R.RC_CFG, 0, 4⟩
def RC_STATUS_RANK_CONFLICT : Fld := ⟨R.RC_STATUS, 10, 1⟩
def RC_STATUS_HIST_VALID : Fld := ⟨R.RC_STATUS, 9, 1⟩
def RC_STATUS_CUR_VALID : Fld := ⟨R.RC_STATUS, 8, 1⟩
def RC_STATUS_CUR : Fld := ⟨R.RC_STATUS, 4, 3⟩
def RC_STATUS_STATE : Fld := ⟨R.RC_STATUS, 0, 3⟩
def RC_CMD_RESELECT : Fld := ⟨R.RC_CMD, 0, 1⟩
def RC_CMD_FORCE : Fld := ⟨R.RC_CMD, 1, 1⟩
def RC_CMD_IN : Fld := ⟨R.RC_CMD, 4, 3⟩
def RC_CONF_PPB_CONF : Fld := ⟨R.RC_CONF_PPB, 0, 20⟩
def RI_CFG_EN : Fld := ⟨R.RI_CFG, 31, 1⟩
def RI_CFG_RANK : Fld := ⟨R.RI_CFG, 8, 4⟩
def RI_CFG_QOVR : Fld := ⟨R.RI_CFG, 4, 1⟩
def RI_CFG_QL : Fld := ⟨R.RI_CFG, 0, 4⟩
def RI_STATUS_QUAL : Fld := ⟨R.RI_STATUS, 31, 1⟩
def RI_STATUS_PRESENT : Fld := ⟨R.RI_STATUS, 30, 1⟩
def RI_STATUS_HOLDOFF : Fld := ⟨R.RI_STATUS, 29, 1⟩
def RI_STATUS_CAUSE : Fld := ⟨R.RI_STATUS, 8, 3⟩
def RI_STATUS_MULT : Fld := ⟨R.RI_STATUS, 4, 2⟩
def RI_STATUS_QL : Fld := ⟨R.RI_STATUS, 0, 4⟩
def AI_SYNC_TIMED : Fld := ⟨R.AI_SYNC, 31, 1⟩
def AI_SYNC_MASK : Fld := ⟨R.AI_SYNC, 0, 8⟩
def MB_CTRL1_EN : Fld := ⟨R.MB_CTRL1, 31, 1⟩
def MB_CTRL1_LEVEL : Fld := ⟨R.MB_CTRL1, 0, 2⟩
def MB_CTRL2_EN : Fld := ⟨R.MB_CTRL2, 31, 1⟩
def MB_CTRL2_LEVEL : Fld := ⟨R.MB_CTRL2, 0, 2⟩
def MB_STATUS_LIM : Fld := ⟨R.MB_STATUS, 7, 1⟩
def MB_STATUS_ON : Fld := ⟨R.MB_STATUS, 6, 1⟩
def MB_STATUS_DIR : Fld := ⟨R.MB_STATUS, 5, 1⟩
def MB_STATUS_STEP : Fld := ⟨R.MB_STATUS, 0, 5⟩
def AI_CFG_EN : Fld := ⟨R.AI_CFG, 31, 1⟩
def AI_CFG_MODE : Fld := ⟨R.AI_CFG, 30, 1⟩
def AI_CFG_PGAZC : Fld := ⟨R.AI_CFG, 29, 1⟩
def AI_CFG_HPF : Fld := ⟨R.AI_CFG, 28, 1⟩
def AI_CFG_BIAS : Fld := ⟨R.AI_CFG, 24, 2⟩
def AI_CFG_PGA : Fld := ⟨R.AI_CFG, 0, 7⟩
def AI_STATUS_VALID : Fld := ⟨R.AI_STATUS, 31, 1⟩
def AI_STATUS_FVALID : Fld := ⟨R.AI_STATUS, 30, 1⟩
def AI_STATUS_BIASMUTE : Fld := ⟨R.AI_STATUS, 29, 1⟩
def AI_STATUS_ABOVE : Fld := ⟨R.AI_STATUS, 28, 1⟩
def AI_STATUS_PGA : Fld := ⟨R.AI_STATUS, 0, 7⟩
def AI_ZCTO_TO : Fld := ⟨R.AI_ZCTO, 0, 12⟩
def AI_THR_ON : Fld := ⟨R.AI_THR, 16, 16⟩
def AI_THR_OFF : Fld := ⟨R.AI_THR, 0, 16⟩
def AI_THR_TIME_MS : Fld := ⟨R.AI_THR_TIME, 0, 16⟩
def AI_EVT_THR_ON : Fld := ⟨R.AI_EVT, 0, 1⟩
def AI_EVT_THR_OFF : Fld := ⟨R.AI_EVT, 1, 1⟩
def AI_EVT_CLIP : Fld := ⟨R.AI_EVT, 2, 1⟩
def AI_EVT_PGA_TO : Fld := ⟨R.AI_EVT, 3, 1⟩
def AI_EVT_PGA_DONE : Fld := ⟨R.AI_EVT, 4, 1⟩
def AI_EVT_VALID : Fld := ⟨R.AI_EVT, 5, 1⟩
def AI_PEAK_MAG : Fld := ⟨R.AI_PEAK, 0, 31⟩
def JD_CFG_EN : Fld := ⟨R.JD_CFG, 28, 4⟩
def JD_CFG_WAKE : Fld := ⟨R.JD_CFG, 24, 4⟩
def JD_CFG_MB : Fld := ⟨R.JD_CFG, 16, 8⟩
def JD_CFG_DEB : Fld := ⟨R.JD_CFG, 4, 4⟩
def JD_CFG_RATE : Fld := ⟨R.JD_CFG, 0, 1⟩
def JD_EVT_INS : Fld := ⟨R.JD_EVT, 0, 4⟩
def JD_EVT_REM : Fld := ⟨R.JD_EVT, 4, 4⟩
def JD_EVT_TYPE : Fld := ⟨R.JD_EVT, 8, 4⟩
def EX_CFG_EN : Fld := ⟨R.EX_CFG, 31, 1⟩
def EX_CFG_ACT : Fld := ⟨R.EX_CFG, 30, 1⟩
def EX_CFG_SRC : Fld := ⟨R.EX_CFG, 24, 3⟩
def EX_CFG_DST : Fld := ⟨R.EX_CFG, 16, 4⟩
def EX_CFG_GAIN : Fld := ⟨R.EX_CFG, 0, 16⟩
def AO_CFG_EN : Fld := ⟨R.AO_CFG, 31, 1⟩
def AO_CFG_SPAN : Fld := ⟨R.AO_CFG, 24, 2⟩
def AO_STATUS_SPAN : Fld := ⟨R.AO_STATUS, 8, 2⟩
def AO_STATUS_SPANRUN : Fld := ⟨R.AO_STATUS, 6, 1⟩
def AO_STATUS_LIM : Fld := ⟨R.AO_STATUS, 5, 1⟩
def AO_STATUS_SHUNT : Fld := ⟨R.AO_STATUS, 4, 1⟩
def AO_STATUS_DIR : Fld := ⟨R.AO_STATUS, 3, 1⟩
def AO_STATUS_STEP : Fld := ⟨R.AO_STATUS, 0, 3⟩
def AO_SLEW_EN : Fld := ⟨R.AO_SLEW, 31, 1⟩
def AO_SLEW_RATE : Fld := ⟨R.AO_SLEW, 16, 4⟩
def AO_SLEW_STEP : Fld := ⟨R.AO_SLEW, 0, 16⟩
def AO_SOS_SEL_AINC : Fld := ⟨R.AO_SOS_SEL, 31, 1⟩
def AO_SOS_SEL_RSET : Fld := ⟨R.AO_SOS_SEL, 8, 1⟩
def AO_SOS_SEL_SEC : Fld := ⟨R.AO_SOS_SEL, 4, 3⟩
def AO_SOS_SEL_COEF : Fld := ⟨R.AO_SOS_SEL, 0, 3⟩
def AO_EVT_SEQ_DONE : Fld := ⟨R.AO_EVT, 0, 1⟩
def AO_EVT_SPAN_DONE : Fld := ⟨R.AO_EVT, 1, 1⟩
def AO_EVT_CLIP : Fld := ⟨R.AO_EVT, 2, 1⟩
def AO_EVT_COMMIT : Fld := ⟨R.AO_EVT, 3, 1⟩
def AO_PEAK_MAG : Fld := ⟨R.AO_PEAK, 0, 31⟩
def STATUS_TWN_PHASE : Fld := ⟨R.STATUS_TWN, 8, 4⟩
def STATUS_TWN_OK_PIN : Fld := ⟨R.STATUS_TWN, 7, 1⟩
def STATUS_TWN_ACT_PIN : Fld := ⟨R.STATUS_TWN, 6, 1⟩
def STATUS_TWN_PEER_OK : Fld := ⟨R.STATUS_TWN, 5, 1⟩
def STATUS_TWN_LINK : Fld := ⟨R.STATUS_TWN, 4, 1⟩
def STATUS_TWN_SIDE : Fld := ⟨R.STATUS_TWN, 3, 1⟩
def STATUS_TWN_STATE : Fld := ⟨R.STATUS_TWN, 0, 3⟩
def TWN_CFG_EN : Fld := ⟨R.TWN_CFG, 31, 1⟩
def TWN_CFG_SIDE : Fld := ⟨R.TWN_CFG, 30, 1⟩
def TWN_CFG_LINKTAKE : Fld := ⟨R.TWN_CFG, 29, 1⟩
def TWN_CFG_COLDTAKE : Fld := ⟨R.TWN_CFG, 28, 1⟩
def TWN_CFG_LAG : Fld := ⟨R.TWN_CFG, 24, 4⟩
def TWN_CFG_MISN : Fld := ⟨R.TWN_CFG, 20, 4⟩
def TWN_CFG_HBTO : Fld := ⟨R.TWN_CFG, 8, 8⟩
def TWN_CTRL_RESYNC : Fld := ⟨R.TWN_CTRL, 5, 1⟩
def TWN_CTRL_GIVEUP : Fld := ⟨R.TWN_CTRL, 4, 1⟩
def TWN_CTRL_TAKE : Fld := ⟨R.TWN_CTRL, 3, 1⟩
def TWN_CTRL_TIMED : Fld := ⟨R.TWN_CTRL, 2, 1⟩
def TWN_CTRL_SWITCH : Fld := ⟨R.TWN_CTRL, 1, 1⟩
def TWN_CTRL_PAIR : Fld := ⟨R.TWN_CTRL, 0, 1⟩
def TWN_FAULT_VALID : Fld := ⟨R.TWN_FAULT, 31, 1⟩
def TWN_FAULT_PEER : Fld := ⟨R.TWN_FAULT, 30, 1⟩
def TWN_FAULT_CAUSE : Fld := ⟨R.TWN_FAULT, 24, 4⟩
def TWN_FAULT_BLK : Fld := ⟨R.TWN_FAULT, 0, 24⟩
def TWN_LINK_SKEW : Fld := ⟨R.TWN_LINK, 24, 8⟩
def TWN_LINK_DELAY : Fld := ⟨R.TWN_LINK, 8, 16⟩
def TWN_LINK_TXUP : Fld := ⟨R.TWN_LINK, 2, 2⟩
def TWN_LINK_RXUP : Fld := ⟨R.TWN_LINK, 0, 2⟩
def TWN_VERIFY_CLEAN : Fld := ⟨R.TWN_VERIFY, 28, 4⟩
def TWN_VERIFY_MISM : Fld := ⟨R.TWN_VERIFY, 0, 24⟩
def STATUS_MS_LOCKED : Fld := ⟨R.STATUS_MS, 16, 14⟩
def STATUS_MS_DR_PRESENT : Fld := ⟨R.STATUS_MS, 3, 1⟩
def STATUS_MS_SCHK_OK : Fld := ⟨R.STATUS_MS, 2, 1⟩
def STATUS_MS_SCRUB_RUN : Fld := ⟨R.STATUS_MS, 1, 1⟩
def STATUS_MS_REMAP : Fld := ⟨R.STATUS_MS, 0, 1⟩
def MS_REMAP_SWAP : Fld := ⟨R.MS_REMAP, 0, 1⟩
def MS_LOCK_TO_CYC : Fld := ⟨R.MS_LOCK_TO, 0, 16⟩
def MS_AGE_CYC : Fld := ⟨R.MS_AGE, 0, 16⟩
def MS_SCRUB_EN : Fld := ⟨R.MS_SCRUB, 31, 1⟩
def MS_SCRUB_PERIOD : Fld := ⟨R.MS_SCRUB, 0, 5⟩
def MS_SCRUB_POS_STORE : Fld := ⟨R.MS_SCRUB_POS, 28, 3⟩
def MS_SCHK_EN : Fld := ⟨R.MS_SCHK, 31, 1⟩
def MS_SCHK_LAST_OK : Fld := ⟨R.MS_SCHK, 30, 1⟩
def MS_SCHK_CYC : Fld := ⟨R.MS_SCHK, 16, 12⟩
def MS_SCHK_FAIL_TGT : Fld := ⟨R.MS_SCHK, 0, 4⟩
def MS_UE_INFO_VALID : Fld := ⟨R.MS_UE_INFO, 31, 1⟩
def MS_UE_INFO_STORE : Fld := ⟨R.MS_UE_INFO, 28, 3⟩
def MS_UE_INFO_MASTER : Fld := ⟨R.MS_UE_INFO, 24, 4⟩
def MS_UE_INFO_OFFSET : Fld := ⟨R.MS_UE_INFO, 0, 22⟩
def TG_LOCK_VALID : Fld := ⟨R.TG_LOCK, 31, 1⟩
def TG_LOCK_MASTER : Fld := ⟨R.TG_LOCK, 0, 4⟩
def TG_WAIT_PEAK_CYC : Fld := ⟨R.TG_WAIT_PEAK, 0, 24⟩
def DR_CFG_CHSIZE : Fld := ⟨R.DR_CFG, 0, 4⟩
def DR_CFG_SEGSZ : Fld := ⟨R.DR_CFG, 8, 8⟩
def DR_STATUS_VALID : Fld := ⟨R.DR_STATUS, 16, 8⟩
def DR_STATUS_TRAIN_LOST : Fld := ⟨R.DR_STATUS, 9, 1⟩
def DR_STATUS_INIT_BUSY : Fld := ⟨R.DR_STATUS, 8, 1⟩
def DR_STATUS_STATE : Fld := ⟨R.DR_STATUS, 0, 3⟩
def DR_CTRL_RETRAIN : Fld := ⟨R.DR_CTRL, 0, 1⟩
def DR_SEG_USE : Fld := ⟨R.DR_SEG, 0, 8⟩
def DR_TRACK_PERIOD : Fld := ⟨R.DR_TRACK, 0, 8⟩
def DR_RTP_CFG_HI : Fld := ⟨R.DR_RTP_CFG, 16, 8⟩
def DR_RTP_CFG_LO : Fld := ⟨R.DR_RTP_CFG, 0, 8⟩
def DR_RTP_STAT_PANIC : Fld := ⟨R.DR_RTP_STAT, 31, 1⟩
def DR_RTP_STAT_WF : Fld := ⟨R.DR_RTP_STAT, 16, 9⟩
def DR_RTP_STAT_RD : Fld := ⟨R.DR_RTP_STAT, 0, 9⟩
def DR_UE_ADDR_LO_VALID : Fld := ⟨R.DR_UE_ADDR_LO, 0, 1⟩
def DR_BW_LAST_COUNT : Fld := ⟨R.DR_BW_LAST, 0, 24⟩
def STATUS_MBX_OCC : Fld := ⟨R.STATUS_MBX, 0, 6⟩
def STATUS_MBX_HELD : Fld := ⟨R.STATUS_MBX, 8, 7⟩
def MB_AUD_STATUS_FAIL_COUNT : Fld := ⟨R.MB_AUD_STATUS, 16, 16⟩
def MB_AUD_STATUS_LAST_OK : Fld := ⟨R.MB_AUD_STATUS, 0, 1⟩
def MB_CNT_CLR_ALL : Fld := ⟨R.MB_CNT_CLR, 0, 1⟩
def MB_CFG_TO : Fld := ⟨R.MB_CFG, 16, 16⟩
def MB_CFG_SEND : Fld := ⟨R.MB_CFG, 8, 5⟩
def MB_CFG_RECV : Fld := ⟨R.MB_CFG, 0, 5⟩
def MB_STAT_OCC : Fld := ⟨R.MB_STAT, 31, 1⟩
def MB_STAT_SRST : Fld := ⟨R.MB_STAT, 30, 1⟩
def MB_STAT_CAUSE : Fld := ⟨R.MB_STAT, 28, 2⟩
def MB_STAT_TOUT : Fld := ⟨R.MB_STAT, 27, 1⟩
def MB_STAT_LEN : Fld := ⟨R.MB_STAT, 0, 5⟩
def MB_DB_LEN : Fld := ⟨R.MB_DB, 0, 5⟩
def STATUS_HIF_LINK : Fld := ⟨R.STATUS_HIF, 0, 1⟩
def STATUS_HIF_SPEED : Fld := ⟨R.STATUS_HIF, 1, 2⟩
def STATUS_HIF_WIDTH : Fld := ⟨R.STATUS_HIF, 3, 2⟩
def STATUS_HIF_BOOTSEL : Fld := ⟨R.STATUS_HIF, 8, 2⟩
def HIF_CTRL_SIDE_RST : Fld := ⟨R.HIF_CTRL, 0, 1⟩
def HIF_PCI_ID_ID : Fld := ⟨R.HIF_PCI_ID, 16, 16⟩
def HIF_PCI_ID_ID0 : Fld := ⟨R.HIF_PCI_ID, 0, 16⟩
def HIF_I2C_STAT_ERR : Fld := ⟨R.HIF_I2C_STAT, 0, 1⟩
def HIF_I2C_STAT_NOPWR : Fld := ⟨R.HIF_I2C_STAT, 1, 1⟩
def HIF_I2C_STAT_ADDR : Fld := ⟨R.HIF_I2C_STAT, 8, 7⟩
def QS_CFG_WIDTH : Fld := ⟨R.QS_CFG, 0, 2⟩
def QS_CFG_DIV : Fld := ⟨R.QS_CFG, 8, 8⟩
def QS_CMD_GO : Fld := ⟨R.QS_CMD, 31, 1⟩
def QS_CMD_WRITE : Fld := ⟨R.QS_CMD, 30, 1⟩
def QS_CMD_ADDR : Fld := ⟨R.QS_CMD, 28, 2⟩
def QS_CMD_DUMMY : Fld := ⟨R.QS_CMD, 24, 4⟩
def QS_CMD_LEN : Fld := ⟨R.QS_CMD, 8, 13⟩
def QS_CMD_OPC : Fld := ⟨R.QS_CMD, 0, 8⟩
def QS_STAT_BUSY : Fld := ⟨R.QS_STAT, 31, 1⟩
def QS_STAT_FIFO : Fld := ⟨R.QS_STAT, 0, 7⟩
def CFG_STATUS_WR_IGN : Fld := ⟨R.CFG_STATUS, 12, 1⟩
def CFG_STATUS_TRIED : Fld := ⟨R.CFG_STATUS, 8, 2⟩
def CFG_STATUS_SRC : Fld := ⟨R.CFG_STATUS, 4, 2⟩
def CFG_STATUS_STATE : Fld := ⟨R.CFG_STATUS, 0, 3⟩
def CFG_FAIL_VALID : Fld := ⟨R.CFG_FAIL, 31, 1⟩
def CFG_FAIL_CAUSE : Fld := ⟨R.CFG_FAIL, 24, 5⟩
def CFG_FAIL_DETAIL : Fld := ⟨R.CFG_FAIL, 0, 16⟩
def CFG_FAIL_CAR_TYPE : Fld := ⟨R.CFG_FAIL_CAR, 24, 8⟩
def CFG_FAIL_CAR_SEQ : Fld := ⟨R.CFG_FAIL_CAR, 0, 16⟩
def STATUS_SYS_RES_PEND : Fld := ⟨R.STATUS_SYS, 12, 1⟩
def STATUS_SYS_STEP : Fld := ⟨R.STATUS_SYS, 8, 3⟩
def STATUS_SYS_TARGET : Fld := ⟨R.STATUS_SYS, 4, 3⟩
def STATUS_SYS_TRANS : Fld := ⟨R.STATUS_SYS, 3, 1⟩
def STATUS_SYS_MODE : Fld := ⟨R.STATUS_SYS, 0, 3⟩
def SYS_MODE_REQ_MODE : Fld := ⟨R.SYS_MODE_REQ, 0, 3⟩
def SYS_MODE_REQ_RAMP : Fld := ⟨R.SYS_MODE_REQ, 8, 9⟩
def SYS_RST_KEY : Fld := ⟨R.SYS_RST, 8, 8⟩
def SYS_RST_WARM : Fld := ⟨R.SYS_RST, 0, 1⟩
def SYS_SIDING_VRET : Fld := ⟨R.SYS_SIDING, 31, 1⟩
def SYS_SIDING_PIN : Fld := ⟨R.SYS_SIDING, 0, 5⟩
def STATUS_DP_MAIN : Fld := ⟨R.STATUS_DP, 0, 1⟩
def STATUS_DP_RSTEP : Fld := ⟨R.STATUS_DP, 1, 3⟩
def DP_CTRL_DEPOT : Fld := ⟨R.DP_CTRL, 0, 1⟩
def DP_CTRL_RAMP : Fld := ⟨R.DP_CTRL, 8, 9⟩
def DP_WAKE_EN_WAKEN : Fld := ⟨R.DP_WAKE_EN, 0, 1⟩
def DP_WAKE_EN_I2C : Fld := ⟨R.DP_WAKE_EN, 1, 1⟩
def DP_WAKE_EN_ALARM : Fld := ⟨R.DP_WAKE_EN, 3, 1⟩
def DP_RSEQ_D_IO : Fld := ⟨R.DP_RSEQ, 0, 5⟩
def DP_RSEQ_D_ANA : Fld := ⟨R.DP_RSEQ, 8, 5⟩
def DP_RSEQ_D_REL : Fld := ⟨R.DP_RSEQ, 16, 5⟩
def DP_RST_CAUSE_POR : Fld := ⟨R.DP_RST_CAUSE, 0, 1⟩
def DP_RST_CAUSE_PIN : Fld := ⟨R.DP_RST_CAUSE, 1, 1⟩
def DP_RST_CAUSE_WARM : Fld := ⟨R.DP_RST_CAUSE, 2, 1⟩
def DP_RST_CAUSE_GLITCH : Fld := ⟨R.DP_RST_CAUSE, 3, 1⟩
def DP_RST_CAUSE_DEPOT : Fld := ⟨R.DP_RST_CAUSE, 4, 1⟩
def DP_RTC_LO_SUB : Fld := ⟨R.DP_RTC_LO, 0, 15⟩
def STATUS_SEC_PGM_BUSY : Fld := ⟨R.STATUS_SEC, 12, 1⟩
def STATUS_SEC_KEYSET : Fld := ⟨R.STATUS_SEC, 11, 1⟩
def STATUS_SEC_UNLOCK_DIS : Fld := ⟨R.STATUS_SEC, 10, 1⟩
def STATUS_SEC_UNLOCKED : Fld := ⟨R.STATUS_SEC, 9, 1⟩
def STATUS_SEC_ATTACH : Fld := ⟨R.STATUS_SEC, 8, 1⟩
def STATUS_SEC_LEVEL : Fld := ⟨R.STATUS_SEC, 4, 2⟩
def STATUS_SEC_LC : Fld := ⟨R.STATUS_SEC, 0, 2⟩
def SEC_LC_REQ_KEY : Fld := ⟨R.SEC_LC_REQ, 8, 8⟩
def SEC_LC_REQ_TARGET : Fld := ⟨R.SEC_LC_REQ, 0, 2⟩
def SEC_FAIL_COUNT : Fld := ⟨R.SEC_FAIL, 0, 4⟩
def SEC_DBG_RELOCK : Fld := ⟨R.SEC_DBG, 0, 1⟩
def FUSE_PGM_GO : Fld := ⟨R.FUSE_PGM, 31, 1⟩
def FUSE_PGM_KEY : Fld := ⟨R.FUSE_PGM, 8, 8⟩
def FUSE_PGM_WORD : Fld := ⟨R.FUSE_PGM, 0, 7⟩
def SYS_REV_FAMILY : Fld := ⟨R.SYS_REV, 16, 16⟩
def SYS_REV_LETTER : Fld := ⟨R.SYS_REV, 4, 4⟩
def SYS_REV_DIGIT : Fld := ⟨R.SYS_REV, 0, 4⟩
def SYS_CAPS_STAT_PKGSENSE : Fld := ⟨R.SYS_CAPS_STAT, 2, 1⟩
def SYS_CAPS_STAT_TDM16 : Fld := ⟨R.SYS_CAPS_STAT, 1, 1⟩
def SYS_CAPS_STAT_CAPERR : Fld := ⟨R.SYS_CAPS_STAT, 0, 1⟩

end F

/-- Event bits: the block and the bit. -/
structure EvBit where
  blk : Nat
  bit : Nat
  deriving DecidableEq, Repr

namespace Ev

def GSV_NODE_WR_IGN : EvBit := ⟨4, 9⟩
def GSV_RING_ERR : EvBit := ⟨4, 8⟩
def GSV_ARR_CLAMP : EvBit := ⟨4, 7⟩
def GSV_SOLVE_LATE : EvBit := ⟨4, 6⟩
def GSV_CARRY : EvBit := ⟨4, 5⟩
def GSV_AUDIT : EvBit := ⟨4, 4⟩
def GSV_UPD_LATE : EvBit := ⟨4, 3⟩
def GSV_UPD_DROP : EvBit := ⟨4, 2⟩
def GSV_UPD_REJ : EvBit := ⟨4, 1⟩
def CRM_AUDIT : EvBit := ⟨3, 11⟩
def CRM_COPY_DONE : EvBit := ⟨3, 10⟩
def CRM_NODE_ECC : EvBit := ⟨3, 9⟩
def CRM_BLK_SKIP : EvBit := ⟨3, 8⟩
def CRM_BLK_ERR : EvBit := ⟨3, 7⟩
def CRM_BLK_DONE : EvBit := ⟨3, 6⟩
def CRM_SWAP_LATE : EvBit := ⟨3, 5⟩
def CRM_SWAP_REPL : EvBit := ⟨3, 4⟩
def CRM_SWAP_DONE : EvBit := ⟨3, 3⟩
def CRM_GAIN_LIM : EvBit := ⟨3, 2⟩
def CRM_CLIP : EvBit := ⟨3, 1⟩
def CCE_AUDIT : EvBit := ⟨5, 13⟩
def CCE_TAIL_WAIT : EvBit := ⟨5, 12⟩
def CCE_COEF_ECC : EvBit := ⟨5, 11⟩
def CCE_BFP_UFL : EvBit := ⟨5, 10⟩
def CCE_FLD_TRUNC : EvBit := ⟨5, 9⟩
def CCE_FLD_ERR : EvBit := ⟨5, 8⟩
def CCE_FLD_DONE : EvBit := ⟨5, 7⟩
def CCE_COEF_BUSY : EvBit := ⟨5, 6⟩
def CCE_SWAP_LATE : EvBit := ⟨5, 5⟩
def CCE_SWAP_REPL : EvBit := ⟨5, 4⟩
def CCE_SWAP_DONE : EvBit := ⟨5, 3⟩
def CCE_DLY_LIM : EvBit := ⟨5, 2⟩
def CCE_CLIP : EvBit := ⟨5, 1⟩
def SB_TRC_FULL : EvBit := ⟨2, 12⟩
def SB_QAUDIT : EvBit := ⟨2, 11⟩
def SB_DAUDIT : EvBit := ⟨2, 10⟩
def SB_GLD_ERR : EvBit := ⟨2, 9⟩
def SB_GLD_DONE : EvBit := ⟨2, 8⟩
def SB_GSWAP_INV : EvBit := ⟨2, 7⟩
def SB_GSWAP_LATE : EvBit := ⟨2, 6⟩
def SB_GSWAP_DONE : EvBit := ⟨2, 5⟩
def SB_OVERRUN : EvBit := ⟨2, 4⟩
def SB_DROP : EvBit := ⟨2, 3⟩
def SB_DEADLINE : EvBit := ⟨2, 2⟩
def SB_ABORT : EvBit := ⟨2, 1⟩
def TIO_AUDIT : EvBit := ⟨6, 19⟩
def TIO_SRC : EvBit := ⟨6, 18⟩
def TIO_AESRX : EvBit := ⟨6, 16⟩
def TIO_PORT : EvBit := ⟨6, 0⟩
def NET_NB_AUDIT : EvBit := ⟨7, 9⟩
def NET_AUDIT : EvBit := ⟨7, 8⟩
def NET_MD : EvBit := ⟨7, 7⟩
def NET_NB_EMPTY : EvBit := ⟨7, 6⟩
def NET_STREAM : EvBit := ⟨7, 5⟩
def NET_PORT : EvBit := ⟨7, 2⟩
def TU_TC_OVF : EvBit := ⟨8, 10⟩
def TU_TP_SKIP : EvBit := ⟨8, 9⟩
def TU_TP_LATE : EvBit := ⟨8, 8⟩
def TU_REALIGN_IGN : EvBit := ⟨8, 7⟩
def TU_STEP_REF : EvBit := ⟨8, 6⟩
def TU_FLIM : EvBit := ⟨8, 5⟩
def TU_TI_STATE : EvBit := ⟨8, 4⟩
def TU_SWITCH : EvBit := ⟨8, 3⟩
def TU_STEP : EvBit := ⟨8, 2⟩
def RU_QL : EvBit := ⟨9, 8⟩
def RU_FORCE_IGN : EvBit := ⟨9, 7⟩
def RU_QUAL : EvBit := ⟨9, 6⟩
def RU_DISQ : EvBit := ⟨9, 5⟩
def RU_RANK_CONFLICT : EvBit := ⟨9, 4⟩
def RU_HOLDOVER : EvBit := ⟨9, 3⟩
def RU_SWITCH : EvBit := ⟨9, 2⟩
def RU_STATE : EvBit := ⟨9, 1⟩
def AI_CFG : EvBit := ⟨10, 15⟩
def AI_AUDIT : EvBit := ⟨10, 14⟩
def AI_OVR : EvBit := ⟨10, 13⟩
def AI_SYNC_LATE : EvBit := ⟨10, 12⟩
def AI_SYNC_DONE : EvBit := ⟨10, 11⟩
def AI_MB_DONE : EvBit := ⟨10, 10⟩
def AI_MB_OPEN : EvBit := ⟨10, 9⟩
def AI_MB_OC : EvBit := ⟨10, 8⟩
def AI_INPUT : EvBit := ⟨10, 0⟩
def AO_JACK : EvBit := ⟨11, 15⟩
def AO_UND : EvBit := ⟨11, 14⟩
def AO_CFG : EvBit := ⟨11, 13⟩
def AO_AUDIT : EvBit := ⟨11, 12⟩
def AO_OUT : EvBit := ⟨11, 0⟩
def TWN_HEALTH : EvBit := ⟨12, 12⟩
def TWN_PAIR_ERR : EvBit := ⟨12, 11⟩
def TWN_XFER_ERR : EvBit := ⟨12, 10⟩
def TWN_SYNCED : EvBit := ⟨12, 9⟩
def TWN_WR_IGN : EvBit := ⟨12, 8⟩
def TWN_SKEW : EvBit := ⟨12, 7⟩
def TWN_LINK : EvBit := ⟨12, 6⟩
def TWN_MISMATCH : EvBit := ⟨12, 5⟩
def TWN_TAKEOVER : EvBit := ⟨12, 4⟩
def TWN_PEER_FAULT : EvBit := ⟨12, 3⟩
def TWN_FAULT : EvBit := ⟨12, 2⟩
def TWN_STATE : EvBit := ⟨12, 1⟩
def MS_DR_TRAIN_FAIL : EvBit := ⟨13, 13⟩
def MS_DR_INIT_DONE : EvBit := ⟨13, 12⟩
def MS_DR_TRAIN_DONE : EvBit := ⟨13, 11⟩
def MS_DR_TRAIN_LOST : EvBit := ⟨13, 10⟩
def MS_DR_PANIC : EvBit := ⟨13, 9⟩
def MS_DR_INVAL : EvBit := ⟨13, 8⟩
def MS_DR_UE : EvBit := ⟨13, 7⟩
def MS_DR_CE : EvBit := ⟨13, 6⟩
def MS_SCHK_FAIL : EvBit := ⟨13, 5⟩
def MS_LOCK_ERR : EvBit := ⟨13, 4⟩
def MS_LOCK_TO : EvBit := ⟨13, 3⟩
def MS_UE : EvBit := ⟨13, 2⟩
def MS_CE : EvBit := ⟨13, 1⟩
def MBX_LK_BRK : EvBit := ⟨14, 7⟩
def MBX_LK_ERR : EvBit := ⟨14, 6⟩
def MBX_AUDIT : EvBit := ⟨14, 5⟩
def MBX_REFUSED : EvBit := ⟨14, 4⟩
def MBX_TIMEOUT : EvBit := ⟨14, 3⟩
def MBX_EMPTY : EvBit := ⟨14, 2⟩
def MBX_FULL : EvBit := ⟨14, 1⟩
def HIF_PCIE_LINK : EvBit := ⟨15, 1⟩
def HIF_PCIE_RST : EvBit := ⟨15, 2⟩
def HIF_QS_DONE : EvBit := ⟨15, 4⟩
def HIF_QS_ERR : EvBit := ⟨15, 5⟩
def HIF_DMA_AUDIT : EvBit := ⟨15, 6⟩
def HIF_GPIO : EvBit := ⟨15, 3⟩
def SYS_CFG_DONE : EvBit := ⟨0, 11⟩
def SYS_CFG_FAIL : EvBit := ⟨0, 10⟩
def SYS_BLOCK_LATE : EvBit := ⟨0, 9⟩
def SYS_TKA_FAIL : EvBit := ⟨0, 8⟩
def SYS_WAKE : EvBit := ⟨0, 6⟩
def SYS_SEQ_REV : EvBit := ⟨0, 5⟩
def SYS_REQ_IGN : EvBit := ⟨0, 4⟩
def SYS_RESUME_LATE : EvBit := ⟨0, 3⟩
def SYS_HARD_STOP : EvBit := ⟨0, 2⟩
def SYS_MODE_DONE : EvBit := ⟨0, 1⟩
def DP_WAKE : EvBit := ⟨16, 1⟩
def DP_ALARM : EvBit := ⟨16, 2⟩
def DP_RESET : EvBit := ⟨16, 3⟩
def SEC_ATTACH : EvBit := ⟨1, 6⟩
def SEC_GLITCH : EvBit := ⟨1, 5⟩
def SEC_UNLOCK_FAIL : EvBit := ⟨1, 4⟩
def SEC_PGM_ERR : EvBit := ⟨1, 3⟩
def SEC_PGM_DONE : EvBit := ⟨1, 2⟩
def SEC_LC_REFUSED : EvBit := ⟨1, 1⟩

end Ev

/-- The rows of the SYS map. -/
def rowsSYS : List RegRow := [
  ⟨R.TKA_CTRL, 1, 1, 0x1, 0x0⟩,
  ⟨R.TKA_STATUS, 1, 1, 0x0, 0x0⟩,
  ⟨R.TKA_FIRST, 1, 1, 0x0, 0x0⟩,
  ⟨R.TKA_QSEL, 1, 1, 0x1FF, 0x0⟩,
  ⟨R.TKA_QDEPTH, 1, 1, 0x0, 0x0⟩,
  ⟨R.TKA_QHELD, 1, 1, 0x0, 0x0⟩,
  ⟨R.TKA_QFLIGHT, 1, 1, 0x0, 0x0⟩,
  ⟨R.TKA_QFILL, 1, 1, 0x0, 0x0⟩,
  ⟨R.DEP_IDX_LO, 1, 1, 0x0, 0x0⟩,
  ⟨R.DEP_IDX_HI, 1, 1, 0x0, 0x0⟩,
  ⟨R.LATE_COUNT, 1, 1, 0x0, 0x0⟩,
  ⟨R.LATE_FIRST, 1, 1, 0x0, 0x0⟩,
  ⟨R.TKA_FMAP, 16, 1, 0x0, 0xFFFFFFFF⟩,
  ⟨R.CFG_STATUS, 1, 1, 0x0, 0x0⟩,
  ⟨R.CFG_FAIL, 1, 1, 0x0, 0x0⟩,
  ⟨R.CFG_FAIL_CAR, 1, 1, 0x0, 0x0⟩,
  ⟨R.CFG_CHECK, 1, 1, 0x0, 0x0⟩,
  ⟨R.CFG_LEN, 1, 1, 0x0, 0x0⟩,
  ⟨R.CFG_PROG, 1, 1, 0x0, 0x0⟩,
  ⟨R.EVT_SYS, 1, 1, 0x0, 0xF7E⟩,
  ⟨R.EVT_EN_SYS, 1, 1, 0xF7E, 0x0⟩,
  ⟨R.STATUS_SYS, 1, 1, 0x0, 0x0⟩,
  ⟨R.SYS_MODE_REQ, 1, 1, 0x0, 0x0⟩,
  ⟨R.SYS_RESUME_AT_LO, 1, 1, 0xFFFFFFE0, 0x0⟩,
  ⟨R.SYS_RESUME_AT_HI, 1, 1, 0xFFFFFFFF, 0x0⟩,
  ⟨R.SYS_HALT_BLK_LO, 1, 1, 0x0, 0x0⟩,
  ⟨R.SYS_HALT_BLK_HI, 1, 1, 0x0, 0x0⟩,
  ⟨R.SYS_RESUME_BLK_LO, 1, 1, 0x0, 0x0⟩,
  ⟨R.SYS_RESUME_BLK_HI, 1, 1, 0x0, 0x0⟩,
  ⟨R.SYS_RST, 1, 1, 0x0, 0x0⟩,
  ⟨R.SYS_BLKRST, 1, 1, 0x0, 0x0⟩,
  ⟨R.SYS_SIDING, 1, 1, 0x8000001F, 0x0⟩,
  ⟨R.SYS_DIE_NAME0, 1, 1, 0x0, 0x0⟩,
  ⟨R.SYS_DIE_NAME1, 1, 1, 0x0, 0x0⟩,
  ⟨R.SYS_REV, 1, 1, 0x0, 0x0⟩,
  ⟨R.SYS_CAPS, 1, 1, 0x0, 0x0⟩,
  ⟨R.SYS_CAPS_STAT, 1, 1, 0x0, 0x0⟩,
  ⟨R.SYS_LIMIT0, 1, 1, 0x0, 0x0⟩,
  ⟨R.SYS_LIMIT1, 1, 1, 0x0, 0x0⟩
]

/-- The rows of the SEC map. -/
def rowsSEC : List RegRow := [
  ⟨R.FUSE_SEL, 1, 1, 0x8000FFFF, 0x0⟩,
  ⟨R.EVT_SEC, 1, 1, 0x0, 0x7E⟩,
  ⟨R.EVT_EN_SEC, 1, 1, 0x7E, 0x0⟩,
  ⟨R.STATUS_SEC, 1, 1, 0x0, 0x0⟩,
  ⟨R.SEC_LC_REQ, 1, 1, 0x0, 0x0⟩,
  ⟨R.SEC_FAIL, 1, 1, 0x0, 0x0⟩,
  ⟨R.SEC_DBG, 1, 1, 0x0, 0x0⟩,
  ⟨R.FUSE_PGM, 1, 1, 0x0, 0x0⟩,
  ⟨R.FUSE_PGM_DATA, 1, 1, 0xFFFFFFFF, 0x0⟩,
  ⟨R.SEC_DEVID_LO, 1, 1, 0x0, 0x0⟩,
  ⟨R.SEC_DEVID_HI, 1, 1, 0x0, 0x0⟩,
  ⟨R.FUSE_MASK, 1, 1, 0x0, 0x0⟩,
  ⟨R.FUSE_DATA, 1, 1, 0x0, 0x0⟩
]

/-- The rows of the SB map. -/
def rowsSB : List RegRow := [
  ⟨R.ITEM_SEL, 1, 1, 0x8000FFFF, 0x0⟩,
  ⟨R.EVT_SB, 1, 1, 0x0, 0x1FFE⟩,
  ⟨R.EVT_EN_SB, 1, 1, 0x1FFE, 0x0⟩,
  ⟨R.STATUS_SB, 1, 1, 0x0, 0x0⟩,
  ⟨R.SB_GINFO, 1, 1, 0x0, 0x0⟩,
  ⟨R.SB_GSWAP, 1, 1, 0x0, 0x0⟩,
  ⟨R.SB_GSWAP_AT_LO, 1, 1, 0xFFFFFFFF, 0x0⟩,
  ⟨R.SB_GSWAP_AT_HI, 1, 1, 0xFFFFFFFF, 0x0⟩,
  ⟨R.SB_GLD_ADDR_LO, 1, 1, 0xFFFFFFFC, 0x0⟩,
  ⟨R.SB_GLD_ADDR_HI, 1, 1, 0xFF, 0x0⟩,
  ⟨R.SB_GLD_CTRL, 1, 1, 0x0, 0x0⟩,
  ⟨R.SB_ENG, 1, 1, 0x0, 0x0⟩,
  ⟨R.SB_TT_USE, 1, 1, 0x0, 0x0⟩,
  ⟨R.SB_INST_LAST, 1, 1, 0x0, 0x0⟩,
  ⟨R.SB_INST_PEAK, 1, 1, 0x0, 0x0⟩,
  ⟨R.SB_DISP_CNT, 1, 1, 0x0, 0x0⟩,
  ⟨R.SB_PREEMPT_CNT, 1, 1, 0x0, 0x0⟩,
  ⟨R.SB_DLMISS_CNT, 1, 1, 0x0, 0x0⟩,
  ⟨R.SB_ABORT_CNT, 1, 1, 0x0, 0x0⟩,
  ⟨R.SB_DROP_CNT, 1, 1, 0x0, 0x0⟩,
  ⟨R.SB_OVRUN_CNT, 1, 1, 0x0, 0x0⟩,
  ⟨R.SB_GSWAP_LATE, 1, 1, 0x0, 0x0⟩,
  ⟨R.SB_LAST_FAULT, 1, 1, 0x0, 0x0⟩,
  ⟨R.SB_DAUD_STATUS, 1, 1, 0x0, 0x0⟩,
  ⟨R.SB_DAUD_FIRST, 1, 1, 0x0, 0x0⟩,
  ⟨R.SB_CNT_CLR, 1, 1, 0x0, 0x0⟩,
  ⟨R.SB_TRC_CTRL, 1, 1, 0xFFFF0003, 0x0⟩,
  ⟨R.SB_TRC_WPTR, 1, 1, 0x0, 0x0⟩,
  ⟨R.SB_TRC_LOST, 1, 1, 0x0, 0x0⟩,
  ⟨R.SB_TRC_SEL, 1, 1, 0x80001FFF, 0x0⟩,
  ⟨R.SB_TRC_W, 4, 1, 0x0, 0x0⟩,
  ⟨R.ITEM_DESC, 8, 1, 0x0, 0x0⟩,
  ⟨R.ITEM_CYC, 1, 1, 0x0, 0x0⟩,
  ⟨R.ITEM_STATE, 1, 1, 0x0, 0x0⟩
]

/-- The rows of the CRM map. -/
def rowsCRM : List RegRow := [
  ⟨R.CRM_ISEL, 1, 1, 0x8000FFFF, 0x0⟩,
  ⟨R.EVT_CRM, 1, 1, 0x0, 0xFFE⟩,
  ⟨R.EVT_EN_CRM, 1, 1, 0xFFE, 0x0⟩,
  ⟨R.STATUS_CRM, 1, 1, 0x0, 0x0⟩,
  ⟨R.CRM_OSEL, 1, 1, 0x8000FFFF, 0x0⟩,
  ⟨R.CRM_CTRL, 1, 1, 0x0, 0x0⟩,
  ⟨R.CRM_DIM, 1, 1, 0x0, 0x0⟩,
  ⟨R.CRM_SWAP, 1, 1, 0x0, 0x0⟩,
  ⟨R.CRM_SWAP_AT_LO, 1, 1, 0xFFFFFFFF, 0x0⟩,
  ⟨R.CRM_SWAP_AT_HI, 1, 1, 0xFFFFFFFF, 0x0⟩,
  ⟨R.CRM_SWAP_QINFO, 1, 1, 0x0, 0x0⟩,
  ⟨R.CRM_SWAP_END, 1, 1, 0x0, 0x0⟩,
  ⟨R.CRM_SWAP_CNT, 1, 1, 0x0, 0x0⟩,
  ⟨R.CRM_SWAP_REPL_CNT, 1, 1, 0x0, 0x0⟩,
  ⟨R.CRM_SWAP_NOP_CNT, 1, 1, 0x0, 0x0⟩,
  ⟨R.CRM_SWAP_LATE_CNT, 1, 1, 0x0, 0x0⟩,
  ⟨R.CRM_ACT_LAST, 1, 1, 0x0, 0x0⟩,
  ⟨R.CRM_XF_LAST, 1, 1, 0x0, 0x0⟩,
  ⟨R.CRM_CYC_LAST, 1, 1, 0x0, 0x0⟩,
  ⟨R.CRM_CYC_PEAK, 1, 1, 0x0, 0x0⟩,
  ⟨R.CRM_GAINLIM_CNT, 1, 1, 0x0, 0x0⟩,
  ⟨R.CRM_ECC_CNT, 1, 1, 0x0, 0x0⟩,
  ⟨R.CRM_ECC_NODE, 1, 1, 0x0, 0x0⟩,
  ⟨R.CRM_BLK_ADDR_LO, 1, 1, 0xFFFFFFF8, 0x0⟩,
  ⟨R.CRM_BLK_ADDR_HI, 1, 1, 0xFF, 0x0⟩,
  ⟨R.CRM_BLK_COUNT, 1, 1, 0x1FFFFF, 0x0⟩,
  ⟨R.CRM_BLK_CTRL, 1, 1, 0x0, 0x0⟩,
  ⟨R.CRM_BLK_DONE, 1, 1, 0x0, 0x0⟩,
  ⟨R.CRM_BLK_SKIP, 1, 1, 0x0, 0x0⟩,
  ⟨R.CRM_CNT_CLR, 1, 1, 0x0, 0x0⟩,
  ⟨R.CRM_CLIP, 32, 1, 0x0, 0xFFFFFFFF⟩,
  ⟨R.NODE_A_GAIN, 1, 1, 0x0, 0x0⟩,
  ⟨R.NODE_A_DLY, 1, 1, 0x0, 0x0⟩,
  ⟨R.NODE_B_GAIN, 1, 1, 0x0, 0x0⟩,
  ⟨R.NODE_B_DLY, 1, 1, 0x0, 0x0⟩,
  ⟨R.NODE_LIVE_GAIN, 1, 1, 0x0, 0x0⟩,
  ⟨R.NODE_LIVE_DLY, 1, 1, 0x0, 0x0⟩,
  ⟨R.INPUT_INFO, 1, 1, 0x0, 0x0⟩,
  ⟨R.INPUT_RAMP, 1, 1, 0x0, 0x0⟩,
  ⟨R.INPUT_ACTIVE, 1, 1, 0x0, 0x0⟩,
  ⟨R.FEED_CLIPCNT, 1, 1, 0x0, 0x0⟩,
  ⟨R.FEED_PEAK, 1, 1, 0x0, 0x0⟩,
  ⟨R.FEED_ACTIVE, 1, 1, 0x0, 0x0⟩,
  ⟨R.NODE_WDLY, 1, 1, 0x7FF, 0x0⟩,
  ⟨R.NODE_WR, 1, 1, 0x0, 0x0⟩
]

/-- The rows of the GSV map. -/
def rowsGSV : List RegRow := [
  ⟨R.OBJ_SEL, 1, 1, 0x8000FFFF, 0x0⟩,
  ⟨R.EVT_GSV, 1, 1, 0x0, 0x3FE⟩,
  ⟨R.EVT_EN_GSV, 1, 1, 0x3FE, 0x0⟩,
  ⟨R.STATUS_GSV, 1, 1, 0x0, 0x0⟩,
  ⟨R.GSV_CTRL, 1, 1, 0x7, 0x0⟩,
  ⟨R.GSV_DIST_REF, 1, 1, 0xFFFFFF, 0x0⟩,
  ⟨R.GSV_DIST_LAW, 1, 1, 0x3F, 0x0⟩,
  ⟨R.GSV_SOUND, 1, 1, 0x7FFFF, 0x0⟩,
  ⟨R.GSV_EXTRAP, 1, 1, 0x7FF, 0x0⟩,
  ⟨R.GSV_SIDX_LO, 1, 1, 0x0, 0x0⟩,
  ⟨R.GSV_SIDX_HI, 1, 1, 0x0, 0x0⟩,
  ⟨R.GSV_WR_LAST, 1, 1, 0x0, 0x0⟩,
  ⟨R.GSV_WR_PEAK, 1, 1, 0x0, 0x0⟩,
  ⟨R.GSV_CARRY_CNT, 1, 1, 0x0, 0x0⟩,
  ⟨R.GSV_SLATE_CNT, 1, 1, 0x0, 0x0⟩,
  ⟨R.GSV_SUPER_CNT, 1, 1, 0x0, 0x0⟩,
  ⟨R.GSV_LATEUPD_CNT, 1, 1, 0x0, 0x0⟩,
  ⟨R.GSV_REJ_CNT, 1, 1, 0x0, 0x0⟩,
  ⟨R.GSV_REJ_INFO, 1, 1, 0x0, 0x0⟩,
  ⟨R.GSV_ACLAMP_CNT, 1, 1, 0x0, 0x0⟩,
  ⟨R.GSV_RING_BASE_LO, 1, 1, 0xFFFFFFFF, 0x0⟩,
  ⟨R.GSV_RING_BASE_HI, 1, 1, 0xFFFFFFFF, 0x0⟩,
  ⟨R.GSV_RING_CTRL, 1, 1, 0x1F, 0x0⟩,
  ⟨R.GSV_RING_HEAD, 1, 1, 0xFFFF, 0x0⟩,
  ⟨R.GSV_RING_TAIL, 1, 1, 0x0, 0x0⟩,
  ⟨R.GSV_LAYOUT_INFO, 1, 1, 0x0, 0x0⟩,
  ⟨R.GSV_OBJ_INFO, 1, 1, 0x0, 0x0⟩,
  ⟨R.GSV_CNT_CLR, 1, 1, 0x0, 0x0⟩,
  ⟨R.GSV_LAYOUT_TRI, 1, 1, 0x0, 0x0⟩,
  ⟨R.OBJ_STATE, 1, 1, 0x0, 0x0⟩,
  ⟨R.OBJ_POS_X, 1, 1, 0x0, 0x0⟩,
  ⟨R.OBJ_POS_Y, 1, 1, 0x0, 0x0⟩,
  ⟨R.OBJ_POS_Z, 1, 1, 0x0, 0x0⟩,
  ⟨R.OBJ_TRI, 1, 1, 0x0, 0x0⟩,
  ⟨R.OBJ_DROP, 1, 1, 0x0, 0x0⟩,
  ⟨R.OBJ_CTRL, 1, 1, 0x0, 0x0⟩,
  ⟨R.OBJ_INPUT, 1, 1, 0x0, 0x0⟩,
  ⟨R.OBJ_UPD, 8, 1, 0x0, 0x0⟩
]

/-- The rows of the CCE map. -/
def rowsCCE : List RegRow := [
  ⟨R.FEED_SEL, 1, 1, 0x8000FFFF, 0x0⟩,
  ⟨R.EVT_CCE, 1, 1, 0x0, 0x3FFE⟩,
  ⟨R.EVT_EN_CCE, 1, 1, 0x3FFE, 0x0⟩,
  ⟨R.STATUS_CCE, 1, 1, 0x0, 0x0⟩,
  ⟨R.CCE_DIM, 1, 1, 0x0, 0x0⟩,
  ⟨R.CCE_TAPS, 1, 1, 0x0, 0x0⟩,
  ⟨R.CCE_TAPLIM, 1, 1, 0x0, 0x0⟩,
  ⟨R.CCE_GMUTE, 1, 1, 0x3FF, 0x0⟩,
  ⟨R.CCE_SWAP, 1, 1, 0x0, 0x0⟩,
  ⟨R.CCE_SWAP_GRP, 1, 1, 0xFFFFFFFF, 0x0⟩,
  ⟨R.CCE_SWAP_AT_LO, 1, 1, 0xFFFFFFFF, 0x0⟩,
  ⟨R.CCE_SWAP_AT_HI, 1, 1, 0xFFFFFFFF, 0x0⟩,
  ⟨R.CCE_SWAP_CNT, 1, 1, 0x0, 0x0⟩,
  ⟨R.CCE_SWAP_REPL_CNT, 1, 1, 0x0, 0x0⟩,
  ⟨R.CCE_SWAP_NOP_CNT, 1, 1, 0x0, 0x0⟩,
  ⟨R.CCE_SWAP_LATE_CNT, 1, 1, 0x0, 0x0⟩,
  ⟨R.CCE_CYC_LAST, 1, 1, 0x0, 0x0⟩,
  ⟨R.CCE_CYC_PEAK, 1, 1, 0x0, 0x0⟩,
  ⟨R.CCE_DRAM_LAST, 1, 1, 0x0, 0x0⟩,
  ⟨R.CCE_BFP_UFL_CNT, 1, 1, 0x0, 0x0⟩,
  ⟨R.CCE_TAILWAIT_CNT, 1, 1, 0x0, 0x0⟩,
  ⟨R.CCE_DLYLIM_CNT, 1, 1, 0x0, 0x0⟩,
  ⟨R.CCE_ECC_CNT, 1, 1, 0x0, 0x0⟩,
  ⟨R.CCE_ECC_FEED, 1, 1, 0x0, 0x0⟩,
  ⟨R.CCE_FLD_ADDR_LO, 1, 1, 0xFFFFFFFC, 0x0⟩,
  ⟨R.CCE_FLD_ADDR_HI, 1, 1, 0xFF, 0x0⟩,
  ⟨R.CCE_FLD_COUNT, 1, 1, 0x1FFFF, 0x0⟩,
  ⟨R.CCE_FLD_CTRL, 1, 1, 0x3FF0000, 0x0⟩,
  ⟨R.CCE_FLD_DONE, 1, 1, 0x0, 0x0⟩,
  ⟨R.CCE_DITH_LO, 1, 1, 0x0, 0x0⟩,
  ⟨R.CCE_DITH_HI, 1, 1, 0x0, 0x0⟩,
  ⟨R.CCE_CNT_CLR, 1, 1, 0x0, 0x0⟩,
  ⟨R.CCE_CLIP, 32, 1, 0x0, 0xFFFFFFFF⟩,
  ⟨R.FC_INFO, 1, 1, 0x0, 0x0⟩,
  ⟨R.FC_LAYOUT, 1, 1, 0x0, 0x0⟩,
  ⟨R.FC_DLYCAP, 1, 1, 0x0, 0x0⟩,
  ⟨R.FC_DEST, 4, 1, 0x0, 0x0⟩,
  ⟨R.FC_TRIM, 1, 1, 0x1FFFF, 0x0⟩,
  ⟨R.FC_DLY, 1, 1, 0xFFFF, 0x0⟩,
  ⟨R.FC_SOS_SEL, 1, 1, 0x800001F7, 0x0⟩,
  ⟨R.FC_SOS_COEF, 1, 1, 0xFFFFFFFF, 0x0⟩,
  ⟨R.FC_SOS_BYP, 1, 1, 0xFFFFFFFF, 0x0⟩,
  ⟨R.FC_LIM, 1, 1, 0x8000FFFF, 0x0⟩,
  ⟨R.FC_LIM_TIME, 1, 1, 0x1FFFFFFF, 0x0⟩,
  ⟨R.FC_LIM_GR, 1, 1, 0x0, 0x0⟩,
  ⟨R.FC_MUTE, 1, 1, 0x3FF, 0x0⟩,
  ⟨R.FC_SWAP, 1, 1, 0x0, 0x0⟩,
  ⟨R.FC_SWAP_STAT, 1, 1, 0x0, 0x0⟩,
  ⟨R.FC_STATE, 1, 1, 0x0, 0x0⟩,
  ⟨R.FC_CLIPCNT, 1, 1, 0x0, 0x0⟩,
  ⟨R.FC_PEAK, 1, 1, 0x0, 0x0⟩
]

/-- The rows of the TIO map. -/
def rowsTIO : List RegRow := [
  ⟨R.PORT_SEL, 1, 1, 0x8000FFFF, 0x0⟩,
  ⟨R.EVT_TIO, 1, 1, 0x0, 0xC0000⟩,
  ⟨R.EVT_EN_TIO, 1, 1, 0xFFFFF, 0x0⟩,
  ⟨R.STATUS_TIO, 1, 1, 0x0, 0x0⟩,
  ⟨R.TDM_GCTRL, 1, 1, 0x0, 0x0⟩,
  ⟨R.TDM_GAT_LO, 1, 1, 0xFFFFFFFF, 0x0⟩,
  ⟨R.TDM_GAT_HI, 1, 1, 0xFFFFFFFF, 0x0⟩,
  ⟨R.TIO_CNT_CLR, 1, 1, 0x0, 0x0⟩,
  ⟨R.PT_CFG, 1, 1, 0xFC0F0000, 0x0⟩,
  ⟨R.PT_FMT, 1, 1, 0xE31FFF00, 0x0⟩,
  ⟨R.PT_DIV, 1, 1, 0x7FF00FF, 0x0⟩,
  ⟨R.PT_DIVF, 1, 1, 0xFFFFFFFF, 0x0⟩,
  ⟨R.PT_SIL, 1, 1, 0xFFFFFFFF, 0x0⟩,
  ⟨R.PT_STATUS, 1, 1, 0x0, 0x0⟩,
  ⟨R.PT_EVT, 1, 1, 0x0, 0x7FF⟩,
  ⟨R.PT_EVT_EN, 1, 1, 0x7FF, 0x0⟩,
  ⟨R.PT_PERIOD, 1, 1, 0x0, 0x0⟩,
  ⟨R.PT_PHASE, 1, 1, 0x0, 0x0⟩,
  ⟨R.PT_LOSS_CNT, 1, 1, 0x0, 0x0⟩,
  ⟨R.PT_OVR_CNT, 1, 1, 0x0, 0x0⟩,
  ⟨R.PT_UND_CNT, 1, 1, 0x0, 0x0⟩,
  ⟨R.PT_DROP_CNT, 1, 1, 0x0, 0x0⟩,
  ⟨R.AR_CFG, 2, 1, 0xE0000000, 0x0⟩,
  ⟨R.AR_STATUS, 2, 1, 0x0, 0x0⟩,
  ⟨R.AR_EVT, 2, 1, 0x0, 0x1FF⟩,
  ⟨R.AR_EVT_EN, 2, 1, 0x1FF, 0x0⟩,
  ⟨R.AR_ERR_CNT, 2, 1, 0x0, 0x0⟩,
  ⟨R.AR_RATE, 2, 1, 0x0, 0x0⟩,
  ⟨R.AR_CS, 2, 6, 0x0, 0x0⟩,
  ⟨R.AT_CFG, 2, 1, 0xCC000000, 0x0⟩,
  ⟨R.AT_STATUS, 2, 1, 0x0, 0x0⟩,
  ⟨R.AT_CS, 2, 6, 0xFFFFFFFF, 0x0⟩,
  ⟨R.SRC_CFG, 16, 1, 0x0, 0x0⟩,
  ⟨R.SRC_STAT, 16, 1, 0x0, 0x0⟩,
  ⟨R.SRC_RATIO, 16, 1, 0x0, 0x0⟩
]

/-- The rows of the NET map. -/
def rowsNET : List RegRow := [
  ⟨R.STREAM_SEL, 1, 1, 0x8000FFFF, 0x0⟩,
  ⟨R.EVT_NET, 1, 1, 0x0, 0x3C0⟩,
  ⟨R.EVT_EN_NET, 1, 1, 0x3FC, 0x0⟩,
  ⟨R.STATUS_NET, 1, 1, 0x0, 0x0⟩,
  ⟨R.NET_SMAC_LO, 1, 1, 0xFFFFFFFF, 0x0⟩,
  ⟨R.NET_SMAC_HI, 1, 1, 0xFFFF, 0x0⟩,
  ⟨R.NB_CTRL, 1, 1, 0x11FFF, 0x0⟩,
  ⟨R.NB_BASE, 1, 1, 0xFFFFFFF0, 0x0⟩,
  ⟨R.NB_ALLOC, 1, 1, 0x0, 0x0⟩,
  ⟨R.NB_RELEASE, 1, 1, 0x0, 0x0⟩,
  ⟨R.NB_AUD_STATUS, 1, 1, 0x0, 0x0⟩,
  ⟨R.NB_CNT_FREE, 1, 1, 0x0, 0x0⟩,
  ⟨R.NB_CNT_HW, 1, 1, 0x0, 0x0⟩,
  ⟨R.NB_CNT_SW, 1, 1, 0x0, 0x0⟩,
  ⟨R.MD_CFG, 1, 1, 0x8000FFFF, 0x0⟩,
  ⟨R.MD_PKT, 1, 1, 0x0, 0x0⟩,
  ⟨R.MD_BAD, 1, 1, 0x0, 0x0⟩,
  ⟨R.MD_DUP, 1, 1, 0x0, 0x0⟩,
  ⟨R.MD_GAP, 1, 1, 0x0, 0x0⟩,
  ⟨R.MD_DROP, 1, 1, 0x0, 0x0⟩,
  ⟨R.NET_CNT_CLR, 1, 1, 0x0, 0x0⟩,
  ⟨R.ST_FMAP, 8, 1, 0x0, 0xFFFFFFFF⟩,
  ⟨R.ST_CFG, 1, 1, 0xFEE000FF, 0x0⟩,
  ⟨R.ST_ADDR, 1, 1, 0xFFFFFFFF, 0x0⟩,
  ⟨R.ST_UDP, 1, 1, 0xFFFFFFFF, 0x0⟩,
  ⟨R.ST_VLAN, 1, 1, 0x8000EFFF, 0x0⟩,
  ⟨R.ST_RTP, 1, 1, 0x7F, 0x0⟩,
  ⟨R.ST_SSRC, 1, 1, 0xFFFFFFFF, 0x0⟩,
  ⟨R.ST_LOFS, 1, 1, 0x7FFF, 0x0⟩,
  ⟨R.ST_STATUS, 1, 1, 0x0, 0x0⟩,
  ⟨R.ST_FLAGS, 1, 1, 0x0, 0xFF⟩,
  ⟨R.ST_PKT, 1, 1, 0x0, 0x0⟩,
  ⟨R.ST_MISS, 1, 1, 0x0, 0x0⟩,
  ⟨R.ST_LATE, 1, 1, 0x0, 0x0⟩,
  ⟨R.ST_DUP, 1, 1, 0x0, 0x0⟩,
  ⟨R.ST_CHAN, 1, 1, 0x0, 0x0⟩,
  ⟨R.ST_SEQ, 1, 1, 0x0, 0x0⟩,
  ⟨R.NP_CFG, 3, 1, 0xFF000000, 0x0⟩,
  ⟨R.NP_STATUS, 3, 1, 0x0, 0x0⟩,
  ⟨R.NP_EVT, 3, 1, 0x0, 0x3FF⟩,
  ⟨R.NP_EVT_EN, 3, 1, 0x3FF, 0x0⟩,
  ⟨R.NP_MAC_LO, 3, 1, 0xFFFFFFFF, 0x0⟩,
  ⟨R.NP_MAC_HI, 3, 1, 0xFFFF, 0x0⟩,
  ⟨R.NP_TXPOST, 3, 1, 0x0, 0x0⟩,
  ⟨R.NP_TXDONE, 3, 1, 0x0, 0x0⟩,
  ⟨R.NP_RXRDY, 3, 1, 0x0, 0x0⟩,
  ⟨R.NP_CNT_SEL, 3, 1, 0x3F, 0x0⟩,
  ⟨R.NP_CNT, 3, 1, 0x0, 0x0⟩,
  ⟨R.NP_CNT_HALF0, 3, 1, 0x0, 0xFFFFFFFF⟩,
  ⟨R.NP_CNT_HALF1, 3, 1, 0x0, 0xFFFF⟩,
  ⟨R.NP_TSQ_OVF_RX, 3, 1, 0x0, 0x0⟩,
  ⟨R.NP_TSQ_OVF_TX, 3, 1, 0x0, 0x0⟩,
  ⟨R.NP_TSQR_W, 3, 4, 0x0, 0x0⟩,
  ⟨R.NP_TSQT_W, 3, 4, 0x0, 0x0⟩,
  ⟨R.NP_GCL_CTRL, 3, 1, 0x1FF, 0x0⟩,
  ⟨R.NP_GCL_CYCLE, 3, 1, 0x3FFFFFFF, 0x0⟩,
  ⟨R.NP_GCL_BASE_NS, 3, 1, 0x3FFFFFFF, 0x0⟩,
  ⟨R.NP_GCL_BASE_SEC_LO, 3, 1, 0xFFFFFFFF, 0x0⟩,
  ⟨R.NP_GCL_BASE_SEC_HI, 3, 1, 0xFFFF, 0x0⟩,
  ⟨R.NP_GCL_SEL, 3, 1, 0x800000FF, 0x0⟩,
  ⟨R.NP_GCL_ENT, 3, 1, 0xFFFFFFFF, 0x0⟩,
  ⟨R.NP_CBS, 3, 8, 0x80003FFF, 0x0⟩
]

/-- The rows of the TU map. -/
def rowsTU : List RegRow := [
  ⟨R.TI_SEL, 1, 1, 0x8000FFFF, 0x0⟩,
  ⟨R.EVT_TU, 1, 1, 0x0, 0x7FC⟩,
  ⟨R.EVT_EN_TU, 1, 1, 0x7FC, 0x0⟩,
  ⟨R.STATUS_TU, 1, 1, 0x0, 0x0⟩,
  ⟨R.TU_CNT_CLR, 1, 1, 0x0, 0x0⟩,
  ⟨R.TI_CTRL, 1, 1, 0xE000FFFF, 0x0⟩,
  ⟨R.TI_STATUS, 1, 1, 0x0, 0x0⟩,
  ⟨R.TI_OFSP, 1, 1, 0x0, 0x0⟩,
  ⟨R.TI_OFSS, 1, 1, 0x0, 0x0⟩,
  ⟨R.TI_TAG, 1, 1, 0xFFFF, 0x0⟩,
  ⟨R.TI_KP, 1, 1, 0xFFFFFF, 0x0⟩,
  ⟨R.TI_KI, 1, 1, 0xFFFFFF, 0x0⟩,
  ⟨R.TI_FLIM, 1, 1, 0xFFFFF, 0x0⟩,
  ⟨R.TI_STEP_THR, 1, 1, 0x7FFFFFFF, 0x0⟩,
  ⟨R.TI_LOCK_THR, 1, 1, 0x7FFFFFFF, 0x0⟩,
  ⟨R.TI_TIMEOUT, 1, 1, 0xFFFF, 0x0⟩,
  ⟨R.TI_SLEW, 1, 1, 0xFFFF, 0x0⟩,
  ⟨R.TI_FREQ_LO, 1, 1, 0x0, 0x0⟩,
  ⟨R.TI_FREQ_HI, 1, 1, 0x0, 0x0⟩,
  ⟨R.TI_BIAS, 1, 1, 0x0, 0x0⟩,
  ⟨R.TI_TNS, 1, 1, 0x0, 0x0⟩,
  ⟨R.TI_TSEC_LO, 1, 1, 0x0, 0x0⟩,
  ⟨R.TI_TSEC_HI, 1, 1, 0x0, 0x0⟩,
  ⟨R.TI_STEP_CNT, 1, 1, 0x0, 0x0⟩,
  ⟨R.TI_SWITCH_CNT, 1, 1, 0x0, 0x0⟩,
  ⟨R.TU_PCFG, 3, 1, 0x303, 0x0⟩,
  ⟨R.TU_ING, 3, 1, 0xFFFF, 0x0⟩,
  ⟨R.TU_EGR, 3, 1, 0xFFFF, 0x0⟩,
  ⟨R.TU_ASYM, 3, 1, 0xFFFF, 0x0⟩,
  ⟨R.MC_CFG, 2, 1, 0x303, 0x0⟩,
  ⟨R.MC_STATUS, 2, 1, 0x0, 0x0⟩,
  ⟨R.MC_CTRL, 2, 1, 0x0, 0x0⟩,
  ⟨R.MC_STEP_THR, 2, 1, 0xFFFFFF, 0x0⟩,
  ⟨R.MC_SLEW, 2, 1, 0xFFFF, 0x0⟩,
  ⟨R.MC_BIAS_LO, 2, 1, 0x0, 0x0⟩,
  ⟨R.MC_BIAS_HI, 2, 1, 0x0, 0x0⟩,
  ⟨R.MC_PHERR, 2, 1, 0x0, 0x0⟩,
  ⟨R.MC_REFUSE_CNT, 2, 1, 0x0, 0x0⟩,
  ⟨R.TP_CTRL, 8, 1, 0x80000103, 0x0⟩,
  ⟨R.TP_START_NS, 8, 1, 0x3FFFFFFF, 0x0⟩,
  ⟨R.TP_START_SEC_LO, 8, 1, 0xFFFFFFFF, 0x0⟩,
  ⟨R.TP_START_SEC_HI, 8, 1, 0xFFFF, 0x0⟩,
  ⟨R.TP_PERIOD, 8, 1, 0x7FFFFFFF, 0x0⟩,
  ⟨R.TP_WIDTH, 8, 1, 0x3FFFFFFF, 0x0⟩,
  ⟨R.TC_CFG, 4, 1, 0x80000303, 0x0⟩,
  ⟨R.TC_W0, 4, 1, 0x0, 0x0⟩,
  ⟨R.TC_W1, 4, 1, 0x0, 0x0⟩,
  ⟨R.TC_W2, 4, 1, 0x0, 0x0⟩,
  ⟨R.TC_W3, 4, 1, 0x0, 0x0⟩,
  ⟨R.TC_OVF_CNT, 4, 1, 0x0, 0x0⟩
]

/-- The rows of the RU map. -/
def rowsRU : List RegRow := [
  ⟨R.RC_SEL, 1, 1, 0x8000FFFF, 0x0⟩,
  ⟨R.EVT_RU, 1, 1, 0x0, 0x1FE⟩,
  ⟨R.EVT_EN_RU, 1, 1, 0x1FE, 0x0⟩,
  ⟨R.STATUS_RU, 1, 1, 0x0, 0x0⟩,
  ⟨R.RU_TDMSRC, 1, 1, 0xF, 0x0⟩,
  ⟨R.RU_HOLDOFF, 1, 1, 0xFFFF, 0x0⟩,
  ⟨R.RU_FWIN, 1, 1, 0xFFFFF, 0x0⟩,
  ⟨R.RU_WCOUT, 1, 1, 0x707, 0x0⟩,
  ⟨R.RU_CNT_CLR, 1, 1, 0x0, 0x0⟩,
  ⟨R.RC_CFG, 1, 1, 0x80000F0F, 0x0⟩,
  ⟨R.RC_STATUS, 1, 1, 0x0, 0x0⟩,
  ⟨R.RC_CMD, 1, 1, 0x0, 0x0⟩,
  ⟨R.RC_PHASE, 1, 1, 0x0, 0x0⟩,
  ⟨R.RC_FOFS, 1, 1, 0x0, 0x0⟩,
  ⟨R.RC_SWITCH_CNT, 1, 1, 0x0, 0x0⟩,
  ⟨R.RC_CONF_PPB, 1, 1, 0xFFFFF, 0x0⟩,
  ⟨R.RI_CFG, 8, 1, 0x80000F1F, 0x0⟩,
  ⟨R.RI_STATUS, 8, 1, 0x0, 0x0⟩,
  ⟨R.RI_FREQ, 8, 1, 0x0, 0x0⟩,
  ⟨R.RI_DISQ_CNT, 8, 1, 0x0, 0x0⟩
]

/-- The rows of the AI map. -/
def rowsAI : List RegRow := [
  ⟨R.AIN_SEL, 1, 1, 0x8000FFFF, 0x0⟩,
  ⟨R.EVT_AI, 1, 1, 0x0, 0xFF00⟩,
  ⟨R.EVT_EN_AI, 1, 1, 0xFFFF, 0x0⟩,
  ⟨R.STATUS_AI, 1, 1, 0x0, 0x0⟩,
  ⟨R.AI_SYNC, 1, 1, 0x0, 0x0⟩,
  ⟨R.AI_SYNC_AT_LO, 1, 1, 0xFFFFFFFF, 0x0⟩,
  ⟨R.AI_SYNC_AT_HI, 1, 1, 0xFFFFFFFF, 0x0⟩,
  ⟨R.MB_CTRL1, 1, 1, 0x80000003, 0x0⟩,
  ⟨R.MB_CTRL2, 1, 1, 0x80000003, 0x0⟩,
  ⟨R.MB_STATUS, 1, 1, 0x0, 0x0⟩,
  ⟨R.AI_CLIP, 1, 1, 0x0, 0xFF⟩,
  ⟨R.AI_OVR_CNT, 1, 1, 0x0, 0x0⟩,
  ⟨R.AI_CNT_CLR, 1, 1, 0x0, 0x0⟩,
  ⟨R.AI_CFG, 1, 1, 0xF300007F, 0x0⟩,
  ⟨R.AI_STATUS, 1, 1, 0x0, 0x0⟩,
  ⟨R.AI_ZCTO, 1, 1, 0xFFF, 0x0⟩,
  ⟨R.AI_THR, 1, 1, 0xFFFFFFFF, 0x0⟩,
  ⟨R.AI_THR_TIME, 1, 1, 0xFFFF, 0x0⟩,
  ⟨R.AI_EVT, 1, 1, 0x0, 0x3F⟩,
  ⟨R.AI_EVT_EN, 1, 1, 0x3F, 0x0⟩,
  ⟨R.AI_PEAK, 1, 1, 0x0, 0x0⟩,
  ⟨R.AI_CLIPCNT, 1, 1, 0x0, 0x0⟩
]

/-- The rows of the AO map. -/
def rowsAO : List RegRow := [
  ⟨R.JD_CFG, 1, 1, 0xFFFF00F1, 0x0⟩,
  ⟨R.JD_STATUS, 1, 1, 0x0, 0x0⟩,
  ⟨R.JD_EVT, 1, 1, 0x0, 0xFFF⟩,
  ⟨R.JD_EVT_EN, 1, 1, 0xFFF, 0x0⟩,
  ⟨R.JD_RES, 4, 1, 0x0, 0x0⟩,
  ⟨R.AOUT_SEL, 1, 1, 0x8000FFFF, 0x0⟩,
  ⟨R.EVT_AO, 1, 1, 0x0, 0x7000⟩,
  ⟨R.EVT_EN_AO, 1, 1, 0xFFFF, 0x0⟩,
  ⟨R.STATUS_AO, 1, 1, 0x0, 0x0⟩,
  ⟨R.AO_CNT_CLR, 1, 1, 0x0, 0x0⟩,
  ⟨R.AO_CLIP, 1, 1, 0x0, 0xFFF⟩,
  ⟨R.AO_UND_CNT, 1, 1, 0x0, 0x0⟩,
  ⟨R.EX_CFG, 8, 1, 0x870FFFFF, 0x0⟩,
  ⟨R.AO_CFG, 1, 1, 0x83000000, 0x0⟩,
  ⟨R.AO_STATUS, 1, 1, 0x0, 0x0⟩,
  ⟨R.AO_SLEW, 1, 1, 0x800FFFFF, 0x0⟩,
  ⟨R.AO_SOS_SEL, 1, 1, 0x80000177, 0x0⟩,
  ⟨R.AO_SOS_COEF, 1, 1, 0xFFFFFFFF, 0x0⟩,
  ⟨R.AO_SOS_BYP, 1, 1, 0xFFFFFFFF, 0x0⟩,
  ⟨R.AO_SOS_CTRL, 1, 1, 0xFFFFFFFF, 0x0⟩,
  ⟨R.AO_EVT, 1, 1, 0x0, 0xF⟩,
  ⟨R.AO_EVT_EN, 1, 1, 0xF, 0x0⟩,
  ⟨R.AO_PEAK, 1, 1, 0x0, 0x0⟩,
  ⟨R.AO_CLIPCNT, 1, 1, 0x0, 0x0⟩
]

/-- The rows of the TWN map. -/
def rowsTWN : List RegRow := [
  ⟨R.EVT_TWN, 1, 1, 0x0, 0x1FFE⟩,
  ⟨R.EVT_EN_TWN, 1, 1, 0x1FFE, 0x0⟩,
  ⟨R.STATUS_TWN, 1, 1, 0x0, 0x0⟩,
  ⟨R.TWN_CFG, 1, 1, 0xFFF0FF00, 0x0⟩,
  ⟨R.TWN_CTRL, 1, 1, 0x0, 0x0⟩,
  ⟨R.TWN_SW_AT_LO, 1, 1, 0xFFFFFFFF, 0x0⟩,
  ⟨R.TWN_SW_AT_HI, 1, 1, 0xFFFFFFFF, 0x0⟩,
  ⟨R.TWN_FAULT, 1, 1, 0x0, 0x0⟩,
  ⟨R.TWN_TAKE_LO, 1, 1, 0x0, 0x0⟩,
  ⟨R.TWN_TAKE_HI, 1, 1, 0x0, 0x0⟩,
  ⟨R.TWN_LINK, 1, 1, 0x0, 0x0⟩,
  ⟨R.TWN_MISM_CNT, 1, 1, 0x0, 0x0⟩,
  ⟨R.TWN_SKIP_CNT, 1, 1, 0x0, 0x0⟩,
  ⟨R.TWN_TAKE_CNT, 1, 1, 0x0, 0x0⟩,
  ⟨R.TWN_LINK_ERR_CNT, 1, 1, 0x0, 0x0⟩,
  ⟨R.TWN_RESEND_CNT, 1, 1, 0x0, 0x0⟩,
  ⟨R.TWN_WR_IGN_CNT, 1, 1, 0x0, 0x0⟩,
  ⟨R.TWN_XFER_TOTAL, 1, 1, 0x0, 0x0⟩,
  ⟨R.TWN_XFER_DONE, 1, 1, 0x0, 0x0⟩,
  ⟨R.TWN_VERIFY, 1, 1, 0x0, 0x0⟩,
  ⟨R.TWN_COPY_LAST, 1, 1, 0x0, 0x0⟩,
  ⟨R.TWN_COPY_PEAK, 1, 1, 0x0, 0x0⟩,
  ⟨R.TWN_CNT_CLR, 1, 1, 0x0, 0x0⟩,
  ⟨R.TWN_HLTH, 8, 1, 0x0, 0x0⟩,
  ⟨R.TWN_PEER, 8, 1, 0x0, 0x0⟩
]

/-- The rows of the MS map. -/
def rowsMS : List RegRow := [
  ⟨R.TGT_SEL, 1, 1, 0x8000FFFF, 0x0⟩,
  ⟨R.EVT_MS, 1, 1, 0x0, 0x3FFE⟩,
  ⟨R.EVT_EN_MS, 1, 1, 0x3FFE, 0x0⟩,
  ⟨R.STATUS_MS, 1, 1, 0x0, 0x0⟩,
  ⟨R.MS_REMAP, 1, 1, 0x1, 0x0⟩,
  ⟨R.MS_LOCK_TO, 1, 1, 0xFFFF, 0x0⟩,
  ⟨R.MS_AGE, 1, 1, 0xFFFF, 0x0⟩,
  ⟨R.MS_SCRUB, 1, 1, 0x8000001F, 0x0⟩,
  ⟨R.MS_SCRUB_POS, 1, 1, 0x0, 0x0⟩,
  ⟨R.MS_SCHK, 1, 1, 0x80000000, 0x0⟩,
  ⟨R.MS_SCHK_FAIL_CNT, 1, 1, 0x0, 0x0⟩,
  ⟨R.MS_UE_CNT, 1, 1, 0x0, 0x0⟩,
  ⟨R.MS_UE_INFO, 1, 1, 0x0, 0x0⟩,
  ⟨R.MS_CNT_CLR, 1, 1, 0x0, 0x0⟩,
  ⟨R.MS_CE_CNT, 8, 1, 0x0, 0x0⟩,
  ⟨R.TG_PRIO, 1, 1, 0xFFFFFFF, 0x0⟩,
  ⟨R.TG_LOCK, 1, 1, 0x0, 0x0⟩,
  ⟨R.TG_WAIT_PEAK, 1, 1, 0x0, 0x0⟩,
  ⟨R.TG_REQ_CNT, 1, 1, 0x0, 0x0⟩,
  ⟨R.DR_CFG, 1, 1, 0x0, 0x0⟩,
  ⟨R.DR_STATUS, 1, 1, 0x0, 0x0⟩,
  ⟨R.DR_CTRL, 1, 1, 0x0, 0x0⟩,
  ⟨R.DR_SEG, 1, 1, 0xFF, 0x0⟩,
  ⟨R.DR_TRACK, 1, 1, 0xFF, 0x0⟩,
  ⟨R.DR_RTP_CFG, 2, 1, 0xFF00FF, 0x0⟩,
  ⟨R.DR_RTP_STAT, 2, 1, 0x0, 0x0⟩,
  ⟨R.DR_PANIC_CNT, 2, 1, 0x0, 0x0⟩,
  ⟨R.DR_INORDER_CNT, 1, 1, 0x0, 0x0⟩,
  ⟨R.DR_CE_CNT, 1, 1, 0x0, 0x0⟩,
  ⟨R.DR_UE_CNT, 1, 1, 0x0, 0x0⟩,
  ⟨R.DR_UE_ADDR_LO, 1, 1, 0x0, 0x0⟩,
  ⟨R.DR_UE_ADDR_HI, 1, 1, 0x0, 0x0⟩,
  ⟨R.DR_INVAL_CNT, 1, 1, 0x0, 0x0⟩,
  ⟨R.DR_BW_LAST, 1, 1, 0x0, 0x0⟩,
  ⟨R.DR_TRN, 4, 1, 0x0, 0x0⟩
]

/-- The rows of the MBX map. -/
def rowsMBX : List RegRow := [
  ⟨R.MB_SEL, 1, 1, 0x8000FFFF, 0x0⟩,
  ⟨R.EVT_MBX, 1, 1, 0x0, 0x70⟩,
  ⟨R.EVT_EN_MBX, 1, 1, 0xFE, 0x0⟩,
  ⟨R.STATUS_MBX, 1, 1, 0x0, 0x0⟩,
  ⟨R.MB_OCC_MAP, 1, 1, 0x0, 0x0⟩,
  ⟨R.MB_FULL_MAP, 1, 1, 0x0, 0xFFFFFFFF⟩,
  ⟨R.MB_EMPTY_MAP, 1, 1, 0x0, 0xFFFFFFFF⟩,
  ⟨R.MB_TO_MAP, 1, 1, 0x0, 0xFFFFFFFF⟩,
  ⟨R.MB_AUD_STATUS, 1, 1, 0x0, 0x0⟩,
  ⟨R.MB_AUD_FMAP, 1, 1, 0x0, 0xFFFFFFFF⟩,
  ⟨R.LK_HELD, 2, 1, 0x0, 0x0⟩,
  ⟨R.LK_BRK, 2, 1, 0x0, 0xFFFFFFFF⟩,
  ⟨R.MB_CNT_CLR, 1, 1, 0x0, 0x0⟩,
  ⟨R.MB_CFG, 1, 1, 0xFFFF1F1F, 0x0⟩,
  ⟨R.MB_STAT, 1, 1, 0x0, 0x0⟩,
  ⟨R.MB_W, 16, 1, 0xFFFFFFFF, 0x0⟩,
  ⟨R.MB_DB, 1, 1, 0x0, 0x0⟩,
  ⟨R.MB_ACK, 1, 1, 0x0, 0x0⟩,
  ⟨R.MB_POSTED, 1, 1, 0x0, 0x0⟩,
  ⟨R.MB_READ, 1, 1, 0x0, 0x0⟩,
  ⟨R.MB_FLUSHED, 1, 1, 0x0, 0x0⟩,
  ⟨R.MB_REF_CNT, 1, 1, 0x0, 0x0⟩,
  ⟨R.LOCK, 64, 1, 0xFFFFFFFF, 0x0⟩
]

/-- The rows of the HIF map. -/
def rowsHIF : List RegRow := [
  ⟨R.EVT_HIF, 1, 1, 0x0, 0x76⟩,
  ⟨R.EVT_EN_HIF, 1, 1, 0x7E, 0x0⟩,
  ⟨R.STATUS_HIF, 1, 1, 0x0, 0x0⟩,
  ⟨R.HIF_CTRL, 1, 1, 0x0, 0x0⟩,
  ⟨R.HIF_PCI_ID, 1, 1, 0x0, 0x0⟩,
  ⟨R.HIF_SPI_STAT, 1, 1, 0x0, 0x0⟩,
  ⟨R.HIF_I2C_STAT, 1, 1, 0x0, 0x0⟩,
  ⟨R.GPIO_OUT, 1, 1, 0xFFFFFFFF, 0x0⟩,
  ⟨R.GPIO_OE, 1, 1, 0xFFFFFFFF, 0x0⟩,
  ⟨R.GPIO_IN, 1, 1, 0x0, 0x0⟩,
  ⟨R.GPIO_RISE, 1, 1, 0xFFFFFFFF, 0x0⟩,
  ⟨R.GPIO_FALL, 1, 1, 0xFFFFFFFF, 0x0⟩,
  ⟨R.GPIO_EVT, 1, 1, 0x0, 0xFFFFFFFF⟩,
  ⟨R.QS_CFG, 1, 1, 0xFF03, 0x0⟩,
  ⟨R.QS_CMD, 1, 1, 0x7F1FFFFF, 0x0⟩,
  ⟨R.QS_ADDR, 1, 1, 0xFFFFFFFF, 0x0⟩,
  ⟨R.QS_DATA, 1, 1, 0xFFFFFFFF, 0x0⟩,
  ⟨R.QS_STAT, 1, 1, 0x0, 0x0⟩
]

/-- The rows of the DP map. -/
def rowsDP : List RegRow := [
  ⟨R.EVT_DP, 1, 1, 0x0, 0xE⟩,
  ⟨R.EVT_EN_DP, 1, 1, 0xE, 0x0⟩,
  ⟨R.STATUS_DP, 1, 1, 0x0, 0x0⟩,
  ⟨R.DP_CTRL, 1, 1, 0x0, 0x0⟩,
  ⟨R.DP_WAKE_EN, 1, 1, 0xB, 0x0⟩,
  ⟨R.DP_WAKE_CAUSE, 1, 1, 0x0, 0xFF⟩,
  ⟨R.DP_RSEQ, 1, 1, 0x1F1F1F, 0x0⟩,
  ⟨R.DP_RST_CAUSE, 1, 1, 0x0, 0x1F⟩,
  ⟨R.DP_RTC_LO, 1, 1, 0x7FFF, 0x0⟩,
  ⟨R.DP_RTC_HI, 1, 1, 0xFFFFFFFF, 0x0⟩,
  ⟨R.DP_ALARM, 1, 1, 0xFFFFFFFF, 0x0⟩,
  ⟨R.DP_SCRATCH, 4, 1, 0xFFFFFFFF, 0x0⟩
]

/-- The rows of the ENG map. -/
def rowsENG : List RegRow := [
  ⟨R.ENG_ID, 1, 1, 0x0, 0x0⟩,
  ⟨R.MODE, 1, 1, 0x0, 0x0⟩,
  ⟨R.FLAGS, 1, 1, 0x0, 0x0⟩,
  ⟨R.ITEM, 1, 1, 0x0, 0x0⟩,
  ⟨R.ARG0, 1, 1, 0x0, 0x0⟩,
  ⟨R.ARG1, 1, 1, 0x0, 0x0⟩,
  ⟨R.BLK_LO, 1, 1, 0x0, 0x0⟩,
  ⟨R.BLK_HI, 1, 1, 0x0, 0x0⟩,
  ⟨R.CYCLE, 1, 1, 0x0, 0x0⟩,
  ⟨R.LOOPST, 1, 1, 0x0, 0x0⟩,
  ⟨R.ENG_STATUS, 1, 1, 0x0, 0x0⟩,
  ⟨R.ENG_STICKY, 1, 1, 0x0, 0xF00⟩,
  ⟨R.ENG_FAULT, 1, 1, 0x0, 0x0⟩,
  ⟨R.ENG_FAULT_PC, 1, 1, 0x0, 0x0⟩,
  ⟨R.ENG_RUNS, 1, 1, 0x0, 0x0⟩,
  ⟨R.ENG_CNT_CLR, 1, 1, 0x0, 0x0⟩,
  ⟨R.XLOC, 4, 1, 0x0, 0x0⟩,
  ⟨R.XEXT_LO, 4, 1, 0x0, 0x0⟩,
  ⟨R.XEXT_HI, 4, 1, 0x0, 0x0⟩,
  ⟨R.XCTL, 4, 1, 0x0, 0x0⟩
]

end Sys2Proof.Machine
end

