-- ==== Sys2Proof/Machine/UAnalog.lean ====
section
/-!
DEFINITION. The state of the analog inputs, mic biases and jack pins beside their registers (10_analog_inputs.md R292 to
R319).
-/
namespace Sys2Proof.Machine

/-- The fifth-order CIC decimator (R295, R296): five integrators at 128 fs and the delays of five combs at 8 fs, each 23 bits wide. -/
structure Cic where
  i1 : BitVec 23
  i2 : BitVec 23
  i3 : BitVec 23
  i4 : BitVec 23
  i5 : BitVec 23
  c1 : BitVec 23
  c2 : BitVec 23
  c3 : BitVec 23
  c4 : BitVec 23
  c5 : BitVec 23
  deriving DecidableEq, Repr

def Cic.reset : Cic := ⟨0, 0, 0, 0, 0, 0, 0, 0, 0, 0⟩

/-- The first-order high-pass filter (R297): its latest input and output. -/
structure Hpf where
  x : Int
  y : Int
  deriving DecidableEq, Repr

def Hpf.reset : Hpf := ⟨0, 0⟩

/-- An analog input: the block of its latest synchronising reset, whether sample 40 (VALID) and sample 3 (FVALID) were
reached, the level detector and its count of samples below OFF, the current gain code, the blocks of pending timed resets,
and the samples of the blocks being gathered, by sample index (unlisted: exactly 0); the decimation state (R295 to R297): CIC, its latest
outputs, latest first, high-pass filter; the fast path's eight samples of the latest sample at fs (R304); whether that sample's sign differs from the
one before, and the samples that the gain step in progress has waited (R294). -/
structure Ain where
  rst : Option Nat
  ready : Bool
  fast : Bool
  above : Bool
  low : Nat
  pga : Nat
  syncs : List Nat
  buf : Tbl Word
  cic : Cic
  out : List Int
  hpf : Hpf
  quick : List Int
  cross : Bool
  wait : Nat
  deriving DecidableEq, Repr

def Ain.off : Ain := ⟨none, false, false, false, 0, 0, [], [], .reset, [], .reset, [], false, 0⟩

/-- A mic bias (R306, R308): its step and direction; the block its inputs ramp in, the block from which they are 0; whether its current limit
acts (R305). -/
structure Bias where
  step : Nat
  up : Bool
  rampAt : Option Nat
  muteAt : Option Nat
  lim : Bool
  deriving DecidableEq, Repr

def Bias.off : Bias := ⟨0, false, none, none, false⟩

/-- A jack pin (R314): the latest class measured and how often in a row. -/
structure Jack where
  cls : Nat
  cnt : Nat
  deriving DecidableEq, Repr

def Jack.reset : Jack := ⟨0, 0⟩

structure AnalogIn where
  ain : Tbl Ain
  mb : Tbl Bias
  jd : Tbl Jack
  deriving DecidableEq, Repr

def AnalogIn.reset : AnalogIn := ⟨[], [], []⟩

end Sys2Proof.Machine
end

