-- ==== Sys2Proof/Machine/UAout.lean ====
section
/-!
DEFINITION. The state of the analog outputs beside their registers (11_analog_outputs.md R320 to R336).
-/
namespace Sys2Proof.Machine

/-- The express fade of a channel (R333). -/
inductive ExFade
  | out | fadeIn | full | fadeOut
  deriving DecidableEq, Repr

/-- An output channel: the sequencer's step and direction, the applied span, whether a span run is in progress; the limiter's
output, the ticks it has tracked, whether its latest update was limited; the express fade and the ticks of it that have passed; the live and
the staged sections with the live ones' states, and the block of a pending commit; the block being played and its samples after the sections, the
samples of the block before as they were played, and the ticks of 8 fs played of it (R321); the latest code passed to the modulator. -/
structure Aout where
  step : Nat
  up : Bool
  span : Nat
  run : Bool
  y : Int
  track : Nat
  lim : Bool
  fade : ExFade
  fadeAt : Nat
  live : CBank
  staged : CBank
  secs : Tbl Sec
  pend : Option Nat
  blk : Nat
  play : List Word
  past : List Word
  tick : Nat
  out : Int
  deriving DecidableEq, Repr

def Aout.reset : Aout := ⟨0, false, 0, false, 0, 0, false, .out, 0, .reset, .reset, [], none, 0, [], [], 0, 0⟩

/-- What a mode asks of every channel (R331): `hold` keeps it at or below step 1 (Shunt), `down` runs it to step 0 (Siding). -/
inductive AoForce
  | free | hold | down
  deriving DecidableEq, Repr

/-- The gain ramp of an express path (R332): the multiplier, Q3.29, that it leaves, and its tick of 256. -/
structure ExRamp where
  g0 : Int
  t : Nat
  deriving DecidableEq, Repr

def ExRamp.rest : ExRamp := ⟨0, 256⟩

structure AnalogOut where
  ch : Tbl Aout
  ex : Tbl ExRamp
  force : AoForce
  deriving DecidableEq, Repr

/-- After a reset of the main domain MODE is Shunt (11_analog_outputs.md R331; 16_modes_power.md R440). -/
def AnalogOut.reset : AnalogOut := ⟨[], [], .hold⟩

end Sys2Proof.Machine
end

