-- ==== Sys2Proof/Machine/UHost.lean ====
section
/-!
DEFINITION. The state of the host interfaces, mailboxes, locks and Station firmware beside their registers
(14_host_mailboxes.md).
-/
namespace Sys2Proof.Machine

/-- A mailbox (R397 to R400): occupied, its message, and the rest of MB_STAT. -/
structure Mbox where
  occ : Bool
  words : List Word
  srst : Bool
  cause : Nat
  tout : Bool
  deriving DecidableEq, Repr

def Mbox.empty : Mbox := ⟨false, [], false, 0, false⟩

/-- The host buffer ring of FRAME_RX_SET (R407): port mask, EtherType filter, address, number of buffers, buffers the host
holds. -/
structure RxRing where
  ports : Nat
  etype : Nat
  addr : Nat
  count : Nat
  busy : List Nat
  deriving DecidableEq, Repr

/-- A flash transaction that the flash has answered (R395): the words still to enter the FIFO, the number still to leave it, and whether
it went well. -/
structure QsRun where
  ins : List Word
  outs : Nat
  good : Bool
  deriving DecidableEq, Repr

/-- An access by the PCIe or the SPI host that came in Siding and is made after the exit (16_modes_power.md R452): a word by its address, or an SPI
frame. -/
inductive LateAcc
  | word (m : Agent) (addr : Nat) (write : Bool) (v : Word)
  | spiWrite (addr : Nat) (ws : List Word)
  | spiRead (addr n : Nat)
  | spiStatus
  deriving DecidableEq, Repr

/-- Mailboxes; lock owners; signals sent to the Station cores, by core and kind (0 full, 1 delivered, 2 flushed, 3 timeout; R399);
the I2C pointer; the QSPI FIFO and the transaction that moves it; replies and events held for a full mailbox, oldest first, and events dropped (R406); host frame
reception; frames that FRAME_TX sends, as host, tag and descriptor; firmware's version and code (R415); the code in the Station memories (store 3, 13_memory.md R367), byte k in core k / 524,288; the strap that picks the I2C address (R392); the accesses that wait for the exit from Siding,
in order (16_modes_power.md R452); the pin that the part drives high in Siding (16_modes_power.md R449). -/
structure HostIf where
  mb : Tbl Mbox
  locks : Tbl Nat
  sigs : Tbl Nat
  i2cPtr : Nat
  fifo : List Word
  qs : Option QsRun
  held : Tbl (List (List Word))
  lost : Tbl Nat
  ring : Option RxRing
  txWait : List (Nat × Nat × Nat)
  fwVer : Word
  fwCode : List Word
  tcm : List Word
  strap : Bool
  late : List LateAcc
  vret : Option Nat
  deriving DecidableEq, Repr

end Sys2Proof.Machine
end

