-- ==== Sys2Proof/Machine/UMem.lean ====
section
/-!
DEFINITION. The state of the memory system beside its registers (13_memory.md R367 to R388).
Marks (notes/assumptions): DESIGN CHOICE 8; DEDUCED 15.
-/
namespace Sys2Proof.Machine

/-- A burst in the DRAM controller's queue: port (0 and 1 real-time, 2 fabric), address, direction, order of arrival; a real-time
burst's feed; its bytes; a fabric burst's master and ID, whether it must end with the error response, and whether the TAP waits for it. -/
structure DReq where
  port : Nat
  addr : Nat
  write : Bool
  seq : Nat
  feed : Nat
  size : Nat
  data : List (Option Byte)
  master : Nat
  id : Nat
  refuse : Bool
  tap : Bool
  deriving DecidableEq, Repr

/-- A burst that waits at a fabric target (R374 to R379): as issued, with the address that the remap window's mapping of then gave it, its target,
and whether the TAP waits for it. -/
structure FabWait where
  req : FabReq
  tgt : Nat
  tap : Bool
  deriving DecidableEq, Repr

/-- The memory system: open locked sequences (target to master) and the masters whose sequence timed out (R377); the master
granted last at each target, reads and writes apart (R376); uncorrectable words, as store and 64-bit word (R369); completed scrub
passes; segments being zeroed (R382); the DRAM queue, oldest first, the open row of each bank, the banks in in-order mode with the
write that ends it, the port and the real-time port served last, bursts of the running block, arrivals so far; the tracked drift
of each lane's read (`2 l`) and write (`2 l + 1`) delay in steps from its centre (R385); the bursts that wait at the targets, in order of issue
(R374 to R379); the bursts that each target has granted (R388); the read data ready in each real-time port's buffer and the write slots in use
(R384). -/
structure Msys where
  locks : Tbl Nat
  late : List Nat
  granted : Tbl Nat
  bad : List (Nat × Nat)
  passes : Nat
  zeroing : List Nat
  drq : List DReq
  rows : Tbl Nat
  inord : Tbl Nat
  lastPort : Nat
  lastRt : Nat
  bursts : Nat
  seq : Nat
  drift : Tbl Int
  fq : List FabWait
  reqs : Tbl Nat
  rt : Tbl (Nat × Nat)
  deriving DecidableEq, Repr

def Msys.reset : Msys := ⟨[], [], [], [], 0, [], [], [], [], 0, 0, 0, 0, [], [], [], []⟩

end Sys2Proof.Machine
end

