-- ==== Sys2Proof/Machine/UNet.lean ====
section
/-!
DEFINITION. The state of the network ports and streams beside their registers (08_network.md R234 to R260).
-/
namespace Sys2Proof.Machine

/-- A frame that waits for transmission: its descriptor, or the bytes of a stream packet; the port it was posted to, its class, its PRP
sequence number where it carries a trailer; whether it has been counted as held back by its gate. -/
structure TxEnt where
  idx : Option Nat
  bytes : List Byte
  home : Nat
  tc : Nat
  seq : Option Nat
  held : Bool
  deriving DecidableEq, Repr

/-- A gate control list swap that waits for its change time (R252): length, cycle, base (ns, seconds). -/
structure GclPend where
  len : Nat
  cycle : Nat
  ns : Nat
  sec : Nat
  deriving DecidableEq, Repr

/-- A port: frames waiting in posting order, the frame being sent, the completed and received indexes waiting to be popped, the
stamp queues (descriptor, stamp), the administrative list by entry, the operational list (gates, interval), its cycle and
base, the pending swap, the current entry; NETM's collision count, back-off (in slot times) and deferral; the bytes of the latest frame
sent; the credit of each shaped class in thousandths of a bit and the core cycle it is of (R253); the ingress stamp of the latest
Pdelay_Req in tenths of a nanosecond (09_time_references.md R264). -/
structure NPort where
  txq : List TxEnt
  sending : Option TxEnt
  done : List Nat
  rdy : List Nat
  tsr : List (Nat × Stamp)
  tst : List (Nat × Stamp)
  adm : Tbl Word
  oper : List (Nat × Nat)
  cycle : Nat
  ns : Nat
  sec : Nat
  pend : Option GclPend
  gate : Nat
  coll : Nat
  backoff : Option Nat
  defer : Bool
  last : List Byte
  credit : Tbl Int
  credAt : Nat
  pdelay : Int
  deriving DecidableEq, Repr

def NPort.reset : NPort := ⟨[], none, [], [], [], [], [], [], 0, 0, 0, none, 0, 0, none, false, [], [], 0, 0⟩

/-- A stream: ST_CFG writes that wait for their block, with the settings that run from there on or none to stop, whether it runs and with which
ST_CFG, the sequence numbers accepted lately (latest first), samples
by render index (receive: arrived and not yet due; transmit: handed over and not yet sent), whether the block before had a
zero-filled sample, which ports delivered in the current block, transmit: the next packet's first timestamp and the first
render index not yet handed over; the bytes of the latest packet sent; settings that replace a running transmit stream's from a render
index on (R241); through an attachment, the converter's place in the stream's samples, in 2^-28 sample, and the index after the newest
sample received (R245; 07_tdm_ports.md R228). -/
structure Stream where
  reqs : List (Nat × Option Word)
  run : Bool
  cfg : Word
  seen : List Nat
  buf : Tbl (List Word)
  hurt : Bool
  gotA : Bool
  gotB : Bool
  t0 : Nat
  upTo : Nat
  sent : List Byte
  next : Option (Nat × Word)
  pos : Option Nat
  top : Nat
  deriving DecidableEq, Repr

def Stream.off : Stream := ⟨[], false, 0#32, [], [], false, false, false, 0, 0, [], none, none, 0⟩

/-- The network block: ports, the counters of R255 by `64 * port + index`, streams, the free list, the owners of the other
descriptors (1 = hardware, 2 = software), the PRP node's counter and duplicate table (latest first), the
metadata sources with their latest SEQ; the posted descriptors that a port has sent (R237); the port and the ingress stamp, in tenths of a
nanosecond, of the PTP event messages that descriptors received (09_time_references.md R265). -/
structure Net where
  ports : Tbl NPort
  cnt : Tbl Nat
  streams : Tbl Stream
  free : List Nat
  own : Tbl Nat
  prpSeq : Nat
  prp : List (Nat × Nat)
  md : List (Nat × Nat)
  out : Tbl Bool
  ing : Tbl (Nat × Int)
  deriving DecidableEq, Repr

def Net.reset : Net := ⟨[], [], [], [], [], 0, [], [], [], []⟩

def Net.port (n : Net) (p : Nat) : NPort := Tbl.getD n.ports p .reset
def Net.setPort (n : Net) (p : Nat) (x : NPort) : Net := { n with ports := Tbl.set n.ports .reset p x }
def Net.stream (n : Net) (s : Nat) : Stream := Tbl.getD n.streams s .off
def Net.setStream (n : Net) (s : Nat) (x : Stream) : Net := { n with streams := Tbl.set n.streams .off s x }

end Sys2Proof.Machine
end

