-- ==== Sys2Proof/Machine/USys.lean ====
section
/-!
DEFINITION. The state of modes, loads, security and debug beside their registers (15_consist_boot.md, 16_modes_power.md,
17_security_debug.md).
-/
namespace Sys2Proof.Machine

/-- A feed ramp before a mode (16_modes_power.md R443, R447): the mode it leads to, the boundary that changes the mode, and
whether it is a hard stop (R444). -/
structure Leave where
  goal : Nat
  atBlk : Nat
  hard : Bool
  deriving DecidableEq, Repr

/-- Modes: a running feed ramp; a pending resume with its RAMP (R445); another change of mode, or the run-down of step 2, at a boundary (R442, R447);
the mode that a sequenced transition left, its RAMP, whether the end of its step takes it on backwards, and where a second reversal then leads
(R447); block resets
and their blocks (R455); whether a boot is due, with Inspection in place of INIT (R434, R474), after Depot (R453); the block
that a block reset makes late; the host and tag that an unlock reset owes a reply (R474);
the first and the latest departure of the latest run of rendering; whether the active consist has not rendered yet (04_correction.md
R130); the first block of the latest Halt. -/
structure Modes where
  leave : Option Leave
  resume : Option (Nat × Nat)
  change : Option (Nat × Nat)
  origin : Nat
  ramp : Nat
  back : Bool
  aim : Nat
  blkrst : List (Nat × Nat)
  boot : Bool
  insp : Bool
  woke : Bool
  forced : Option Nat
  reply : Option (Nat × Nat)
  run : Option (Nat × Nat)
  fresh : Bool
  halt : Nat
  deriving DecidableEq, Repr

def Modes.reset : Modes := ⟨none, none, none, 2, 0, false, 1, [], true, false, false, none, none, none, false, 0⟩

/-- A consist load (15_consist_boot.md R428 to R436): its source (1 image A, 2 image B, 3 CONSIST_LOAD), whether image B or A is
still to try, its address or flash offset with the length that CONSIST_LOAD gave, the cars so far, the bytes of the shadow area in
use, and the host and tag that wait for a reply. -/
structure Load where
  src : Nat
  next : Option Nat
  fromDram : Bool
  addr : Nat
  len : Nat
  cars : List Car
  shadow : Nat
  reply : Option (Nat × Nat)
  deriving DecidableEq, Repr

/-- What the active consist declares beyond the units' own state: HEAD's AXIS and TWIN, mirrored windows (base, length), the self-test
segment, the boot directory's images. -/
structure Consist where
  axis : Bool
  twin : Bool
  windows : List (Nat × Nat)
  test : Option Nat
  deriving DecidableEq, Repr

/-- An unlock attempt under verification (17_security_debug.md R472): key choice, X, Y, r, s, the unlock message (none without a
valid nonce), and the host and tag that wait for a reply. -/
structure Attempt where
  key : Bool
  x : List Byte
  y : List Byte
  r : List Byte
  s : List Byte
  msg : Option (List Byte)
  reply : Option (Nat × Nat)
  deriving DecidableEq, Repr

/-- Security and debug: the challenge in force, as its unlock message; parts of an attempt; the attempt under verification; a
FUSE_PGM burn (word, bits); a life-cycle burn (target); the TAP's instruction register, its boundary-scan chain, the EXTEST
drive, its unlock response, and what it last captured; requests held in Siding (attach, INSP). -/
structure Secure where
  nonce : Option (List Byte)
  parts : List (Nat × List Byte)
  attempt : Option Attempt
  pgm : Option (Nat × Word)
  burn : Option Nat
  ir : Nat
  chain : List Bool
  drive : Bool
  resp : Nat
  dr : Nat
  heldAttach : Bool
  heldInsp : Bool
  deriving DecidableEq, Repr

def Secure.reset : Secure := ⟨none, [], none, none, none, 1, [], false, 0, 0, false, false⟩

end Sys2Proof.Machine
end

