-- ==== Sys2Proof/Machine/UTdm.lean ====
section
/-!
DEFINITION. The state of the serial audio interfaces beside their registers (07_tdm_ports.md R206 to R233). Units 0 to 15
are the TDM ports, 16 and 17 the AES3 receivers, 18 and 19 the AES3 transmitters.
-/
namespace Sys2Proof.Machine

/-- PT_STATUS.STATE (R233). -/
inductive PState
  | off | start | run | fly | stopping | rateStop
  deriving DecidableEq, Repr

def PState.code (s : PState) : Nat :=
  match s with
  | .off => 0
  | .start => 1
  | .run => 2
  | .fly => 3
  | .stopping => 4
  | .rateStop => 5

/-- An EN write that waits for its block (R210, R211), or, with `group`, a request of TDM_GCTRL, which writes EN at its block; `timed` when
the request named the block (R215). -/
structure PReq where
  blk : Nat
  en : Bool
  group : Bool
  timed : Bool
  deriving DecidableEq, Repr

/-- An interface. `reqs` are requests that wait for their block; `cnt` frames of a start or stop counted;
`since` the block of the start; `want` whether slots switch to data; `rxFrom` the first sample index that passes data; `plan` the sample
indexes from which transmit data flows, or no longer flows, latest first (R211, R213); `rxOn` and `txOn` the slots that pass it (R212); `rxTurn` and `txTurn` the sample index from which slots switch, and `stop`
that from which a stop with method 0 sends zeros (R211); the
latest two samples of each slot; the blocks multiplied by a ramp (R220); `fade` the transmit index of the first sample after a loss (R218); `back` the block of a rejoin
at a new phase and the samples it drops (R220);
the block being gathered, as it is delivered and as it was received, with the latest row before it; the block being sent; the latest two frames sent, and the bits of the latest (R206); the latest sample indexes;
errored AES3 frames in a row (R224); the latest frame periods, at most 4 (R233). -/
structure Port where
  st : PState
  reqs : List PReq
  locked : Bool
  left : Bool
  cnt : Nat
  since : Nat
  want : Bool
  rxFrom : Nat
  plan : List (Nat × Bool)
  rxOn : Nat
  txOn : Nat
  rxTurn : Nat
  txTurn : Nat
  stop : Nat
  rxLast : List Word
  rxPrev : List Word
  txLast : List Word
  txPrev : List Word
  rxRamp : Option Nat
  txRamp : Option Nat
  fade : Option Nat
  back : Option (Nat × Nat)
  rxBlk : Nat
  rxBuf : Tbl (List Word)
  raw : Tbl (List Word)
  rawTail : List Word
  txBlk : Option Nat
  txBuf : Tbl (List Word)
  out : List Word
  outPrev : List Word
  dout : List Bool
  lastRx : Nat
  lastTx : Nat
  bad : Nat
  pers : List Nat
  deriving DecidableEq, Repr

def Port.off : Port :=
  ⟨.off, [], false, false, 0, 0, false, 0, [], 0, 0, 0, 0, 0, [], [], [], [], none, none, none, none, 0, [], [], [], none, [], [], [], [], 0, 0, 0, []⟩

/-- A converter attachment beside SRC_CFG and SRC_STAT (R229, R230): the ratio it last locked to; what its channels have made of their input;
the block of its first output after lock and the block that fades out after a relock, into the render path; the frames sent since either,
out of it, and whether it holds a rendered block. -/
structure Att where
  ratio : Nat
  acc : Tbl Nat
  ramp : Option Nat
  fade : Option Nat
  n : Nat
  live : Bool
  deriving DecidableEq, Repr

def Att.idle : Att := ⟨0, [], none, none, 0, false⟩

/-- An AES3 unit's channel status beside its registers: the consumer block seen last (R225); the status to be sent from the next
block on, the status as it was committed, and the bytes being sent (R227). -/
structure ChStat where
  cand : List Byte
  next : Option (List Byte)
  live : List Byte
  sent : List Byte
  deriving DecidableEq, Repr

/-- The interfaces, the attachments and the channel statuses. -/
structure Tdm where
  ports : Tbl Port
  atts : Tbl Att
  cs : Tbl ChStat
  deriving DecidableEq, Repr

def Tdm.reset : Tdm := ⟨[], [], []⟩

def ChStat.reset : ChStat := ⟨[], none, List.replicate 24 0#8, List.replicate 24 0#8⟩
def Tdm.port (t : Tdm) (k : Nat) : Port := Tbl.getD t.ports k .off
def Tdm.setPort (t : Tdm) (k : Nat) (p : Port) : Tdm := { t with ports := Tbl.set t.ports .off k p }
def Tdm.att (t : Tdm) (a : Nat) : Att := Tbl.getD t.atts a .idle
def Tdm.setAtt (t : Tdm) (a : Nat) (x : Att) : Tdm := { t with atts := Tbl.set t.atts .idle a x }
def Tdm.chStat (t : Tdm) (k : Nat) : ChStat := Tbl.getD t.cs k .reset
def Tdm.setCs (t : Tdm) (k : Nat) (x : ChStat) : Tdm := { t with cs := Tbl.set t.cs .reset k x }

end Sys2Proof.Machine
end

