-- ==== Sys2Proof/Machine/UTime.lean ====
section
/-!
DEFINITION. The state of the time unit and the reference unit beside their registers (09_time_references.md R261 to R291).
Marks (notes/assumptions): DESIGN CHOICE 103.
-/
namespace Sys2Proof.Machine

/-- A time instance (R266 to R271): its time `t` in units of 2^-48 ns at core cycle `cyc`; the integrator `i` and the frequency
word `f`; the bias and the offsets `es` and `ep` in 0.1 ns (latest shadow, latest primary e' applied); the tag of the latest
primary write and its core cycle, and the core cycle of the latest shadow write; consecutive writes within and beyond LOCK_THR; whether CLR_BIAS waits; the clockClass and
clockAccuracy of its primary domain (R279). -/
structure Ti where
  t : Int
  cyc : Nat
  i : Int
  f : Int
  b : Int
  es : Int
  ep : Int
  tag : Option Nat
  last : Option Nat
  lastS : Option Nat
  good : Nat
  bad : Nat
  clr : Bool
  cls : Nat
  acc : Nat
  deriving DecidableEq, Repr

def Ti.reset : Ti := ⟨0, 0, 0, 0, 0, 0, 0, none, none, none, 0, 0, false, 255, 0⟩

/-- A media clock (R272 to R275): its counter in samples, as last known, its bias in 1/256 sample, whether REALIGN waits. -/
structure Mc where
  n : Nat
  beta : Int
  realign : Bool
  deriving DecidableEq, Repr

def Mc.reset : Mc := ⟨0, 0, false⟩

/-- A pulse output (R276): armed with start, period and width in ns; the next rising edge; whether the output is active. -/
structure Pulse where
  armed : Bool
  start : Nat
  period : Nat
  width : Nat
  next : Nat
  high : Bool
  deriving DecidableEq, Repr

def Pulse.off : Pulse := ⟨false, 0, 0, 1, 0, false⟩

/-- A captured edge (R277): its direction, time in ns, and MCK0's sample index in 1/256 sample. -/
structure CapEnt where
  falling : Bool
  ns : Nat
  idx : Nat
  deriving DecidableEq, Repr

/-- A capture input: its queue, and the core cycle of the latest stamped edge. -/
structure CapIn where
  q : List CapEnt
  last : Option Nat
  deriving DecidableEq, Repr

def CapIn.reset : CapIn := ⟨[], none⟩

/-- A channel of the reference unit (R281, R285, R286): RC_CMD writes that wait for the tick, latest last; stage 1's frequency
offset in ppb at each tick in LOCKED, latest first; the ticks without a break in ACQUIRE with the loop error within 1/16 sample, and in LOCKED. -/
structure RefCh where
  cmds : List Nat
  hist : List Int
  near : Nat
  held : Nat
  deriving DecidableEq, Repr

def RefCh.reset : RefCh := ⟨[], [], 0, 0⟩

/-- A PTP domain pair that Station firmware runs (R261, PTP_SET of R407): port, instance, profile, domains, clock role. -/
structure PtpCfg where
  port : Nat
  inst : Nat
  profile : Nat
  domP : Nat
  domS : Nat
  role : Nat
  deriving DecidableEq, Repr

/-- The limits of R261: profiles 0 default, 1 AES67 media, 2 SMPTE ST 2059-2, 3 IEEE 802.1AS; roles 0 ordinary, 1 boundary, 2 time-aware end
station; domains to 127, of 802.1AS only 0. -/
def PtpCfg.legal (x : PtpCfg) : Bool :=
  if x.profile < 3 then decide (x.domP < 128) && decide (x.domS < 128) && decide (x.role < 2)
  else x.profile == 3 && x.domP == 0 && x.domS == 0 && x.role == 2

/-- A reference input beside its registers: the ticks since its latest LOSS, GLITCH or FREQ (R280); whether its nominal rate is of the 44.1 kHz
family (R278). -/
structure RefIn where
  since : Nat
  fam : Bool
  deriving DecidableEq, Repr

def RefIn.reset : RefIn := ⟨0, false⟩

/-- The time unit and the reference unit. -/
structure TimeUnit where
  ti : Tbl Ti
  mc : Tbl Mc
  tp : Tbl Pulse
  tc : Tbl CapIn
  rc : Tbl RefCh
  ri : Tbl RefIn
  ptp : List PtpCfg
  deriving DecidableEq, Repr

def TimeUnit.reset : TimeUnit := ⟨[], [], [], [], [], [], []⟩

/-- A reset in core cycle `cyc`: every instance is at time 0 then (R266). -/
def TimeUnit.resetAt (cyc : Nat) : TimeUnit :=
  { TimeUnit.reset with ti := (List.range 4).foldl (fun t i => Tbl.set t .reset i { Ti.reset with cyc := cyc }) [] }

end Sys2Proof.Machine
end

