-- ==== Sys2Proof/Machine/UTwin.lean ====
section
/-!
DEFINITION. The state of the twin block beside its registers (12_twin.md R337 to R366).
-/
namespace Sys2Proof.Machine

/-- The twin unit: block of a pending manual switch, and on the new ACTIVE the block whose last writes it awaits (R357); the peer's state as last
reported; whether an own fault stands recorded; the local-output gate, the blocks from which it opens and closes, the block that ramps in
(R350); BLOCK frames received and not rendered yet, oldest first; departures that wait for their frame, with the unit's own input slots; chunks
and CRCPASS frames that wait for their block; what the next BLOCK frame collects; own checksums with their LATE flags, latest first; consecutive
mismatches, matching blocks in CONFIRM, consecutive skewed MARKs; loader data that has come, oldest first, loader commands that wait for
their loader, the loads that need such data though the unit is no copy any more (R356), and on the ACTIVE the loads that the STANDBY has not
finished (R346); the chunk that the verify pass stands at and the mismatches in it; since the latest health report: corrected errors, failed
fabric checks, DRAM pattern errors, link errors, engines tested and passed; the frames sent since the latest departure and the SEQ of the next
one (R341); the block of the latest MARK that was compared; on the ACTIVE the chunks, as first number and count, that the STANDBY lacks and the
chunk that its CRCPASS frames stand at. -/
structure Twin where
  sw : Option Nat
  last : Option Nat
  peer : Nat
  own : Bool
  gate : Bool
  openAt : Option Nat
  closeAt : Option Nat
  rampBlk : Option Nat
  frames : List BlockFrame
  held : List (Nat × Tbl QSlot)
  chunks : List ChunkFrame
  crcs : List CrcPass
  wlog : List WriteRec
  ulog : List UpdRec
  mlog : Option ModeRec
  sums : List (Nat × Word × Bool)
  mism : Nat
  confirm : Nat
  skewN : Nat
  bulk : List BulkFrame
  loadq : List LoadCmd
  src : List Loader
  bulkPend : List LoadCmd
  crcPos : Nat
  passBad : Nat
  ce : Nat
  fab : Nat
  pat : Nat
  lerr : Nat
  tested : Nat
  passed : Nat
  tx : List TwinFrame
  seq : Word
  markBlk : Option Nat
  wants : List (Nat × Nat)
  crcAt : Nat
  deriving DecidableEq, Repr

def Twin.reset : Twin :=
  ⟨none, none, 0, false, false, none, none, none, [], [], [], [], [], [], none, [], 0, 0, 0, [], [], [], [], 0, 0, 0, 0, 0, 0, 0, 0, [],
   0#32, none, [], 0⟩

end Sys2Proof.Machine
end

