-- ==== Sys2Proof/Machine/Dev.lean ====
section
/-!
DEFINITION. The device: every register and unit of the block, all of State but the command queue, the memory and the
fuses. Plain data throughout.
Marks (notes/assumptions): DESIGN CHOICE 14; PRESUMED 101.
-/
namespace Sys2Proof.Machine

/-- The answer of the latest bus access: the words read and the error status (00_scope.md R13). The model's own. -/
structure Resp where
  data : List Word
  err : Bool
  deriving DecidableEq, Repr

/-- The capabilities the variant has (18_variants_fuses.md R482 to R486). -/
structure Caps where
  objs : Nat
  feeds : Nat
  taps : Nat
  engines : Nat
  twin : Bool
  netb : Bool
  netMax : Nat
  dram : Bool
  analog : Bool
  tdm16 : Bool
  word : Word
  err : Bool
  pkg : Bool
  deriving DecidableEq, Repr

/-- MSI-X (00_scope.md R21; 14_host_mailboxes.md R389): the vectors sent, by number; the table's words that differ from their reset values; the
pending bits. -/
structure Msix where
  sent : Tbl Nat
  table : Tbl Word
  pend : Nat
  deriving DecidableEq, Repr

def Msix.reset : Msix := ⟨[], [], 0⟩

/-- The table's words at reset: every vector is masked (PRESUMED, PCI Express, log 101). -/
def msixRst (k : Nat) : Word := if k % 4 = 3 then 1#32 else 0#32

/-- Word `k` of the table: four to a vector, of which the last is its control word. -/
def Msix.word (x : Msix) (k : Nat) : Word := Tbl.getD x.table k (msixRst k)

/-- Vector `n` is sent, or while it is masked stays pending. -/
def Msix.raise (n : Nat) (x : Msix) : Msix :=
  if (x.word (4 * n + 3)).getLsbD 0 then { x with pend := x.pend ||| 2 ^ n }
  else { x with sent := Tbl.set x.sent 0 n (Tbl.getD x.sent n 0 + 1) }

/-- The host writes word `k`: of the control word the mask bit alone. A pending vector that is no longer masked is sent. -/
def Msix.write (k : Nat) (v : Word) (x : Msix) : Msix :=
  let w := if k % 4 = 3 then v &&& 1#32 else if k % 4 = 0 then v &&& 0xFFFFFFFC#32 else v
  let x := { x with table := Tbl.set x.table (msixRst k) k w }
  if k % 4 = 3 ∧ x.pend.testBit (k / 4) then ({ x with pend := x.pend ^^^ 2 ^ (k / 4) } : Msix).raise (k / 4) else x

structure Dev where
  regs : RegFile
  caps : Tbl Word
  stg : Tbl Word
  resp : Resp
  free : Nat
  nextDep : Nat
  now : Nat
  msix : Msix
  cap : Caps
  fs : Nat
  q : Queues
  gsv : Gsv
  crm : Crm
  cce : Cce
  vf : Virif
  sb : Sbox
  tdm : Tdm
  net : Net
  tu : TimeUnit
  ai : AnalogIn
  ao : AnalogOut
  tw : Twin
  ms : Msys
  hi : HostIf
  md : Modes
  ld : Option Load
  cs : Consist
  se : Secure
  deriving DecidableEq, Repr

end Sys2Proof.Machine
end

