-- ==== Sys2Proof/Machine/Ops.lean ====
section
/-!
DEFINITION. The named operations every meaning is written with: registers and fields, events, counters, peaks,
selects and holding registers, free values, tickets (00_scope.md R12 to R21, R511, R513; 01_architecture.md R32 to
R36).
Marks (notes/assumptions): DESIGN CHOICE 9; DEDUCED 83.
-/
namespace Sys2Proof.Machine

/-! ### Registers -/

def Dev.rd (d : Dev) (r : Reg) : Word := d.regs.rd r
def Dev.wr (d : Dev) (r : Reg) (v : Word) : Dev := { d with regs := d.regs.wr r v }

/-- A field's value. -/
def Dev.f (d : Dev) (f : Fld) : Nat := bits (d.rd f.reg) f.lo f.len
def Dev.fb (d : Dev) (f : Fld) : Bool := d.f f != 0

/-- The device with a field set. -/
def Dev.setF (d : Dev) (f : Fld) (v : Nat) : Dev := d.wr f.reg (setBits (d.rd f.reg) f.lo f.len v)
def Dev.setB (d : Dev) (f : Fld) (v : Bool) : Dev := d.setF f (b2n v)

/-- `g d` when `c` holds, else `d`. -/
def Dev.when (d : Dev) (c : Bool) (g : Dev → Dev) : Dev := if c then g d else d

/-- A counter of 32 bits goes up by `n` and saturates. -/
def Dev.bumpBy (d : Dev) (r : Reg) (n : Nat) : Dev := d.wr r (w32 (min ((d.rd r).toNat + n) (2 ^ 32 - 1)))
def Dev.bump (d : Dev) (r : Reg) : Dev := d.bumpBy r 1

/-- A counter field goes up by one and saturates. -/
def Dev.bumpF (d : Dev) (f : Fld) : Dev := d.setF f (satInc f.len (d.f f))

/-- A peak field keeps the larger value (R513). -/
def Dev.peakF (d : Dev) (f : Fld) (v : Nat) : Dev := if d.f f < v then d.setF f v else d

/-- The registers of a list back at their reset values. -/
def Dev.clear (d : Dev) (rs : List Reg) : Dev := rs.foldl (fun d r => d.wr r (w32 r.rst)) d

/-- Every copy of the registers of a list set to 0, whatever instance it belongs to. -/
def Dev.zeroAll (d : Dev) (rs : List Reg) : Dev :=
  { d with regs := Tbl.drop d.regs (fun k => rs.any (fun r => keyBlk k == r.blk && keyOff k == r.off)) }

/-- A 64-bit value in two registers, the lower word first (R14). -/
def Dev.rd64 (d : Dev) (lo hi : Reg) : Nat := pair (d.rd lo) (d.rd hi)
def Dev.wr64 (d : Dev) (lo hi : Reg) (v : Nat) : Dev := (d.wr lo (w32 v)).wr hi (w32 (v / 2 ^ 32))

/-! ### Events (R15, R20) -/

def evtReg (b : Nat) : Reg := ⟨b, 4, 0, 0, 0, 0⟩
def evtEnReg (b : Nat) : Reg := ⟨b, 8, 0, 0, 0, 0⟩
def statusReg (b : Nat) : Reg := ⟨b, 0xC, 0, 0, 0, 0⟩

/-- A register with bit `i` set. -/
def Dev.setBit (d : Dev) (r : Reg) (i : Nat) : Dev := d.wr r (d.rd r ||| w32 (2 ^ i))
def Dev.clrBit (d : Dev) (r : Reg) (i : Nat) : Dev := d.wr r (d.rd r &&& ~~~ (w32 (2 ^ i)))

/-- An event bit sets (R15). -/
def Dev.evt (d : Dev) (e : EvBit) : Dev := d.setBit (evtReg e.blk) e.bit

/-! ### Modes (R7) -/

def Dev.mode (d : Dev) : Nat := d.f F.STATUS_SYS_MODE

def mDepot : Nat := 0
def mSiding : Nat := 1
def mShunt : Nat := 2
def mMainline : Nat := 3
def mHalt : Nat := 4
def mInspection : Nat := 5

def Dev.inMode (d : Dev) (m : Nat) : Bool := d.mode == m

/-- The debug level (17_security_debug.md R476): 3 while unlocked; while an attach is in effect, by life-cycle state
(OPEN 2, DEV 3, SEALED and RETIRED 1); else, and in Depot and Siding, 0. -/
def Dev.level (d : Dev) : Nat :=
  if d.fb F.STATUS_SEC_UNLOCKED then 3
  else if d.fb F.STATUS_SEC_ATTACH && !d.inMode mDepot && !d.inMode mSiding then
    match d.f F.STATUS_SEC_LC with
    | 0 => 2
    | 1 => 3
    | _ => 1
  else 0

/-! ### Selects (R17 to R19) -/

def Reg.idx (d : Dev) (r : Reg) (m : Agent) : Nat := bits (d.rd (r.of m.num)) 0 16
def Reg.ainc (d : Dev) (r : Reg) (m : Agent) : Bool := bit (d.rd (r.of m.num)) 31

/-- The index after one step over `cnt` instances: from the last one, or from beyond it, it wraps to 0 (R19). -/
def stepIdx (i cnt : Nat) : Nat := if i + 1 ≥ cnt then 0 else i + 1

/-- A select register of agent `m` steps. -/
def Dev.stepSel (d : Dev) (r : Reg) (m : Agent) (cnt : Nat) : Dev :=
  let w := d.rd (r.of m.num)
  d.wr (r.of m.num) (setBits w 0 16 (stepIdx (bits w 0 16) cnt))

/-- The access to a window's last register steps the select register when AINC is set (R17, R19). -/
def Dev.autoInc (d : Dev) (r : Reg) (m : Agent) (cnt : Nat) : Dev :=
  if Reg.ainc d r m then d.stepSel r m cnt else d

/-! ### Holding registers (R14, R511) -/

def Dev.hold (d : Dev) (r : Reg) (m : Agent) : Word := Tbl.getD d.caps (r.of m.num).key 0#32
def Dev.setHold (d : Dev) (r : Reg) (m : Agent) (v : Word) : Dev :=
  { d with caps := Tbl.set d.caps 0#32 (r.of m.num).key v }
def Dev.staged (d : Dev) (r : Reg) (m : Agent) : Word := Tbl.getD d.stg (r.of m.num).key 0#32
def Dev.stage (d : Dev) (r : Reg) (m : Agent) (v : Word) : Dev :=
  { d with stg := Tbl.set d.stg 0#32 (r.of m.num).key v }

/-- The registers and holding registers of a block back at reset (R511). -/
def Dev.resetRegs (d : Dev) (b : Nat) : Dev :=
  { d with regs := d.regs.resetBlk b,
           caps := Tbl.drop d.caps (fun k => keyBlk k == b),
           stg := Tbl.drop d.stg (fun k => keyBlk k == b) }

/-! ### Answers and free values -/

def Dev.answer (d : Dev) (w : Word) : Dev := { d with resp := ⟨[w], false⟩ }
def Dev.answers (d : Dev) (ws : List Word) : Dev := { d with resp := ⟨ws, false⟩ }
def Dev.busError (d : Dev) : Dev := { d with resp := ⟨[], true⟩ }

/-- The next free value, and the device that has used it. -/
def Dev.fresh (d : Dev) : Word × Dev := (Config.freeWord d.free, { d with free := d.free + 1 })

/-- The next `n` free values. -/
def Dev.freshN (d : Dev) (n : Nat) : List Word × Dev :=
  ((List.range n).map (fun i => Config.freeWord (d.free + i)), { d with free := d.free + n })

/-! ### Tickets (01_architecture.md R34 to R36) -/

def Dev.onQ (d : Dev) (g : Queues → Queues) : Dev := { d with q := g d.q }

def Dev.onMd (d : Dev) (g : Modes → Modes) : Dev := { d with md := g d.md }

/-- BREV of a block (00_scope.md R512). -/
def brev (b : Nat) : Nat :=
  match b with
  | 0 => 2 | 3 => 2 | 4 => 3 | 5 => 2
  | _ => 1

/-! ### The render rate (00_scope.md R9; code of CRM_DIM.FS) -/

def fsHz (c : Nat) : Nat := if c = 0 then 48000 else if c = 1 then 96000 else if c = 2 then 44100 else 88200
def Dev.rate (d : Dev) : Nat := fsHz d.fs

/-- The block on which a write of rendering state takes effect now (R32). -/
def Dev.effBlk (d : Dev) : Nat := d.nextDep

/-- Is block `b` rendered: Mainline, and no sequenced transition past its feed ramp (16_modes_power.md R443, R447)? -/
def Dev.renders (d : Dev) : Bool :=
  d.inMode mMainline && !(d.fb F.STATUS_SYS_TRANS && decide (2 ≤ d.f F.STATUS_SYS_STEP))

/-- Does block `k` fall within the running Halt (03_crosspoint.md R99; 04_correction.md R137; 06_signal_box.md R200)? -/
def Dev.within (d : Dev) (k : Nat) : Bool := d.inMode mHalt && decide (d.md.halt ≤ k)

/-- Did block `b` depart in the latest run of rendering (16_modes_power.md R443, R445)? -/
def Dev.live (d : Dev) (b : Nat) : Bool :=
  match d.md.run with
  | some (fr, goal) => decide (fr ≤ b) && decide (b ≤ goal)
  | none => false

/-- Will block `b`, being received, depart (R443, R445)? -/
def Dev.due (d : Dev) (b : Nat) : Bool :=
  match d.md.resume with
  | some (r, _) => decide (r ≤ b)
  | none => d.renders &&
      (match d.md.leave with | some l => decide (b < l.atBlk) || (d.md.back && (l.goal == mSiding || l.goal == mDepot)) | none => true)

end Sys2Proof.Machine
end

