-- ==== Sys2Proof/Machine/Evts.lean ====
section
/-!
DEFINITION. The event words of the blocks, with the bits that summarise the events of their instances (07_tdm_ports.md R232;
08_network.md R260; 10_analog_inputs.md R318; 11_analog_outputs.md R336), and the event summary (00_scope.md R21).
-/
namespace Sys2Proof.Machine

/-- EVT of block 6: the ports and receivers with an enabled event. -/
def tioEvt (d : Dev) : Word :=
  let ports := (List.range 16).foldl (fun n k => n + (if d.rd (R.PT_EVT.of k) &&& d.rd (R.PT_EVT_EN.of k) = 0#32 then 0 else 2 ^ k)) 0
  let aes := (List.range 2).foldl (fun n r => n + (if d.rd (R.AR_EVT.at r) &&& d.rd (R.AR_EVT_EN.at r) = 0#32 then 0 else 2 ^ r)) 0
  setBits (d.rd R.EVT_TIO) 0 18 (aes * 2 ^ 16 + ports)


/-- EVT of block 7: the ports with an enabled event and the streams' flags. -/
def netEvt (d : Dev) : Word :=
  let ports := (List.range 3).foldl (fun n p => n + (if d.rd (R.NP_EVT.at p) &&& d.rd (R.NP_EVT_EN.at p) = 0#32 then 0 else 2 ^ p)) 0
  let st := b2n ((List.range 8).any (fun k => d.rd (R.ST_FMAP.at k) != 0#32))
  setBits (d.rd R.EVT_NET) 2 4 (st * 8 + ports)

/-- EVT of the block: bits 7:0 show the inputs with an enabled event (R318). -/
def Dev.aiEvt (d : Dev) : Word :=
  let sum := (List.range 8).foldl (fun w n =>
    if d.rd (R.AI_EVT.of n) &&& d.rd (R.AI_EVT_EN.of n) ≠ 0#32 then w + 2 ^ n else w) 0
  merge (d.rd R.EVT_AI) 0xFF#32 (w32 sum)

def Dev.jackSum (d : Dev) : Bool := d.rd R.JD_EVT &&& d.rd R.JD_EVT_EN ≠ 0#32

/-- EVT of block 11: the channels with an enabled event and the jack-sense unit. -/
def Dev.aoEvt (d : Dev) : Word :=
  let sum := (List.range 12).foldl (fun w c =>
    if d.rd (R.AO_EVT.of c) &&& d.rd (R.AO_EVT_EN.of c) ≠ 0#32 then w + 2 ^ c else w) 0
  merge (d.rd R.EVT_AO) 0x8FFF#32 (w32 (sum + b2n d.jackSum * 2 ^ 15))

/-- EVT of block 14: the maps that are not empty (14_host_mailboxes.md R408). -/
def mbxEvt (d : Dev) : Word :=
  let some' (r : Reg) (k : Nat) : Nat := if d.rd r = 0#32 then 0 else 2 ^ k
  merge (d.rd R.EVT_MBX) 0x8E#32 (w32 ((if d.rd (R.LK_BRK.at 0) = 0#32 ∧ d.rd (R.LK_BRK.at 1) = 0#32 then 0 else 2 ^ 7) +
    some' R.MB_TO_MAP 3 + some' R.MB_EMPTY_MAP 2 + some' R.MB_FULL_MAP 1))

/-- EVT of block 15: GPIO_EVT is not zero (R409). -/
def hifEvt (d : Dev) : Word := setBits (d.rd R.EVT_HIF) 3 1 (if d.rd R.GPIO_EVT = 0#32 then 0 else 1)

/-- EVT of block `n` as it reads. -/
def Dev.evtWord (d : Dev) (n : Nat) : Word :=
  if n = 6 then tioEvt d else if n = 7 then netEvt d else if n = 10 then d.aiEvt else if n = 11 then d.aoEvt
  else if n = 14 then mbxEvt d else if n = 15 then hifEvt d
  else d.rd (evtReg n)

/-- Bit `n` of EVT_SUM: some enabled event of block `n` is set (R21). -/
def Dev.sumBit (d : Dev) (n : Nat) : Bool := d.evtWord n &&& d.rd (evtEnReg n) ≠ 0#32

/-- EVT_SUM (R21). -/
def Dev.evtSum (d : Dev) : Word := (List.range 17).foldl (fun w n => if d.sumBit n then w ||| w32 (2 ^ n) else w) 0#32

/-- IRQ_N is low while any EVT_SUM bit is 1 (R21). -/
def Dev.irqLow (d : Dev) : Bool := d.evtSum ≠ 0#32

end Sys2Proof.Machine
end

