-- ==== Sys2Proof/Machine/Fuse.lean ====
section
/-!
DEFINITION. The fuse bank, the capability word and the device right after a power-on reset (18_variants_fuses.md R479 to
R490; 16_modes_power.md R455).
Marks (notes/assumptions): DESIGN CHOICE 2, 4.
-/
namespace Sys2Proof.Machine

/-- The fuse bank: words 0 to 127; an unlisted word is 0, unburnt (R479). -/
abbrev Fuses := Tbl Word

def fuse (z : Fuses) (k : Nat) : Word := Tbl.getD z k 0#32

/-- The life-cycle state: the highest group with a bit burned (R480). -/
def lifeCycle (z : Fuses) : Nat :=
  if fuse z 2 ≠ 0#32 then 3 else if fuse z 1 ≠ 0#32 then 2 else if fuse z 0 ≠ 0#32 then 1 else 0

/-- Does the capability word pass its check, with the package as sensed (R482, R484)? -/
def capsGood (z : Fuses) (pkg : Bool) : Bool :=
  let w := fuse z 3
  decide (fuse z 4 = ~~~w) && decide (1 ≤ bits w 24 8) && decide (bits w 24 8 ≤ 12) && (bit w 23 == pkg) && !bit w 19 &&
    !bit w 15 && decide (2 ≤ bits w 12 3) && decide (bits w 12 3 ≤ 4) && decide (bits w 8 4 ≤ 6) && decide (bits w 4 4 ≤ 5) &&
    decide (bits w 0 4 ≤ 4)

/-- The capability word in use: as fused, or the floor set (R484). -/
def capsWord (z : Fuses) (pkg : Bool) : Word :=
  if capsGood z pkg then fuse z 3 else w32 (b2n pkg * 2 ^ 23 + 0x2000)

/-- The effective capabilities (R482, R485). -/
def capsOf (z : Fuses) (pkg : Bool) : Caps :=
  let w := capsWord z pkg
  { objs := 64 * 2 ^ bits w 0 4, feeds := 32 * 2 ^ bits w 4 4, taps := 65536 * 2 ^ bits w 8 4, engines := 4 * bits w 12 3,
    twin := bit w 22 && pkg, netb := bit w 18, netMax := bits w 16 2, dram := bit w 21, analog := bit w 20, tdm16 := pkg,
    word := setBits w 22 1 (b2n (bit w 22 && pkg)), err := !capsGood z pkg, pkg := pkg }

/-- The registers that a sensing of the fuses sets (R478, R488 to R490). SYS_REV never holds its reset value of the map, which is 0. -/
def sensedRegs (z : Fuses) (c : Caps) (t : RegFile) : RegFile :=
  let keyset := (List.range 8).any (fun k => fuse z (8 + k) ≠ 0#32)
  let rows : List (Reg × Word) :=
    [(R.STATUS_SEC, w32 (b2n keyset * 2 ^ 11 + lifeCycle z)), (R.SEC_DEVID_LO, fuse z 6), (R.SEC_DEVID_HI, fuse z 7),
     (R.HIF_PCI_ID, if c.err then w32 (0x90000000 + bits (fuse z 5) 0 16) else fuse z 5),
     (R.SYS_CAPS, c.word),
     (R.SYS_CAPS_STAT, w32 (b2n c.pkg * 4 + b2n c.tdm16 * 2 + b2n c.err)),
     (R.SYS_LIMIT0, w32 (c.feeds * 2 ^ 16 + c.objs)), (R.SYS_LIMIT1, w32 (c.engines * 2 ^ 24 + c.taps))]
  let t := rows.foldl (fun t p => RegFile.wr t p.1 p.2) t
  Tbl.put t R.SYS_REV.key (w32 (0xFF090000 + Config.dieLetter % 16 * 16 + Config.dieDigit % 10))

/-- The mailboxes and firmware before a boot. -/
def HostIf.reset : HostIf := ⟨[], [], [], 0, [], none, [], [], none, [], Config.defaultFirmware, [], [], false, [], none⟩

/-- The device at a power-on reset (R455): every register at its reset value, the rails off, no consist active, a boot due. -/
def Dev.por (z : Fuses) (pkg strap : Bool) (free : Nat) : Dev :=
  let c := capsOf z pkg
  { regs := sensedRegs z c [], caps := [], stg := [], resp := ⟨[], false⟩, free := free, nextDep := 0, now := 0, msix := .reset,
    cap := c, fs := 0, q := .reset, gsv := .reset, crm := .reset, cce := .reset, vf := .reset, sb := .reset, tdm := .reset,
    net := .reset, tu := .reset, ai := .reset, ao := .reset, tw := .reset, ms := .reset, hi := { HostIf.reset with strap := strap }, md := .reset, ld := none,
    cs := ⟨false, false, [], none⟩, se := .reset }

/-- The main domain is released: STATUS shows its rails on, at rail step 4 (16_modes_power.md R453, R460). -/
def Dev.release (d : Dev) : Dev := { d with regs := d.regs.wr R.STATUS_DP 9#32 }

/-- The fuse bank of the model's part: an FF9-C1024, OPEN, with no key hash (R479, R483). -/
def Fuses.c1024 : Fuses := [(3, 0x01F74654#32), (4, 0xFE08B9AB#32), (5, 0x90011F4A#32), (6, 1#32)]

end Sys2Proof.Machine
end

