-- ==== Sys2Proof/Machine/State.lean ====
section
/-!
DEFINITION. The state of the block: the queue of waiting commands, the memory, the fuse bank and the device; the
reasons a step can stop; the state right after a power-on reset.
Marks (notes/assumptions): DESIGN CHOICE 1, 2, 6.
-/
namespace Sys2Proof.Machine

/-- No command of the block stops it with a fault: errors are effects on registers and events, so this type has no
constructor (safe). -/
inductive Fault
  deriving DecidableEq, Repr

/-- Why a command is refused. -/
inductive Refusal
  /-- Raised by `exec` for a row whose meaning is not written (safe). -/
  | notModelled (mnemonic : String)
  deriving DecidableEq, Repr

structure State where
  pending : List Instr
  mem : List Host.Cell
  fuses : Fuses
  dev : Dev
  deriving DecidableEq, Repr

/-- The block right after a power-on reset: the main domain has just been released. -/
def State.reset : State := ⟨[], [], Fuses.c1024, (Dev.por Fuses.c1024 true false 0).release⟩

/-- What a meaning answers. -/
abbrev Out := Host.Outcome State Fault Refusal

end Sys2Proof.Machine
end

