-- ==== Sys2Proof/Machine/Run.lean ====
section
/-!
DEFINITION. How a meaning answers: the device after the command's effect, with the MSI-X vectors that the command's
events send (00_scope.md R21).
Marks (notes/assumptions): DESIGN CHOICE 6, 14; DEDUCED 10, 16.
-/
namespace Sys2Proof.Machine

/-- Each rise of an EVT_SUM bit sends its MSI-X vector once, when the vector is not masked (R21; 14_host_mailboxes.md R389). -/
def notify (old new : Dev) : Dev :=
  (List.range 17).foldl (fun d n =>
    if !old.sumBit n && new.sumBit n then { d with msix := d.msix.raise n } else d) new

/-- A wake source acts: its cause latches (16_modes_power.md R452). -/
def latchWake (k : Nat) (d : Dev) : Dev := (d.setBit R.DP_WAKE_CAUSE k).evt Ev.DP_WAKE

/-- The main domain has no power or is held in reset: Depot, and until rail step 4 (16_modes_power.md R451, R453). -/
def Dev.dark (d : Dev) : Bool := d.inMode mDepot || d.f F.STATUS_DP_RSTEP != 4

/-- The units do not run and take no command: the main domain is off, or in Siding its clocks stand (00_scope.md R7;
16_modes_power.md R449, R451). -/
def Dev.asleep (d : Dev) : Bool := d.dark || d.inMode mSiding

/-- An access by the PCIe or the SPI host in Siding wakes the part; it is made after the exit (16_modes_power.md R452). -/
def Dev.knocks (d : Dev) (m : Agent) : Bool := d.inMode mSiding && !d.dark && (m.num == 1 || m.num == 2)

def Dev.onHi (d : Dev) (g : HostIf → HostIf) : Dev := { d with hi := g d.hi }

/-- Such an access latches the cause, and waits (16_modes_power.md R452). -/
def knock (x : LateAcc) (d : Dev) : Dev := latchWake 5 (d.onHi (fun h => { h with late := h.late ++ [x] }))

/-- The effect of a command that touches the device alone. -/
def State.onDev (s : State) (g : Dev → Dev) : State := { s with dev := notify s.dev (g s.dev) }

/-- The effect of a command that may also touch the memory. -/
def State.onMem (s : State) (g : List Host.Cell → Dev → List Host.Cell × Dev) : State :=
  let r := g s.mem s.dev
  { s with mem := r.1, dev := notify s.dev r.2 }

/-- A command that touches the device alone. -/
def ok (s : State) (g : Dev → Dev) : Out := .next (s.onDev (fun d => d.when (!d.asleep) g))

/-- A command that acts in Siding too. -/
def okOn (s : State) (g : Dev → Dev) : Out := .next (s.onDev (fun d => d.when (!d.dark) g))

/-! ### The bridges' accesses (13_memory.md R376, R377, R388) -/

def Dev.onMs (d : Dev) (g : Msys → Msys) : Dev := { d with ms := g d.ms }

/-- The target that master `m` holds locked (13_memory.md R377). -/
def Dev.lockedBy (d : Dev) (m : Nat) : Option Nat := (d.ms.locks.find? (fun e => e.2 == m)).map Prod.fst

/-- A target has granted a burst to master `m` (13_memory.md R376, R388). -/
def granted (t m : Nat) (write : Bool) (d : Dev) : Dev :=
  d.onMs (fun x => { x with granted := Tbl.put x.granted (2 * t + b2n write) m, reqs := Tbl.set x.reqs 0 t (Tbl.getD x.reqs t 0 + 1) })

/-- A request outside the sequence that its master has open at target `u` ends the sequence, and completes with the error response (13_memory.md
R377). -/
def lockBreak (u : Nat) (d : Dev) : Dev :=
  ((d.onMs (fun x => { x with locks := Tbl.del x.locks u })).evt Ev.MS_LOCK_ERR).busError

/-- An access by agent `m` through a bridge, target `t`. -/
def bridged (m : Agent) (t : Nat) (write : Bool) (g : Dev → Dev) (d : Dev) : Dev :=
  match d.lockedBy m.master with
  | some u => lockBreak u d
  | none => g (granted t m.master write d)

/-- An access by agent `m` to the register at `a`, which writes `v`. -/
def okBy (m : Agent) (a : Nat) (v : Word) (s : State) (g : Dev → Dev) (write : Bool := true) (t : Nat := 11) : Out :=
  .next (s.onDev (fun d => if d.knocks m then knock (.word m a write v) d else d.when (!d.asleep) (bridged m t write g)))

/-- An access by agent `m` that the other agents may make in Siding too. -/
def okOnBy (m : Agent) (a : Nat) (v : Word) (s : State) (g : Dev → Dev) (write : Bool := true) : Out :=
  .next (s.onDev (fun d => if d.knocks m then knock (.word m a write v) d else d.when (!d.dark) (bridged m 11 write g)))

/-- A command that acts in every mode. -/
def okAny (s : State) (g : Dev → Dev) : Out := .next (s.onDev g)

/-- A command that may also touch the memory. -/
def okM (s : State) (g : List Host.Cell → Dev → List Host.Cell × Dev) : Out :=
  .next (s.onMem (fun m d => if d.asleep then (m, d) else g m d))

/-- A command that may also touch the memory and acts in every mode. -/
def okAnyM (s : State) (g : List Host.Cell → Dev → List Host.Cell × Dev) : Out := .next (s.onMem g)

/-- What a command of `okAll` acts on: the fuses, the memory and the device. -/
structure World where
  fuses : Fuses
  mem : List Host.Cell
  dev : Dev
  deriving DecidableEq, Repr

def World.onDev (w : World) (g : Dev → Dev) : World := { w with dev := g w.dev }
def World.when (w : World) (c : Bool) (g : World → World) : World := if c then g w else w

/-- The effect of a command that may touch everything but the queue. -/
def State.onAll (s : State) (g : World → World) : State :=
  let r := g ⟨s.fuses, s.mem, s.dev⟩
  ⟨s.pending, r.mem, r.fuses, notify s.dev r.dev⟩

/-- What a step from `old` makes of EVT_SUM is sent. -/
def World.sends (new old : World) : World := new.onDev (notify old.dev)

/-- The effect of a transfer of several words, each of which sends its own vectors. -/
def State.onAllWords (s : State) (g : World → World) : State :=
  let r := g ⟨s.fuses, s.mem, s.dev⟩
  ⟨s.pending, r.mem, r.fuses, r.dev⟩

/-- The access `x` of several words by agent `m`. -/
def okFrame (m : Agent) (x : LateAcc) (s : State) (g : World → World) : Out :=
  .next (s.onAllWords (fun w => if w.dev.knocks m then (w.onDev (knock x)).sends w else w.when (!w.dev.asleep) g))

/-- A command that acts in every mode and may touch everything but the queue. -/
def okAll (s : State) (g : World → World) : Out := .next (s.onAll g)

/-- An access by agent `m` through a bridge that may touch everything but the queue. -/
def bridgedAll (m : Agent) (t : Nat) (write : Bool) (g : World → World) (w : World) : World :=
  match w.dev.lockedBy m.master with
  | some u => w.onDev (lockBreak u)
  | none => g (w.onDev (granted t m.master write))

/-- An access by agent `m` that may touch everything but the queue. -/
def okAllBy (m : Agent) (a : Nat) (v : Word) (s : State) (g : World → World) : Out :=
  .next (s.onAll (fun w => if w.dev.knocks m then w.onDev (knock (.word m a true v)) else w.when (!w.dev.asleep) (bridgedAll m 11 true g)))

end Sys2Proof.Machine
end

