-- ==== Sys2Proof/Machine/Dram.lean ====
section
/-!
DEFINITION. DRAM addresses as every fetch meets them: usable DRAM and valid segments (13_memory.md R381, R382).
-/
namespace Sys2Proof.Machine

def drBase : Nat := 0x100000000

/-- The bytes of a segment (R382). -/
def Dev.segBytes (d : Dev) : Nat := d.f F.DR_CFG_SEGSZ * 2 ^ 25

/-- The segment of a usable DRAM address (R381, R382). -/
def Dev.drSeg (d : Dev) (a : Nat) : Option Nat :=
  if drBase ≤ a && decide (a < drBase + 8 * d.segBytes) then some ((a - drBase) / d.segBytes) else none

/-- How an access to a DRAM address ends: with data, with an error, with the error of an invalid segment (R381, R382,
R385). -/
inductive DrAns
  | data | error | invalid
  deriving DecidableEq, Repr

def Dev.drAns (d : Dev) (a : Nat) : DrAns :=
  if !d.cap.dram || d.f F.DR_STATUS_STATE != 2 then .error
  else match d.drSeg a with
    | none => .error
    | some k => if (d.f F.DR_STATUS_VALID >>> k) % 2 = 1 then .data else .invalid

/-- May a unit fetch from address `a`: control SRAM, audio store, a valid DRAM segment (03_crosspoint.md R105)? -/
def Dev.canFetch (d : Dev) (a : Nat) : Bool := inSram a || inAudio a || d.drAns a == .data

/-- An access to an invalid segment is counted (R382). -/
def fetchMiss (a : Nat) (d : Dev) : Dev :=
  d.when (inDram a && d.drAns a == .invalid) (fun d => (d.bump R.DR_INVAL_CNT).evt Ev.MS_DR_INVAL)

end Sys2Proof.Machine
end

