-- ==== Sys2Proof/Machine/Twin.lean ====
section
/-!
DEFINITION. Twin operation, the part every unit uses: states, faults, the local-output gate, what the ACTIVE copies
(12_twin.md R340, R343, R345, R349 to R353).
Marks (notes/assumptions): DEDUCED 63, 66.
-/
namespace Sys2Proof.Machine

def Dev.onTw (d : Dev) (g : Twin → Twin) : Dev := { d with tw := g d.tw }

def twOff : Nat := 0
def twHello : Nat := 1
def twSolo : Nat := 2
def twActive : Nat := 3
def twSyncing : Nat := 4
def twStandby : Nat := 5
def twDetached : Nat := 6
def twFaulted : Nat := 7

/-- STATUS.STATE (R340). -/
def Dev.twSt (d : Dev) : Nat := d.f F.STATUS_TWN_STATE

/-- The unit is a STANDBY, in state SYNCING or STANDBY. -/
def Dev.twCopy (d : Dev) : Bool := d.twSt == twSyncing || d.twSt == twStandby

/-- TWIN_OK is high in ACTIVE, SOLO and STANDBY with no own fault recorded (R339). -/
def twPins (d : Dev) : Dev :=
  let st := d.twSt
  d.setB F.STATUS_TWN_OK_PIN ((st == twActive || st == twSolo || st == twStandby) && !d.tw.own)

/-- The loads that run on the unit. -/
def Dev.loads (d : Dev) : List Loader :=
  (if d.crm.ldRun then [.node] else []) ++ (if d.cce.load.isSome then [.fir] else []) ++ (if d.sb.ld.isSome then [.graph] else [])

/-- Which loads keep to their BULK data once the unit is in state `st` (R356): those of a unit that is no copy any more and no ACTIVE. -/
def Dev.srcIn (d : Dev) (st : Nat) : List Loader :=
  if st = twDetached ∨ st = twFaulted ∨ st = twSolo then (if d.twCopy then d.loads else d.tw.src) else []

/-- The unit enters a state (R340). -/
def twState (st : Nat) (d : Dev) : Dev :=
  let was := d.twSt
  let d := d.onTw (fun t => { t with src := d.srcIn st })
  let d := d.setF F.STATUS_TWN_STATE st
  let d := if st = twSyncing then d else d.setF F.STATUS_TWN_PHASE 0
  let d := if st = twActive then d else d.onTw (fun t => { t with bulkPend := [], wlog := [], ulog := [], mlog := none, last := none })
  (twPins d).when (was != st) (fun d => d.evt Ev.TWN_STATE)

/-- A frame is sent, with the next SEQ (R341). -/
def twSend (f : TwinFrame) (d : Dev) : Dev := d.onTw (fun t => { t with tx := t.tx ++ [f], seq := t.seq + 1#32 })

/-- The properties that a HELLO frame carries (R337). -/
def Dev.props (d : Dev) : Props :=
  ⟨d.cap.word, (List.range 17).map brev, d.rd R.CFG_CHECK, d.fs, d.fb F.STATUS_TWN_SIDE, d.twSt⟩

def twHi (d : Dev) : Dev := twSend (.hello d.props) d

/-- Is the twin enabled, or the unit one that keeps the ticket audit enabled (R340)? -/
def Dev.twinOn (d : Dev) : Bool := d.fb F.TWN_CFG_EN || d.twSt == twActive || d.twSt == twSolo

/-- The interval that is running: block `i - 1` is processed in interval `i`. -/
def Dev.interval (d : Dev) : Nat := d.nextDep

/-- What happens once departure `b` has begun interval `b + 1` (01_architecture.md R25; R353). -/
def inNext (b : Nat) (g : Dev → Dev) (d : Dev) : Dev :=
  let n := d.nextDep
  { g { d with nextDep := b + 1 } with nextDep := n }

/-- The unit drives the local outputs from the first pin instant at or after block `b` (R350). -/
def twOpen (b : Nat) (d : Dev) : Dev :=
  d.onTw (fun t => { t with openAt := if t.gate then t.openAt else some b, closeAt := none })

/-- The unit no longer delivers block `b` and later ones locally (R350). -/
def twClose (b : Nat) (d : Dev) : Dev := d.onTw (fun t => { t with openAt := none, closeAt := some b })

/-- A self-diagnosis fault of cause 1 to 9 (R352, R353). -/
def twFault (cause : Nat) (d : Dev) : Dev :=
  let st := d.twSt
  d.when (d.cap.twin && decide (2 ≤ st) && (!(cause == 7 || cause == 8) || d.twCopy)) (fun d =>
    let i := d.interval
    let d := d.wr R.TWN_FAULT (w32 (2 ^ 31 + cause * 2 ^ 24 + i % 2 ^ 24))
    let d := twSend (.fault cause i) (d.onTw (fun t => { t with own := true, sw := none, last := none }))
    let d := twState twFaulted (d.evt Ev.TWN_FAULT)
    d.when (st == twActive || st == twSolo) (twClose (i - 1)))

/-- What a local output carries of a sample `x` of block `b`, at its place `j` in the block (R350). Outside twin operation the
gate is open. -/
def Dev.twGate (d : Dev) (b j : Nat) (x : Word) : Word :=
  if d.twSt ≤ twHello then x
  else if !d.tw.gate then 0#32
  else if d.tw.rampBlk = some b then wOfInt (wInt x * (j + 1 : Nat) / 32)
  else x

/-- Streams are transmitted but in SYNCING, DETACHED and FAULTED (R340, R349). -/
def Dev.twStreams (d : Dev) : Bool := !(d.twSt == twSyncing || d.twSt == twDetached || d.twSt == twFaulted)

/-- An update accepted on the ACTIVE joins the next BLOCK frame (R343). -/
def twLogUpd (r : Rec8) (eff : Nat) (d : Dev) : Dev :=
  d.when (d.twSt == twActive) (fun d => d.onTw (fun t => { t with ulog := t.ulog ++ [⟨r, eff⟩] }))

/-- The select registers that steer rendering-state writes, which are not copied themselves (R345). -/
def twSelRegs : List Reg := [R.OBJ_SEL, R.CRM_ISEL, R.CRM_OSEL, R.FEED_SEL, R.FC_SOS_SEL, R.AOUT_SEL, R.AO_SOS_SEL]

/-- A rendering-state write on the ACTIVE joins the next BLOCK frame (R343, R345). -/
def twLogWr (addr : Nat) (m : Agent) (v : Word) (d : Dev) : Dev :=
  d.when (d.twSt == twActive) (fun d =>
    d.onTw (fun t => { t with wlog := t.wlog ++ [⟨addr, m, twSelRegs.map (fun r => d.rd (r.of m.num)), v⟩] }))

/-- A copy of the renderer ignores a rendering-state write of any agent but its peer (R345). -/
def rsHold (m : Agent) (g : Dev → Dev) (d : Dev) : Dev :=
  if d.twCopy && m.num != 24 then (d.bump R.TWN_WR_IGN_CNT).evt Ev.TWN_WR_IGN else g d

/-- A loader's GO or its source address while the loader runs is ignored (03_crosspoint.md R105; 04_correction.md R121; 06_signal_box.md R181):
such a write takes no effect, and is not copied (R343). -/
def Dev.loaderBusy (d : Dev) (r : Reg) : Bool :=
  let at' (x : Reg) : Bool := x.blk == r.blk && x.off == r.off
  ((at' R.CRM_BLK_CTRL || at' R.CRM_BLK_ADDR_LO) && d.crm.ldRun) || ((at' R.CCE_FLD_CTRL || at' R.CCE_FLD_ADDR_LO) && d.cce.load.isSome) ||
    ((at' R.SB_GLD_CTRL || at' R.SB_GLD_ADDR_LO) && d.sb.ld.isSome)

/-- A rendering-state write of register `r` (R345). -/
def rsGate (m : Agent) (r : Reg) (v : Word) (g : Dev → Dev) : Dev → Dev :=
  rsHold m (fun d => g (if d.loaderBusy r then d else twLogWr r.addr m v d))

/-- The meaning of a rendering-state write. -/
def okRs (m : Agent) (r : Reg) (v : Word) (s : State) (g : Dev → Dev) : Out := okBy m r.addr v s (rsGate m r v g)

/-! ### Loader source data (R346) -/

/-- A load started on the ACTIVE holds its swap until the STANDBY has loaded too. -/
def twLoadOut (c : LoadCmd) (d : Dev) : Dev := d.when (d.twSt == twActive) (fun d => d.onTw (fun t => { t with bulkPend := t.bulkPend ++ [c] }))

/-- A swap waits for loads of loader `l`, of feed `o` where it is a FIR load: those that the STANDBY has not finished, and on a copy those whose
loader is not free yet. -/
def Dev.swapHeld (d : Dev) (l : Loader) (o : Nat) : Bool := (d.tw.bulkPend ++ d.tw.loadq).any (fun c => c.loader == l && c.feed == o)

/-- The data of loader `l`, oldest first, of the load that takes it next: what follows a stop belongs to a later load. -/
def bulkOf (l : Loader) : List BulkFrame → List Byte
  | [] => []
  | f :: fs => if f.cmd.loader != l then bulkOf l fs else if f.stop then f.bytes else f.bytes ++ bulkOf l fs

def Dev.bulkBytes (d : Dev) (l : Loader) : List Byte := bulkOf l d.tw.bulk

/-- The ACTIVE's load stopped at the end of this data. -/
def Dev.bulkStop (d : Dev) (l : Loader) : Bool := d.tw.bulk.any (fun f => f.cmd.loader == l && f.stop)

/-- The `n` bytes that loader `l` takes next have come, or all that will come. -/
def Dev.bulkHas (d : Dev) (l : Loader) (n : Nat) : Bool :=
  d.tw.bulk.any (fun f => f.cmd.loader == l) && (decide (n ≤ (d.bulkBytes l).length) || d.bulkStop l)

/-- A loader of a copy waits for its source data. -/
def Dev.loadWaits (d : Dev) (l : Loader) (n : Nat) : Bool := (d.twCopy || d.tw.src.contains l) && decide (0 < n) && !d.bulkHas l n

/-- Where a loader takes the `n` bytes at `a`: from the BULK frames once they came. -/
def Dev.loadSrc (d : Dev) (l : Loader) (a n : Nat) (mem : Memory) : Memory :=
  if d.bulkHas l n then Memory.wrBytes [] a (d.bulkBytes l) else mem

/-- Can a loader fetch the word at `x`: does it lie in the BULK data, where that begins at `a`, or does the fetch from memory succeed? -/
def Dev.loadGets (d : Dev) (l : Loader) (a n x : Nat) (fetch : Bool) : Bool :=
  if d.bulkHas l n then decide (x + 4 ≤ a + (d.bulkBytes l).length) else fetch

/-- A loader of the ACTIVE sends the data it fetched, with its command. -/
def twBulk (c : LoadCmd) (mem : Memory) (a n : Nat) (stop : Bool) (d : Dev) : Dev :=
  d.when (d.twSt == twActive) (twSend (.bulk ⟨true, c, Memory.rdBytes mem a n, stop⟩))

/-- The next `n` bytes of loader `l` are taken. -/
def bulkTake (l : Loader) : (n : Nat) → List BulkFrame → List BulkFrame
  | _, [] => []
  | n, f :: fs =>
    if f.cmd.loader != l then f :: bulkTake l n fs
    else if f.bytes.length ≤ n && !f.stop then bulkTake l (n - f.bytes.length) fs
    else { f with bytes := f.bytes.drop n } :: fs

def bulkUsed (l : Loader) (n : Nat) (d : Dev) : Dev := d.onTw (fun t => { t with bulk := bulkTake l n t.bulk })

/-- The load is over: so is the data that a stop ends. -/
def bulkClose (l : Loader) : List BulkFrame → List BulkFrame
  | [] => []
  | f :: fs => if f.cmd.loader != l then f :: bulkClose l fs else if f.stop then fs else f :: fs

/-- A load has ended; on a copy its ACK says so (R346), elsewhere no data of its loader stays. -/
def twLoaded (l : Loader) (d : Dev) : Dev :=
  let copy := d.twCopy
  let d := d.onTw (fun t => { t with
    bulk := if copy then bulkClose l t.bulk else t.bulk.filter (fun f => f.cmd.loader != l), src := t.src.filter (fun x => x != l) })
  d.when d.twCopy (twSend (.ack 0 (some l) []))

/-- A loader command on a copy whose loader is not free waits. -/
def twLoadWait (c : LoadCmd) (d : Dev) : Dev := d.when d.twCopy (fun d => d.onTw (fun t => { t with loadq := t.loadq ++ [c] }))

/-- The loader commands that waited for loader `l` begin with `go`, as far as it is free. -/
def twLoadNext (l : Loader) (go : LoadCmd → Dev → Dev) (d : Dev) : Dev :=
  (d.tw.loadq.filter (fun c => c.loader == l)).foldl (fun d c =>
    d.when (!d.loads.contains l) (fun d => go c (d.onTw (fun t => { t with loadq := t.loadq.erase c })))) d

/-- Events that the next health report counts (R360). -/
def twCe (n : Nat) (d : Dev) : Dev := d.onTw (fun t => { t with ce := t.ce + n })

end Sys2Proof.Machine
end

