-- ==== Sys2Proof/Machine/Gsv.lean ====
section
/-!
DEFINITION. The gain solver's commands (02_gain_solver.md): posting updates by the register, ring and stream paths,
flushing, solving a block, and the solver's part of a departure, a Halt and a commit.
Marks (notes/assumptions): DESIGN CHOICE 11, 88; DEDUCED 31, 40, 89.
-/
namespace Sys2Proof.Machine

def Dev.onGsv (d : Dev) (g : Gsv → Gsv) : Dev := { d with gsv := g d.gsv }
def Dev.onCrm (d : Dev) (g : Crm → Crm) : Dev := { d with crm := g d.crm }

/-- Objects of the active consist (R49 cause 7, R75). -/
def Dev.objCount (d : Dev) : Nat := d.gsv.layout.objs.length

/-- The lead `L` in blocks (R54). -/
def Dev.lead (d : Dev) : Nat := d.f F.GSV_CTRL_LEAD + 1

/-- The sample index at which a post is judged (R49 cause 4): the first of the block interval that is running. -/
def Dev.sampleNow (d : Dev) : Nat := 32 * d.nextDep

/-! ### Posting an update (R49 to R52, R55) -/

/-- The lowest rejection cause of an update for object `o`, `0` for none (R49). -/
def rejCause (d : Dev) (o : Nat) (r : Rec8) : Nat :=
  let q := (d.gsv.obj o).queue
  let lastT := match q.getLast? with
    | none => 0
    | some u => u.rc.apply
  if r.kind = 3 then 1
  else if r.gain > 1152 && !r.silent then 2
  else if r.apply ≠ 0 && r.apply < lastT then 3
  else if r.apply > d.sampleNow + 2 ^ 31 then 4
  else if r.kind = 1 && (Tbl.get? d.gsv.layout.bed r.bedEntry).isNone then 5
  else if r.kind = 2 && (Tbl.get? d.gsv.layout.arr r.arr).isNone then 6
  else if o ≥ d.objCount then 7
  else if r.snap && r.kind ≠ 0 then 8
  else 0

/-- The effective block of an update posted now (R55). -/
def effOf (d : Dev) (r : Rec8) : Nat :=
  let base := d.effBlk + d.lead
  if r.apply = 0 then base else max ((r.apply + 31) / 32) base

/-- Is the update late (R55)? -/
def isLate (d : Dev) (r : Rec8) : Bool := r.apply ≠ 0 && (r.apply + 31) / 32 < d.effBlk + d.lead

/-- The outcome of offering a record to its queue. -/
inductive Posted
  | rejected
  | noTicket
  | done
  deriving DecidableEq, Repr

/-- What offering the record to the queue of object `o` comes to: the queues have depth 4 (R50). -/
def postKind (d : Dev) (o : Nat) (r : Rec8) : Posted :=
  if rejCause d o r ≠ 0 then .rejected
  else if (d.gsv.obj o).queue.length ≥ 4 then .noTicket else .done

/-- A rejected update (R49): it never enters the queue. -/
def rejectUpd (d : Dev) (src o : Nat) (r : Rec8) : Dev :=
  let d := d.bump R.GSV_REJ_CNT
  let d := d.setF F.GSV_REJ_INFO_SRC src
  let d := d.setF F.GSV_REJ_INFO_OBJ o
  let d := d.setF F.GSV_REJ_INFO_CAUSE (rejCause d o r)
  d.evt Ev.GSV_UPD_REJ

/-- The record with its OBJ field naming object `o`: the register path ignores the field that was written (R50). -/
def Rec8.forObj (r : Rec8) (o : Nat) : Rec8 := { r with w7 := setBits r.w7 16 10 o }

/-- An accepted update joins its object's queue with its effective block (R55); on the ACTIVE it crosses the link under its object's
number. -/
def enqueueUpd (d : Dev) (o : Nat) (r : Rec8) : Dev :=
  let r := r.forObj o
  let late := isLate d r
  let e := effOf d r
  let ob := d.gsv.obj o
  let d := d.onGsv (fun g => g.setObj o { ob with queue := ob.queue ++ [⟨r, e⟩] })
  let d := d.onQ (fun q => (q.spend 294).fill 294)
  twLogUpd r e (d.when late (fun d => (d.bump R.GSV_LATEUPD_CNT).evt Ev.GSV_UPD_LATE))

/-! ### The register path (R50) -/

/-- The object a master's window acts on. -/
def Dev.objSel (d : Dev) (m : Agent) : Nat := Reg.idx d R.OBJ_SEL m

/-- A write of OBJ_UPD0 to OBJ_UPD6 stages a word for the master. -/
def objUpdStage (m : Agent) (k : Nat) (v : Word) (d : Dev) : Dev :=
  d.when (decide (d.objSel m < d.objCount)) (fun d => d.stage (R.OBJ_UPD.at k) m v)

/-- The record that a master's staged words make with the word it writes to OBJ_UPD7. -/
def stagedRec (d : Dev) (m : Agent) (v : Word) : Rec8 :=
  let w (k : Nat) : Word := d.staged (R.OBJ_UPD.at k) m
  ⟨w 0, w 1, w 2, w 3, w 4, w 5, w 6, v⟩

/-- A write of OBJ_UPD7 posts the staged record to the selected object (R50); the access steps OBJ_SEL (R19). -/
def objPost (m : Agent) (v : Word) (d : Dev) : Dev :=
  let o := d.objSel m
  let d1 :=
    if o < d.objCount then
      let d := d.stage (R.OBJ_UPD.at 7) m v
      let r := stagedRec d m v
      match postKind d o r with
      | .rejected => rejectUpd d 0 o r
      | .noTicket => (d.bump (R.OBJ_DROP.of o)).evt Ev.GSV_UPD_DROP
      | .done => enqueueUpd d o r
    else d
  d1.autoInc R.OBJ_SEL m d1.objCount

/-! ### The ring path (R51, R75) -/

/-- Records of the ring. -/
def ringSize (d : Dev) : Nat := 2 ^ (d.f F.GSV_RING_CTRL_SIZE + 4)

/-- The ring index that a register holds: INDEX modulo the ring size (R75). -/
def ringIdx (d : Dev) (r : Reg) : Nat := (d.rd r).toNat % ringSize d

/-- The depth of QID 301: the most records that the largest ring holds between TAIL and HEAD (R75). -/
def ringDepth : Nat := 65535

/-- Records between TAIL and HEAD. -/
def ringFill (d : Dev) : Nat := (ringIdx d R.GSV_RING_HEAD + ringSize d - ringIdx d R.GSV_RING_TAIL) % ringSize d

/-- The queue of QID 301 when the ring is enabled (R51): the slots that the jump of TAIL skips are popped, and the host's records since the
disable fill slots. The consist has built the queue (R34); its depth, which R38 does not print, is `ringDepth` (DESIGN CHOICE, log 88). -/
def ringAccount (d : Dev) : Dev := d.onQ (fun q => ((q.popAll 301).settleOf 301).fillN 301 (ringFill d))

/-- A write of GSV_RING_HEAD: the producer index. While the ring is enabled the host spends a ticket for each record it adds and fills its
slot (R34, R51). -/
def gsvRingHead (v : Word) (d : Dev) : Dev :=
  let n := ringSize d
  let old := ringIdx d R.GSV_RING_HEAD
  let d := d.wr R.GSV_RING_HEAD (w32 (bits v 0 16))
  d.when (d.fb F.GSV_RING_CTRL_EN) (fun d => d.onQ (fun q => q.fillN 301 ((ringIdx d R.GSV_RING_HEAD + n - old) % n)))

/-- A write of GSV_RING_CTRL: SIZE while EN is 0, then EN. Enabling sets TAIL to HEAD's value at the previous
disable; clearing EN stops the fetcher after the current record. -/
def gsvRingCtrl (v : Word) (d : Dev) : Dev :=
  let was := d.fb F.GSV_RING_CTRL_EN
  let d := d.when (!was) (fun d => d.setF F.GSV_RING_CTRL_SIZE (min (bits v 1 4) 12))
  let on := bit v 0
  let d := d.setB F.GSV_RING_CTRL_EN on
  if !was && on then ringAccount (d.wr R.GSV_RING_TAIL (w32 (d.gsv.ringKeep % ringSize d)))
  else if was && !on then d.onGsv (fun g => { g with ringKeep := (d.rd R.GSV_RING_HEAD).toNat })
  else d

/-- TAIL goes past the record, whose ticket starts back. -/
def ringAdvance (d : Dev) : Dev :=
  let d := d.wr R.GSV_RING_TAIL (w32 (((d.rd R.GSV_RING_TAIL).toNat + 1) % ringSize d))
  d.onQ (fun q => q.pop 301)

/-- The fetcher offers a record to the object its OBJ field names: posted, rejected, or it waits (R51). -/
def ringOffer (r : Rec8) (d : Dev) : Dev :=
  let o := r.objNo
  match postKind d o r with
  | .rejected => ringAdvance (rejectUpd (d.onGsv (fun g => { g with ringWait := none })) 1 o r)
  | .done => ringAdvance (enqueueUpd (d.onGsv (fun g => { g with ringWait := none })) o r)
  | .noTicket => d.onGsv (fun g => { g with ringWait := some r })

/-- A fetch from host memory failed: the fetcher stops (R51). -/
def ringErr (d : Dev) : Dev :=
  d.when (d.fb F.GSV_RING_CTRL_EN) (fun d =>
    ((d.setB F.GSV_RING_CTRL_EN false).onGsv
      (fun g => { g with ringKeep := (d.rd R.GSV_RING_HEAD).toNat })).evt Ev.GSV_RING_ERR)

/-- A record arrives from host memory, in ring order, while the ring is enabled, not empty and not stalled; while the PCIe link is down the fetch has
the error response (14_host_mailboxes.md R389). -/
def ringRecordFetched (r : Rec8) (d : Dev) : Dev :=
  d.when (d.fb F.GSV_RING_CTRL_EN && ringFill d ≠ 0 && d.gsv.ringWait = none) (fun d =>
    if d.fb F.STATUS_HIF_LINK then ringOffer r d else ringErr d)

/-- The ticket the fetcher waited for has returned: the record is posted. -/
def ringStallEnd (d : Dev) : Dev :=
  match d.gsv.ringWait with
  | none => d
  | some r => ringOffer r d

/-! ### Flush, parameters, counters (R53, R75) -/

/-- A write of OBJ_CTRL: FLUSH acts when the solver begins block `b + L` (R53). -/
def flushObj (m : Agent) (v : Word) (d : Dev) : Dev :=
  let o := d.objSel m
  d.when (bit v 0 && decide (o < d.objCount)) (fun d =>
    d.onGsv (fun g => { g with flushes := g.flushes ++ [(o, d.effBlk + d.lead)] }))

/-- A parameter of the solver by its register's offset. -/
def GsvPar.setAt (p : GsvPar) (off v : Nat) : GsvPar :=
  if off = 0x10 then { p with en := v % 2 == 1 }
  else if off = 0x14 then { p with dref := v }
  else if off = 0x18 then { p with roll := min v 32 }
  else if off = 0x1C then { p with sound := v }
  else { p with extrap := if v = 0 then 1 else v }

/-- A write of GSV_CTRL.EN or a geometry register takes effect on block `b + L` in Mainline, and on every block
begun from now on elsewhere (R75). -/
def gsvParam (off v : Nat) (d : Dev) : Dev :=
  if d.inMode mMainline then d.onGsv (fun g => { g with pars := g.pars ++ [(d.effBlk + d.lead, off, v)] })
  else d.onGsv (fun g => { g with par := g.par.setAt off v, pars := g.pars.filter (fun p => p.2.1 != off) })

/-- A write of GSV_CTRL: LEAD in Shunt only, EN under R75. -/
def gsvCtrlWrite (v : Word) (d : Dev) : Dev :=
  let d := d.when (d.inMode mShunt) (fun d => d.setF F.GSV_CTRL_LEAD (bits v 1 2))
  gsvParam 0x10 (bits v 0 1) (d.setB F.GSV_CTRL_EN (bit v 0))

/-- A write of GSV_DIST_REF: 0 acts as 1; a value above the range that R75 gives is used as written (DESIGN CHOICE, log 89). -/
def gsvDistRefWrite (v : Word) (d : Dev) : Dev :=
  let x := max (bits v 0 24) 1
  gsvParam 0x14 x (d.wr R.GSV_DIST_REF (w32 x))

def gsvDistLawWrite (v : Word) (d : Dev) : Dev := gsvParam 0x18 (bits v 0 6) (d.wr R.GSV_DIST_LAW (w32 (bits v 0 6)))

def gsvSoundWrite (v : Word) (d : Dev) : Dev :=
  let x := max 300000 (min (bits v 0 19) 400000)
  gsvParam 0x1C x (d.wr R.GSV_SOUND (w32 x))

/-- A write of GSV_EXTRAP: 0 acts as 1; a MAX of 1025 to 2047, above the range that R75 gives, is used as written (DESIGN CHOICE, log 89). -/
def gsvExtrapWrite (v : Word) (d : Dev) : Dev := gsvParam 0x20 (bits v 0 11) (d.wr R.GSV_EXTRAP (w32 (bits v 0 11)))

/-- The counters of the block (R75). -/
def gsvCounters : List Reg :=
  [R.GSV_CARRY_CNT, R.GSV_SLATE_CNT, R.GSV_SUPER_CNT, R.GSV_LATEUPD_CNT, R.GSV_REJ_CNT, R.GSV_ACLAMP_CNT, R.OBJ_DROP]

/-- A write of GSV_CNT_CLR. -/
def gsvCntClr (v : Word) (d : Dev) : Dev := d.when (bit v 0) (fun d => d.zeroAll gsvCounters)

/-! ### Solving a block (R53 to R59, R72, R73) -/

/-- Is a resume pending (16_modes_power.md R445)? -/
def Dev.resPend (d : Dev) : Bool := d.fb F.STATUS_SYS_RES_PEND

/-- The first block that the CRM has not begun, or is taken not to have: for a pending resume, its block (R54, R59). -/
def Dev.solveBase (d : Dev) : Nat :=
  match d.md.resume with
  | some (r, _) => r
  | none => d.crm.begun

/-- May the solver begin its next block (R54, R59): rendering or a pending resume, the CRM at most `L` blocks
behind, and a ticket of QID 295? -/
def canSolve (d : Dev) : Bool :=
  (d.inMode mMainline || d.resPend) && decide (d.gsv.next < d.solveBase + d.lead) && decide ((d.q.get 295).h > 0)

/-- Parameter writes whose block has come act (R75). -/
def gsvApplyPars (c : Nat) (g : Gsv) : Gsv :=
  { g with par := (g.pars.filter (fun p => decide (p.1 ≤ c))).foldl (fun a p => a.setAt p.2.1 p.2.2) g.par,
           pars := g.pars.filter (fun p => decide (c < p.1)) }

/-- The flushes whose block has come discard the object's later updates; their tickets return (R53). -/
def gsvApplyFlush (c : Nat) (d : Dev) : Dev :=
  let act := d.gsv.flushes.filter (fun p => decide (p.2 ≤ c))
  let d := act.foldl (fun d p =>
    let ob := d.gsv.obj p.1
    let kept := ob.queue.filter (fun u => decide (u.eff < p.2))
    let n := ob.queue.length - kept.length
    let d := d.onGsv (fun g => g.setObj p.1 { ob with queue := kept })
    d.onQ (fun q => let t := q.get 294; q.put 294 { t with s := t.s - n, h := t.h + n })) d
  d.onGsv (fun g => { g with flushes := g.flushes.filter (fun p => decide (c < p.2)) })

/-- The object with its due updates applied: only the last due one takes effect, on block `c` (R56). -/
def applyDue (c : Nat) (o : Obj) : Obj × Nat :=
  let due := o.queue.filter (fun u => decide (u.eff ≤ c))
  match due.getLast? with
  | none => (o, 0)
  | some u =>
    ({ o with queue := o.queue.filter (fun u => decide (c < u.eff)), live := some ⟨u.rc, u.eff, c⟩ }, due.length)

/-- What solving gathers: the objects, the writes so far, their number, whether the rest is carried, and counts of
carried, superseded and clamped objects. -/
structure SolveAcc where
  g : Gsv
  writes : List NodeTgt
  n : Nat
  carrying : Bool
  carried : Nat
  super : Nat
  popped : Nat
  clamps : Nat
  deriving DecidableEq, Repr

/-- One object of the visit order: solved in full or carried (R73). -/
def solveOne (fs c : Nat) (a : SolveAcc) (o : Nat) : SolveAcc :=
  let ob := a.g.obj o
  let (ob', due) := applyDue c ob
  let r := solveObj a.g.layout a.g.par fs ob' c
  let ws := diffWrites ob'.tgts r.want
  if a.carrying || a.n + ws.length > 262144 then
    { a with g := a.g.setObj o { ob with carried := true }, carrying := true, carried := a.carried + 1 }
  else
    let input := (a.g.layout.objs[o]?).getD 0
    let tgts := ws.foldl (fun t e => Tbl.set t ⟨0, 0⟩ e.1 e.2) ob'.tgts
    let ob2 : Obj := { ob' with pos := r.pos.floorPos, kept := r.kept, tri := r.tri, dir := r.dir, tgts := tgts,
                                carried := false }
    { a with g := a.g.setObj o ob2,
             writes := a.writes ++ ws.map (fun e => ⟨input, e.1, e.2, rampTime ob2 c⟩),
             n := a.n + ws.length, super := a.super + (due - 1), popped := a.popped + due,
             clamps := a.clamps + b2n r.clamp }

/-- The visit order: from the lowest-numbered object carried from the block before, wrapping at the last (R73). -/
def visitOrder (g : Gsv) : List Nat :=
  let n := g.layout.objs.length
  let first := ((List.range n).find? (fun o => (g.obj o).carried)).getD 0
  (List.range (n - first)).map (· + first) ++ List.range first

/-- The solver solves its next block and fills a slot of QID 295 (R54 to R58, R72, R73). With EN = 0 every target is
held and no update is consumed (R75). -/
def solveBlock (d : Dev) : Dev :=
  let c := d.gsv.next
  let before := d.gsv.objs
  let d := gsvApplyFlush c (d.onGsv (gsvApplyPars c))
  let a0 : SolveAcc := ⟨d.gsv, [], 0, false, 0, 0, 0, 0⟩
  let a := if d.gsv.par.en then (visitOrder d.gsv).foldl (solveOne d.rate c) a0 else a0
  let d := d.onGsv (fun _ => { a.g with slots := a.g.slots ++ [⟨c, a.writes, before⟩], next := c + 1 })
  let d := d.onQ (fun q =>
    let t := q.get 294
    ((q.put 294 { t with s := t.s - a.popped, h := t.h + a.popped }).spend 295).fill 295)
  let d := d.wr64 R.GSV_SIDX_LO R.GSV_SIDX_HI c
  let d := d.wr R.GSV_WR_LAST (w32 a.n)
  let d := d.peakF ⟨R.GSV_WR_PEAK, 0, 19⟩ a.n
  let d := d.bumpBy R.GSV_SUPER_CNT a.super
  let d := d.when (decide (a.carried > 0)) (fun d => (d.bumpBy R.GSV_CARRY_CNT a.carried).evt Ev.GSV_CARRY)
  d.when (decide (a.clamps > 0)) (fun d => (d.bumpBy R.GSV_ACLAMP_CNT a.clamps).evt Ev.GSV_ARR_CLAMP)

/-! ### The solver at a departure, a Halt and a commit (R59, R74) -/

/-- At departure `b` the CRM takes the node-target slot of block `b`; an unfilled slot is a late solve (R74). -/
def gsvTakeSlot (b : Nat) (d : Dev) : List NodeTgt × Dev :=
  match d.gsv.slots.find? (fun sl => sl.blk == b) with
  | some sl => (sl.writes, (d.onGsv (fun g => { g with slots := g.slots.filter (fun x => x.blk != b) })).onQ (fun q => q.pop 295))
  | none => ([], ((d.onGsv (fun g => { g with next := max g.next (b + 1) })).bump R.GSV_SLATE_CNT).evt Ev.GSV_SOLVE_LATE)

/-- On entering Halt or Shunt, slots for block `h` or later are discarded, their tickets return, and the record of
targets is that of the last block rendered (R59). -/
def gsvDiscard (h : Nat) (d : Dev) : Dev :=
  let gone := d.gsv.slots.filter (fun sl => decide (h ≤ sl.blk))
  match gone with
  | [] => d
  | sl :: _ =>
    let objs := d.gsv.objs.map (fun e => (e.1, { e.2 with tgts := ((Tbl.getD sl.before e.1 Obj.empty)).tgts }))
    let d := d.onGsv (fun g => { g with slots := g.slots.filter (fun s => decide (s.blk < h)), objs := objs, next := h })
    d.onQ (fun q => let t := q.get 295; q.put 295 { t with s := t.s - gone.length, h := t.h + gone.length })

/-- A resume with resume block `r` is accepted: the solver starts afresh at `r` (R59); what was solved for a pending resume that it replaces is
discarded. -/
def gsvResumeAt (r : Nat) (d : Dev) : Dev := (gsvDiscard 0 d).onGsv (fun g => { g with next := r })

/-! ### Register reads and writes (R75) -/

/-- OBJ_STATE (R75). -/
def objState (o : Obj) : Word :=
  let nz := (o.tgts.filter (fun e => e.2.gain != 0)).length
  let kind := match o.live with
    | none => 0
    | some u => u.rc.kind
  w32 (min nz 63 * 2 ^ 12 + b2n (decide (nz ≥ 64)) * 2 ^ 11 + b2n o.carried * 2 ^ 10 + kind * 2 ^ 8 +
    b2n (decide (nz = 0)) * 2 ^ 7 + (4 - o.queue.length) * 2 ^ 4 + o.queue.length)

/-- STATUS: blocks the solver leads by, a waiting ring record, solving (R75). -/
def gsvStatus (d : Dev) : Word :=
  let run := d.gsv.par.en && (d.inMode mMainline || d.resPend)
  w32 (min (d.gsv.next - d.solveBase) 4 * 4 + b2n d.gsv.ringWait.isSome * 2 + b2n run)

/-- Registers whose value the solver computes at the read; `none` for the others. -/
def gsvRead (m : Agent) (off : Nat) (d : Dev) : Option Word :=
  let o := d.gsv.obj (d.objSel m)
  if off = 0x00C then some (gsvStatus d)
  else if off = 0x100 then some (objState o)
  else if off = 0x104 then some (wOfInt o.pos.x)
  else if off = 0x108 then some (wOfInt o.pos.y)
  else if off = 0x10C then some (wOfInt o.pos.z)
  else if off = 0x110 then some (match o.tri with
    | none => 0x1000#32
    | some t => w32 t)
  else if off = 0x11C then some (w32 ((d.gsv.layout.objs[d.objSel m]?).getD 0))
  else none

/-- Registers whose write is more than its masks; `none` for the others. -/
def gsvWrite (m : Agent) (off : Nat) (v : Word) (d : Dev) : Option Dev :=
  if off = 0x010 then some (gsvCtrlWrite v d)
  else if off = 0x014 then some (gsvDistRefWrite v d)
  else if off = 0x018 then some (gsvDistLawWrite v d)
  else if off = 0x01C then some (gsvSoundWrite v d)
  else if off = 0x020 then some (gsvExtrapWrite v d)
  else if off = 0x058 then some (gsvRingCtrl v d)
  else if off = 0x05C then some (gsvRingHead v d)
  else if off = 0x06C then some (gsvCntClr v d)
  else if off = 0x118 then some (flushObj m v d)
  else if 0x120 ≤ off && off < 0x13C then some (objUpdStage m ((off - 0x120) / 4) v d)
  else if off = 0x13C then some (objPost m v d)
  else none

/-! ### Meanings -/

def execObjUpdStage (m : Agent) (k : Fin 7) (v : Word) (s : State) : Out := okBy m ((R.OBJ_UPD.at k.val).addr) v s (rsHold m (objUpdStage m k v))
def execObjPost (m : Agent) (v : Word) (s : State) : Out := okBy m ((R.OBJ_UPD.at 7).addr) v s (rsHold m (objPost m v))
def execGsvRingHead (m : Agent) (v : Word) (s : State) : Out := okBy m R.GSV_RING_HEAD.addr v s (rsHold m (gsvRingHead v))
def execGsvRingEnable (m : Agent) (v : Word) (s : State) : Out := okBy m R.GSV_RING_CTRL.addr v s (rsHold m (gsvRingCtrl v))
def execRingRecordFetched (r : Rec8) (s : State) : Out := ok s (ringRecordFetched r)
def execRingStallEnd (s : State) : Out := ok s ringStallEnd
def execRingErr (s : State) : Out := ok s ringErr
def execFlush (m : Agent) (v : Word) (s : State) : Out := okRs m R.OBJ_CTRL v s (flushObj m v)

/-- SOLVE_BLOCK: nothing happens while R54 does not let the solver begin. -/
def execSolveBlock (s : State) : Out := ok s (fun d => d.when (canSolve d) solveBlock)
def execGsvCntClr (m : Agent) (v : Word) (s : State) : Out := okBy m R.GSV_CNT_CLR.addr v s (gsvCntClr v)

end Sys2Proof.Machine
end

