-- ==== Sys2Proof/Machine/Store.lean ====
section
/-!
DEFINITION. The stores of SRAM and their errors, as every unit that reads one meets them (13_memory.md R367 to R369).
Marks (notes/assumptions): DEDUCED 18, 92, 95; DESIGN CHOICE 110.
-/
namespace Sys2Proof.Machine

/-- Does an engine window hold memory at the offset (05_virif_engines.md R142)? -/
def winMem (off : Nat) : Bool := decide (off < 0x10000) || (decide (0x20000 ≤ off) && decide (off < 0x60000))

/-- Does the engine window hold memory at the address (R141, R142)? -/
def Dev.virifMem (d : Dev) (a : Nat) : Bool := decide ((a - 0x40000000) / 2 ^ 20 < d.cap.engines) && winMem (a % 2 ^ 20)

/-- The 64-bit word of an engine's local memories at an offset of its window: program, X and Y memory in turn (05_virif_engines.md R142). -/
def virifWord (off : Nat) : Nat :=
  (if off < 0x20000 then off else off - 0x10000) / 8

/-- The store and 64-bit word of an address (R367). -/
def storeOf (a : Nat) : Option (Nat × Nat) :=
  if inAudio a then some (0, (a - 0x20000000) / 8)
  else if inNodes a then some (1, (a - 0x30000000) / 8)
  else if inVirif a && winMem (a % 2 ^ 20) then some (2, (a - 0x40000000) / 2 ^ 20 * 40960 + virifWord ((a - 0x40000000) % 2 ^ 20))
  else if inSram a then some (4, (a - 0x10000000) / 8)
  else none

/-- A single-bit error found in store `st`, corrected in the store too (R368). -/
def storeCe (st : Nat) (d : Dev) : Dev := twCe 1 ((d.bump (R.MS_CE_CNT.at st)).evt Ev.MS_CE)

/-- A double-bit error found by master `m` in word `w` of store `st` is counted and recorded (R368). -/
def ueCount (st w m : Nat) (d : Dev) : Dev :=
  let d := (d.bump R.MS_UE_CNT).evt Ev.MS_UE
  d.when (!d.fb F.MS_UE_INFO_VALID) (fun d => d.wr R.MS_UE_INFO (w32 (2 ^ 31 + st * 2 ^ 28 + m * 2 ^ 24 + w % 2 ^ 22)))

/-- The word stays uncorrectable until a full write replaces it (R369). -/
def storeMark (st w : Nat) (d : Dev) : Dev :=
  d.onMs (fun x => if x.bad.contains (st, w) then x else { x with bad := (st, w) :: x.bad })

/-- A full write replaces an uncorrectable word (R369). -/
def storeHeal (st w : Nat) (d : Dev) : Dev := d.onMs (fun x => { x with bad := x.bad.filter (fun e => e != (st, w)) })

/-- The master in MS_UE_INFO of a private port of the audio or the node store (R373), and of the scrubber or a port inside a unit (R388). -/
def privPort : Nat := 14
def unitPort : Nat := 15

/-- Is the 64-bit word at address `a` uncorrectable (R368, R369)? -/
def Dev.badWord (d : Dev) (a : Nat) : Bool :=
  match storeOf a with
  | some k => d.ms.bad.contains k
  | none => false

/-- The uncorrectable words among `n` bytes from `a` (13_memory.md R368). -/
def Dev.badIn (d : Dev) (a n : Nat) : List (Nat × Nat) :=
  (((List.range ((a % 8 + n + 7) / 8)).map (fun i => a / 8 * 8 + 8 * i)).filter (fun w => d.badWord w)).filterMap storeOf

/-! ### Accesses to memory and the errors they find (R368, R369, R387) -/

/-- The 64-bit words of `n` bytes from `a`, by the address of their first byte. -/
def wordsIn (a n : Nat) : List Nat := (List.range ((a % 8 + n + 7) / 8)).map (fun i => a / 8 * 8 + 8 * i)

/-- An error in the 64-bit word at `w`. -/
def EccHit.hits (e : EccHit) (w : Nat) : Bool := e.addr / 8 == w / 8

/-- Does an access that finds `ecc` lose the word at `w`? -/
def Dev.loses (d : Dev) (ecc : List EccHit) (w : Nat) : Bool := d.badWord w || ecc.any (fun e => e.hits w && e.double)

/-- A single-bit error in DRAM (R387). -/
def drCe (d : Dev) : Dev := twCe 1 ((d.bump R.DR_CE_CNT).evt Ev.MS_DR_CE)

/-- An uncorrectable word of DRAM (R387; 12_twin.md R352). -/
def drUe (a : Nat) (d : Dev) : Dev :=
  let d := (d.bump R.DR_UE_CNT).evt Ev.MS_DR_UE
  let d := d.when (!d.fb F.DR_UE_ADDR_LO_VALID) (fun d => d.wr64 R.DR_UE_ADDR_LO R.DR_UE_ADDR_HI (a / 8 * 8 + 1))
  twFault 6 d

/-- A double-bit error that master `m` finds in a word of a store that keeps it (R368, R369). -/
def unitUe (st w m : Nat) (d : Dev) : Dev := storeMark st w (ueCount st w m d)

/-- Master `m` finds the word at `a` uncorrectable; `ue` says what its store makes of that. -/
def wordUe (ue : Nat → Nat → Nat → Dev → Dev) (m a : Nat) (d : Dev) : Dev :=
  match storeOf a with
  | some (st, w) => ue st w m d
  | none => d.when (inDram a) (drUe a)

def wordCe (a : Nat) (d : Dev) : Dev :=
  match storeOf a with
  | some (st, _) => storeCe st d
  | none => d.when (inDram a) drCe

/-- A read of `n` bytes from `a` by master `m`, which finds `ecc`: whether some word is uncorrectable; every error is counted (R368, R387). -/
def readFinds (ue : Nat → Nat → Nat → Dev → Dev) (m a n : Nat) (ecc : List EccHit) (d : Dev) : Bool × Dev :=
  (wordsIn a n).foldl (fun x w =>
    if x.2.loses ecc w then (true, wordUe ue m w x.2)
    else (x.1, x.2.when (ecc.any (fun e => e.hits w)) (wordCe w))) (false, d)

/-- The enabled bytes of a burst at `a` that fall in the 64-bit word at `w`. -/
def inWord (a : Nat) (bs : List (Option Byte)) (w : Nat) : List (Nat × Byte) :=
  bs.zipIdx.filterMap (fun e => if (a + e.2) / 8 = w / 8 then e.1.map (fun b => (a + e.2, b)) else none)

/-- The word of a burst's first four bytes. -/
def wordOf (bs : List (Option Byte)) : Word :=
  w32 (((bs.take 4).zipIdx).foldl (fun n e => n + (e.1.getD 0#8).toNat * 2 ^ (8 * e.2)) 0)

/-- A burst's bytes in memory. -/
def putBytes (a : Nat) (bs : List (Option Byte)) (mem : Memory) : Memory :=
  bs.zipIdx.foldl (fun mem e => match e.1 with
    | some b => Memory.wr8 mem (a + e.2) b
    | none => mem) mem

/-- One 64-bit word of a write by master `m`: whole, it replaces an uncorrectable word; narrower, it leaves one as it is, which is an error (R368,
R369). -/
def wordPut (ue : Nat → Nat → Nat → Dev → Dev) (m a : Nat) (bs : List (Option Byte)) (ecc : List EccHit) (x : Bool × Memory × Dev) (w : Nat) :
    Bool × Memory × Dev :=
  let es := inWord a bs w
  let mem := es.foldl (fun mem e => Memory.wr8 mem e.1 e.2) x.2.1
  let d := x.2.2
  match storeOf w with
  | none => (x.1, mem, d)
  | some (st, k) =>
    if es.length = 8 then (x.1, mem, storeHeal st k d)
    else if es.length = 0 then x
    else if d.loses ecc w then (true, x.2.1, wordUe ue m w d)
    else (x.1, mem, d.when (ecc.any (fun e => e.hits w)) (storeCe st))

/-- A write by master `m` to a store, a word at a time: whether it ends in error, the memory, the device. -/
def bytesPut (ue : Nat → Nat → Nat → Dev → Dev) (m a : Nat) (bs : List (Option Byte)) (ecc : List EccHit) (mem : Memory) (d : Dev) :
    Bool × Memory × Dev :=
  (wordsIn a bs.length).foldl (wordPut ue m a bs ecc) (false, mem, d)

/-! ### Mirrored windows (12_twin.md R343, R345) -/

/-- Does the consist declare a window that holds the address mirrored? -/
def Dev.mirrored (d : Dev) (a : Nat) : Bool := d.cs.windows.any (fun w => decide (w.1 ≤ a) && decide (a < w.1 + w.2))

/-- On a copy, a write of `n` bytes that reaches a mirrored window is ignored, from any agent but its peer. -/
def Dev.mirrorHeld (d : Dev) (ag : Option Agent) (a n : Nat) : Bool :=
  d.twCopy && ag != some .twin && (List.range n).any (fun i => d.mirrored (a + i))

/-- On the ACTIVE the words of a mirrored window that `n` bytes at `a` reach are copied, as memory `mem` then holds them. -/
def mirrorLog (m : Agent) (a n : Nat) (mem : Memory) (d : Dev) : Dev :=
  ((List.range ((a % 4 + n + 3) / 4)).map (fun i => a / 4 * 4 + 4 * i)).foldl
    (fun d w => d.when (d.mirrored w) (twLogWr w m (Memory.rd32 mem w))) d

/-- A write that a copy ignores (R345). -/
def mirrorIgn (d : Dev) : Dev := (d.bump R.TWN_WR_IGN_CNT).evt Ev.TWN_WR_IGN

/-! ### The fabric as every unit meets it (R373, R377, R383, R388) -/

/-- The target of an address (R373). -/
def Dev.targetOf (d : Dev) (a : Nat) : Option Nat :=
  if a < 0x40000 then some (if d.fb F.MS_REMAP_SWAP then 9 else 13)
  else if inAudio a then some (a / 1024 % 8)
  else if inNodes a then some 8
  else if inSram a then some 9
  else if inDram a then some 10
  else if inPeriph a then some 11
  else if inVirif a then some 12
  else none

/-- May the target serve master `m` (R377)? -/
def Dev.serves (d : Dev) (t m : Nat) : Bool :=
  match Tbl.get? d.ms.locks t with
  | some h => h == m
  | none => true

/-- The bursts that a unit's access to `n` bytes from `a` takes: one for each aligned 512 bytes, 16 beats of 256 bits (R372, R376; DESIGN CHOICE, log
110), by the address of the first byte. -/
def burstsOf (a n : Nat) : List Nat := (List.range ((a % 512 + n + 511) / 512)).map (fun i => max a (a / 512 * 512 + 512 * i))

/-- May the targets of `n` bytes from `a` serve master `m` (R377)? -/
def Dev.reach (d : Dev) (m a n : Nat) : Bool :=
  (burstsOf a n).all (fun p => match d.targetOf p with
    | some t => d.serves t m
    | none => true)

/-- The bytes that an access moves on the DRAM controller, in units of 64 bytes (R388: DR_BW_LAST). -/
def drMoved (a n : Nat) (d : Dev) : Dev := d.when (inDram a) (fun d => d.onMs (fun x => { x with bursts := x.bursts + (n + 63) / 64 }))

/-- The bursts of a unit's access as the targets and the DRAM controller count them (R388). -/
def unitMoves (m a n : Nat) (write : Bool) (d : Dev) : Dev :=
  drMoved a n ((burstsOf a n).foldl (fun d p => match d.targetOf p with
    | some t => granted t m write d
    | none => d) d)

/-- The memory with the writes that wait in the DRAM controller's queue: what any read finds (R374, R383). -/
def Dev.seen (d : Dev) (mem : Memory) : Memory :=
  d.ms.drq.foldl (fun mem q => if q.write && !q.refuse then putBytes q.addr q.data mem else mem) mem

/-- Bytes that are written past the queue stand over those of the writes that wait in it (R374). -/
def drOver (a : Nat) (bs : List (Option Byte)) (d : Dev) : Dev :=
  d.onMs (fun x => { x with drq := x.drq.map (fun q =>
    { q with data := q.data.mapIdx (fun i b => b.map (fun v => if a ≤ q.addr + i then ((bs[q.addr + i - a]?).getD none).getD v else v)) }) })

/-- A unit's read of `n` bytes from `a` as fabric master `m`, which finds `ecc`: whether some word is uncorrectable. -/
def unitRead (m a n : Nat) (ecc : List EccHit) (d : Dev) : Bool × Dev := readFinds unitUe m a n ecc (unitMoves m a n false d)

/-- A unit's write as fabric master `m`: whether it ends in error. -/
def unitWrite (m a : Nat) (bs : List Byte) (ecc : List EccHit) (mem : Memory) (d : Dev) : Bool × Memory × Dev :=
  let bs := bs.map some
  bytesPut unitUe m a bs ecc mem (drOver a bs (unitMoves m a bs.length true d))

end Sys2Proof.Machine
end

