-- ==== Sys2Proof/Machine/VirifOps.lean ====
section
/-!
DEFINITION. What the bundles of a Virif engine compute: addressing, narrowing, move slots and the operations of the
arithmetic slot, as functions of the context at the start of the bundle (05_virif_engines.md R145 to R165).
Marks (notes/assumptions): DEDUCED 35.
-/
namespace Sys2Proof.Machine

/-! ### Registers (R145) -/

def Ctx.dr (c : Ctx) (i : Nat) : Word := Tbl.getD c.d i 0#32
def Ctx.sd (c : Ctx) (i : Nat) : Int := wInt (c.dr i)
def Ctx.ac (c : Ctx) (i : Nat) : Int := Tbl.getD c.a i 0
def Ctx.pr (c : Ctx) (i : Nat) : Nat := Tbl.getD c.p i 0
def Ctx.mr (c : Ctx) (i : Nat) : Int := sgn 16 (Tbl.getD c.m i 0)
def Ctx.lr (c : Ctx) (i : Nat) : Nat := Tbl.getD c.l i 0
def Ctx.chan (c : Ctx) (k : Nat) : Chan := Tbl.getD c.ch k .zero
def Ctx.setD (c : Ctx) (i : Nat) (v : Word) : Ctx := { c with d := Tbl.set c.d 0#32 i v }
def Ctx.setA (c : Ctx) (i : Nat) (v : Int) : Ctx := { c with a := Tbl.set c.a 0 i (sgn 80 (unsgn 80 v)) }
def Ctx.setP (c : Ctx) (i v : Nat) : Ctx := { c with p := Tbl.set c.p 0 i (v % 32768) }
def Ctx.setM (c : Ctx) (i v : Nat) : Ctx := { c with m := Tbl.set c.m 0 i (v % 65536) }
def Ctx.setL (c : Ctx) (i v : Nat) : Ctx := { c with l := Tbl.set c.l 0 i (v % 32768) }
def Ctx.setChan (c : Ctx) (k : Nat) (x : Chan) : Ctx := { c with ch := Tbl.set c.ch .zero k x }

/-! ### Addressing (R146 to R149) -/

/-- The least `k` with `2 ^ k ≥ n`, searched up from `k`. -/
def clog2From (n : Nat) : (fuel k : Nat) → Nat
  | 0, k => k
  | fuel + 1, k => if n ≤ 2 ^ k then k else clog2From n fuel (k + 1)

/-- `upd(P, s)` with circular length `len` (R147). -/
def upd (len p : Nat) (s : Int) : Nat :=
  if len = 0 then ((p + s) % 32768).toNat
  else
    let k := clog2From len 16 0
    let base := p / 2 ^ k * 2 ^ k
    (base + ((p - base : Nat) + s) % len).toNat % 32768

/-- The `k` low bits of `x` in reverse order (R148). -/
def revBits (k x : Nat) : Nat :=
  (List.range k).foldl (fun r i => 2 * r + (x >>> i) % 2) 0

/-- Is `len` a length that mode 5 takes: `2 ^ k` with `k` from 1 to 14 (R148)? -/
def revLen (len : Nat) : Bool := (List.range 14).any (fun i => len == 2 ^ (i + 1))

/-- Mode 5's update (R148). -/
def revUpd (len p : Nat) (m : Int) : Nat :=
  let k := clog2From len 16 0
  let low := revBits k ((revBits k (p % 2 ^ k) + revBits k (unsgn k m)) % 2 ^ k)
  p / 2 ^ k * 2 ^ k + low

/-- The address of a move and its pointer after the bundle (R146); `step` is 1 or 2. -/
def address (c : Ctx) (n am : Nat) (step : Int) : Nat × Nat :=
  let p := c.pr n
  let l := c.lr n
  match am with
  | 0 => (p, p)
  | 1 => (p, upd l p step)
  | 2 => (p, upd l p (-step))
  | 3 => (p, upd l p (c.mr n))
  | 4 => (p, upd l p (-(c.mr n)))
  | 5 => (p, revUpd l p (c.mr n))
  | _ => (upd l p (c.mr n), p)

/-! ### Numeric rules (R164, R165) -/

/-- `narrow(x)`: the word and whether NOV sets (R165). -/
def narrow62 (sat' : Bool) (x : Int) : Word × Bool :=
  let v := narrow x 31
  if fits 32 v then (wOfInt v, false) else (if sat' then wOfInt (sat 32 v) else wOfInt v, true)

/-- `nsb(v)`: leading bits equal to bit 31, minus 1 (R161). -/
def nsb (v : Word) : Nat :=
  let s := bit v 31
  ((List.range 31).reverse.takeWhile (fun i => bit v i == s)).length

/-! ### Move slots (R146, R149, R152) -/

/-- What a move slot does: a fault's cause; the D, pointer and local words it writes; the words it loads; the local
words it touches; whether it stores; NOV. -/
structure Move where
  bad : Option Nat
  dw : List (Nat × Word)
  pw : List (Nat × Nat)
  sw : List (Nat × Word)
  ld : List Word
  touch : List Nat
  store : Bool
  nov : Bool
  deriving DecidableEq, Repr

def Move.none : Move := ⟨.none, [], [], [], [], [], false, false⟩
def Move.fail (cause : Nat) : Move := { Move.none with bad := some cause }

/-- Does the slot use memory (MOP 1 to 5)? -/
def Slot.usesMem (s : Slot) : Bool := decide (1 ≤ s.mop.val) && decide (s.mop.val ≤ 5)

/-- Is the move a pair move? -/
def Slot.isPair (s : Slot) : Bool := s.mop.val == 3 || s.mop.val == 4

/-- Is the slot a legal part of a bundle (R148, R149, R152)? `n` is its pointer's number. -/
def Slot.legal (c : Ctx) (n : Nat) (s : Slot) : Bool :=
  s.mop.val != 7 && s.low.val == 0 && !(s.usesMem && s.am.val == 7) && !(s.isPair && s.reg.val % 2 == 1) &&
  !(s.mop.val == 6 && decide (s.ptr.val ≥ 4)) && !(s.usesMem && s.am.val == 5 && !revLen (c.lr n))

/-- A slot's move. `y` says which slot; `rd` reads a word of its local memory. -/
def slotMove (rd : Nat → Word) (c : Ctx) (y : Bool) (s : Slot) : Move :=
  let n := if y then 8 + s.ptr.val else s.ptr.val
  let r := s.reg.val
  if !s.legal c n then .fail 1
  else
    let (a, p') := address c n s.am.val (if s.isPair then 2 else 1)
    if s.isPair && a % 2 == 1 then .fail 2
    else
      let m : Move := { Move.none with pw := [(n, p')] }
      match s.mop.val with
      | 1 => { m with dw := [(r, rd a)], ld := [rd a], touch := [a] }
      | 2 => { m with sw := [(a, c.dr r)], touch := [a], store := true }
      | 3 => { m with dw := [(r, rd a), (r + 1, rd (a + 1))], ld := [rd a, rd (a + 1)], touch := [a, a + 1] }
      | 4 => { m with sw := [(a, c.dr r), (a + 1, c.dr (r + 1))], touch := [a, a + 1], store := true }
      | 5 =>
        let v := narrow62 c.sat (c.ac (r % 4))
        { m with sw := [(a, v.1)], touch := [a], store := true, nov := v.2 }
      | 6 => { Move.none with dw := [(s.ptr.val * 8 + s.am.val, c.dr r)] }
      | _ => .none

/-! ### The arithmetic slot (R157 to R163) -/

/-- What the arithmetic slot does: whether it makes the bundle illegal; the D words, accumulators and control
register it writes; GOV, NOV; N and Z of a CMP; the word of Y that a TAPM shifts; whether it takes two cycles. -/
structure Arith where
  bad : Bool
  dw : List (Nat × Word)
  aw : List (Nat × Int)
  gov : Bool
  nov : Bool
  cmp : Option (Bool × Bool)
  cw : Option (Nat × Word)
  yw : List (Nat × Word)
  two : Bool
  deriving DecidableEq, Repr

def Arith.none : Arith := ⟨false, [], [], false, false, .none, .none, [], false⟩
def Arith.illegal : Arith := { Arith.none with bad := true }

/-- An operation of the arithmetic slot, given the context, the bundle and the two moves. -/
abbrev AOp := Ctx → Std → Move → Move → Arith

/-- An operation that requires MOD = 0 (R157). -/
def AOp.plain (g : AOp) : AOp := fun c o x y => if o.md.val ≠ 0 then .illegal else g c o x y

/-- An operation that writes one D register. -/
def opD (g : Ctx → Std → Word) : AOp :=
  AOp.plain (fun c o _ _ => { Arith.none with dw := [(o.dst.val, g c o)] })

/-- An operation that writes one D register with saturation (R165). -/
def opSat (g : Ctx → Std → Int) : AOp :=
  AOp.plain (fun c o _ _ =>
    let v := g c o
    { Arith.none with dw := [(o.dst.val, wOfInt (sat 32 v))], nov := !fits 32 v })

/-- An operation that writes one accumulator with its exact result, modulo 2^80, GOV when it does not fit (R164). -/
def opA (g : Ctx → Std → Int) : AOp :=
  AOp.plain (fun c o _ _ =>
    let v := g c o
    { Arith.none with aw := [(o.acc.val, v)], gov := !fits 80 v })

def opNop : AOp := AOp.plain (fun _ _ _ _ => .none)
def opMov : AOp := opD (fun c o => c.dr o.sa.val)
def opAdd : AOp := opD (fun c o => c.dr o.sa.val + c.dr o.sb.val)
def opSub : AOp := opD (fun c o => c.dr o.sa.val - c.dr o.sb.val)
def opAdds : AOp := opSat (fun c o => c.sd o.sa.val + c.sd o.sb.val)
def opSubs : AOp := opSat (fun c o => c.sd o.sa.val - c.sd o.sb.val)
def opNegs : AOp := opSat (fun c o => -(c.sd o.sa.val))
def opAbss : AOp := opSat (fun c o => ((c.sd o.sa.val).natAbs : Int))
def opAnd : AOp := opD (fun c o => c.dr o.sa.val &&& c.dr o.sb.val)
def opOr : AOp := opD (fun c o => c.dr o.sa.val ||| c.dr o.sb.val)
def opXor : AOp := opD (fun c o => c.dr o.sa.val ^^^ c.dr o.sb.val)
def opNot : AOp := opD (fun c o => ~~~(c.dr o.sa.val))
def opShl : AOp := opD (fun c o => c.dr o.sa.val <<< bits (c.dr o.sb.val) 0 5)
def opShr : AOp := opD (fun c o => wOfInt (narrow (c.sd o.sa.val) (bits (c.dr o.sb.val) 0 5)))
def opShrl : AOp := opD (fun c o => c.dr o.sa.val >>> bits (c.dr o.sb.val) 0 5)
def opMin : AOp := opD (fun c o => wOfInt (min (c.sd o.sa.val) (c.sd o.sb.val)))
def opMax : AOp := opD (fun c o => wOfInt (max (c.sd o.sa.val) (c.sd o.sb.val)))
def opCmp : AOp := AOp.plain (fun c o _ _ =>
  { Arith.none with cmp := some (decide (c.sd o.sa.val < c.sd o.sb.val), decide (c.dr o.sa.val = c.dr o.sb.val)) })
def opNsb : AOp := opD (fun c o => w32 (nsb (c.dr o.sa.val)))

/-- A multiply operand: MOD says which of the two are unsigned (R157). -/
def mulArg (c : Ctx) (md : Nat) (first : Bool) (i : Nat) : Int :=
  let uns := if first then decide (md ≥ 2) else md % 2 == 1
  if uns then ((c.dr i).toNat : Int) else c.sd i

def mulTerm (c : Ctx) (o : Std) (k : Nat) : Int :=
  mulArg c o.md.val true (o.sa.val + k) * mulArg c o.md.val false (o.sb.val + k)

/-- A multiply: the exact result goes to the accumulator (R164). -/
def opMul (g : Ctx → Std → Int) : AOp := fun c o _ _ =>
  let v := g c o
  { Arith.none with aw := [(o.acc.val, v)], gov := !fits 80 v }

def opMpy : AOp := opMul (fun c o => mulTerm c o 0)
def opMac : AOp := opMul (fun c o => c.ac o.acc.val + mulTerm c o 0)
def opMsu : AOp := opMul (fun c o => c.ac o.acc.val - mulTerm c o 0)
def opMac2 : AOp := fun c o x y =>
  if o.sa.val % 2 = 1 ∨ o.sb.val % 2 = 1 then .illegal
  else opMul (fun c o => c.ac o.acc.val + mulTerm c o 0 + mulTerm c o 1) c o x y

def opAclr : AOp := opA (fun _ _ => 0)
def opAmov : AOp := opA (fun c o => c.ac (o.sb.val % 4))
def opAadd : AOp := opA (fun c o => c.ac o.acc.val + c.ac (o.sb.val % 4))
def opAshl : AOp := opA (fun c o => c.ac o.acc.val * (2 ^ o.sb.val : Nat))
def opAshr : AOp := opA (fun c o => narrow (c.ac o.acc.val) o.sb.val)
def opArd : AOp := AOp.plain (fun c o _ _ =>
  let v := narrow62 c.sat (c.ac o.acc.val * (2 ^ o.sb.val : Nat))
  { Arith.none with dw := [(o.dst.val, v.1)], nov := v.2 })
def opAld : AOp := opA (fun c o => c.sd o.sa.val * (2 ^ 31 : Nat))

/-- TAPM (R160): both slots must be word loads and DST, SA, SB and MOD 0. -/
def opTapm : AOp := fun c o x y =>
  if o.x.mop.val ≠ 1 ∨ o.y.mop.val ≠ 1 ∨ o.dst.val ≠ 0 ∨ o.sa.val ≠ 0 ∨ o.sb.val ≠ 0 ∨ o.md.val ≠ 0 then .illegal
  else match x.ld, y.ld, y.touch with
    | [wx], [wy], [ay] =>
      let v := c.ac o.acc.val + wInt wx * wInt wy
      { Arith.none with aw := [(o.acc.val, v)], gov := !fits 80 v, yw := [((ay + 1) % 32768, wy)] }
    | _, _, _ => .none

/-- BXV (R161). -/
def opBxv : AOp := AOp.plain (fun c o x y =>
  { Arith.none with dw := [(o.dst.val, wOfInt ((x.ld ++ y.ld).foldl (fun m w => min m (nsb w : Int)) (c.sd o.dst.val)))] })

/-- CMAC (R162): two cycles. -/
def opCmac : AOp := fun c o _ _ =>
  if o.sa.val % 2 = 1 ∨ o.sb.val % 2 = 1 ∨ o.acc.val % 2 = 1 ∨ o.md.val > 1 then .illegal
  else
    let ar := c.sd o.sa.val
    let ai := c.sd (o.sa.val + 1)
    let br := c.sd o.sb.val
    let bi := c.sd (o.sb.val + 1)
    let re := if o.md.val = 0 then ar * br - ai * bi else ar * br + ai * bi
    let im := if o.md.val = 0 then ar * bi + ai * br else ai * br - ar * bi
    let v := c.ac o.acc.val + re
    let w := c.ac (o.acc.val + 1) + im
    { Arith.none with aw := [(o.acc.val, v), (o.acc.val + 1, w)], gov := !fits 80 v || !fits 80 w, two := true }

/-- BFLY (R163): two cycles. -/
def opBfly : AOp := fun c o _ _ =>
  if o.dst.val % 2 = 1 ∨ o.sa.val % 2 = 1 ∨ o.sb.val % 2 = 1 ∨ o.dst.val = o.sa.val ∨ o.md.val = 3 then .illegal
  else
    let ar := c.sd o.dst.val
    let ai := c.sd (o.dst.val + 1)
    let br := c.sd o.sa.val
    let bi := c.sd (o.sa.val + 1)
    let wr := c.sd o.sb.val
    let wi := c.sd (o.sb.val + 1)
    let tr := br * wr - bi * wi
    let ti := br * wi + bi * wr
    let nar (x : Int) : Word × Bool :=
      let v := x / (2 ^ (31 + o.md.val) : Nat)
      if fits 32 v then (wOfInt v, false) else (if c.sat then wOfInt (sat 32 v) else wOfInt v, true)
    let u := nar (ar * (2 ^ 31 : Nat) + tr)
    let u' := nar (ai * (2 ^ 31 : Nat) + ti)
    let v := nar (ar * (2 ^ 31 : Nat) - tr)
    let v' := nar (ai * (2 ^ 31 : Nat) - ti)
    { Arith.none with
      dw := [(o.dst.val, u.1), (o.dst.val + 1, u'.1), (o.sa.val, v.1), (o.sa.val + 1, v'.1)],
      nov := u.2 || u'.2 || v.2 || v'.2, two := true }

def opMvc : AOp := AOp.plain (fun c o _ _ => { Arith.none with cw := some (o.dst.val, c.dr o.sa.val) })

/-- MCV: `cr` reads a control register. -/
def opMcv (cr : Nat → Word) : AOp :=
  AOp.plain (fun _ o _ _ => { Arith.none with dw := [(o.dst.val, cr o.sa.val)] })

/-! ### Flags and control registers (R158, R166) -/

def EFlags.word (f : EFlags) : Word :=
  w32 (b2n f.protx * 2048 + b2n f.qempty * 1024 + b2n f.nov * 512 + b2n f.gov * 256 + b2n f.z * 2 + b2n f.n)

def EFlags.ofWord (w : Word) : EFlags := ⟨bit w 11, bit w 10, bit w 9, bit w 8, bit w 1, bit w 0⟩

/-- XCTL (R166). -/
def Chan.ctlWord (x : Chan) : Word := w32 (b2n x.act.isSome * 2 ^ 31 + b2n x.err * 2 ^ 30) ||| x.ctl

/-- LOOPST (R166). -/
def Ctx.loopst (c : Ctx) : Word :=
  match c.loops with
  | [] => 0#32
  | l :: _ => w32 (b2n (decide (c.cache = some (l.start, l.stop))) * 2 ^ 24 + c.loops.length * 2 ^ 20 + l.count)

/-- An MVC's write: MODE, FLAGS and the channel registers outside their RO fields; any other is ignored (R166). -/
def Ctx.setC (c : Ctx) (n : Nat) (v : Word) : Ctx :=
  if n = 1 then { c with sat := bit v 0 }
  else if n = 2 then { c with flags := EFlags.ofWord v }
  else if 16 ≤ n then
    let k := (n - 16) / 4
    let x := c.chan k
    match n % 4 with
    | 0 => c.setChan k { x with loc := w32 (bits v 0 16) }
    | 1 => c.setChan k { x with extLo := v }
    | 2 => c.setChan k { x with extHi := w32 (bits v 0 8) }
    | _ => c.setChan k { x with ctl := v &&& 0x3000FFFF#32 }
  else c

/-! ### Loops and the next bundle (R154, R156) -/

/-- The context after a bundle that does not branch: the end bundle of the innermost loop loops back, at 2 cycles when
its body is not in the repeat cache, or pops the level; `none` past bundle 8191. -/
def Ctx.advance (c : Ctx) : Option Ctx :=
  match c.loops with
  | l :: rest =>
    if c.pc = l.stop ∧ l.count > 1 then
      let hit := decide (c.cache = some (l.start, l.stop))
      some { c with pc := l.start, cyc := c.cyc + (if hit then 0 else 2), loops := { l with count := l.count - 1 } :: rest }
    else
      let c' := if c.pc = l.stop then { c with loops := rest } else c
      if c.pc ≥ 8191 then none else some { c' with pc := c.pc + 1 }
  | [] => if c.pc ≥ 8191 then none else some { c with pc := c.pc + 1 }

/-- COND (R154). -/
def Ctx.cond (c : Ctx) (k : Nat) : Bool :=
  let f := c.flags
  match k with
  | 0 => true
  | 1 => f.z
  | 2 => !f.z
  | 3 => f.n
  | 4 => !f.n
  | 5 => !f.n && !f.z
  | 6 => f.n || f.z
  | _ => f.gov

/-- A taken branch to `t`; a BRA out of the innermost body pops that loop (R156). -/
def Ctx.branch (c : Ctx) (t : Nat) : Ctx :=
  match c.loops with
  | l :: rest => if t < l.start ∨ l.stop < t then { c with pc := t, loops := rest } else { c with pc := t }
  | [] => { c with pc := t }

/-- A loop entered over the next bundle to `t`, `n` times; a body of 1 to 64 bundles takes the repeat cache (R156). -/
def Ctx.enter (c : Ctx) (t n : Nat) : Ctx :=
  let s := c.pc + 1
  { c with loops := ⟨s, t, n⟩ :: c.loops, cache := if t - s < 64 then some (s, t) else c.cache }

end Sys2Proof.Machine
end

