-- ==== Sys2Proof/Machine/Virif.lean ====
section
/-!
DEFINITION. The Virif engines issue bundles and run their transfers (05_virif_engines.md R141 to R174). A bundle's row
stands for its issue at the engine's PC: it acts where program memory holds that bundle there.
Marks (notes/assumptions): DESIGN CHOICE 32, 108; DEDUCED 33, 34, 36, 39, 95.
-/
namespace Sys2Proof.Machine

def Dev.eng (d : Dev) (e : Nat) : Engine := d.vf.get e
def Dev.setEng (d : Dev) (e : Nat) (g : Engine) : Dev := { d with vf := d.vf.put e g }
def Dev.onEng (d : Dev) (e : Nat) (g : Engine → Engine) : Dev := d.setEng e (g (d.eng e))
def Engine.onCtx (g : Engine) (h : Ctx → Ctx) : Engine := { g with ctx := h g.ctx }

/-! ### Local memories (R142) -/

def virifBase (e : Nat) : Nat := 0x40000000 + 0x100000 * e
def localAddr (e : Nat) (y : Bool) (w : Nat) : Nat :=
  virifBase e + (if y then 0x40000 else 0x20000) + 4 * (w % 32768)
def rdLocal (mem : Memory) (e : Nat) (y : Bool) (w : Nat) : Word := Memory.rd32 mem (localAddr e y w)
def wrLocals (mem : Memory) (e : Nat) (y : Bool) (ws : List (Nat × Word)) : Memory :=
  ws.foldl (fun m p => Memory.wr32 m (localAddr e y p.1) p.2) mem
def rdLocals (mem : Memory) (e : Nat) (y : Bool) (w n : Nat) : List Word :=
  (List.range n).map (fun i => rdLocal mem e y (w + i))

/-! ### Bundles (R150 to R154, R157) -/

/-- What a 64-bit bundle is: its form, the code of its operation, its fields. -/
inductive Bundle
  | std (opc : Nat) (o : Std)
  | imm (iop : Nat) (r : Imm)
  | ctl (cop : Nat) (c : Ctl)
  | illegal
  deriving DecidableEq, Repr

/-- A move slot's fields, at bits 17:0 of `w` (R152). -/
def slotOf (w : Nat) : Slot :=
  ⟨Fin.ofNat 8 (w >>> 15), Fin.ofNat 8 (w >>> 12), Fin.ofNat 8 (w >>> 9), Fin.ofNat 32 (w >>> 4), Fin.ofNat 16 w⟩

/-- The fields of a standard bundle (R150, R151). -/
def stdOf (w : Nat) : Std :=
  ⟨Fin.ofNat 32 (w >>> 50), Fin.ofNat 32 (w >>> 45), Fin.ofNat 32 (w >>> 40), Fin.ofNat 4 (w >>> 38), Fin.ofNat 4 (w >>> 36),
   slotOf (w >>> 18), slotOf w, 0⟩

/-- The fields of an immediate bundle (R153). -/
def immOf (w : Nat) : Imm := ⟨Fin.ofNat 32 (w >>> 51), Fin.ofNat 32 (w >>> 46), Fin.ofNat 16384 (w >>> 32), w32 w, 0⟩

/-- The fields of a control bundle (R154). -/
def ctlOf (w : Nat) : Ctl :=
  ⟨Fin.ofNat 32 (w >>> 51), Fin.ofNat 8 (w >>> 48), Fin.ofNat 65536 (w >>> 32), Fin.ofNat 524288 (w >>> 13), Fin.ofNat 8192 w, 0⟩

/-- The OPCs that R157 lists. -/
def opcOk (opc : Nat) : Bool :=
  decide (opc ≤ 0x12) || (decide (0x20 ≤ opc) && decide (opc ≤ 0x23)) || (decide (0x28 ≤ opc) && decide (opc ≤ 0x2E)) ||
  [0x30, 0x31, 0x34, 0x35, 0x38, 0x39].contains opc

/-- The bundle of a 64-bit word (R150); a form, OPC, IOP or COP that no table lists is illegal. -/
def bundleOf (w : Nat) : Bundle :=
  let opc := w >>> 55 % 128
  let code := w >>> 56 % 64
  match w >>> 62 % 4 with
  | 0 => if opcOk opc then .std opc (stdOf w) else .illegal
  | 1 => if code ≤ 7 then .imm code (immOf w) else .illegal
  | 2 => if code ≤ 0xB then .ctl code (ctlOf w) else .illegal
  | _ => .illegal

/-- The address of bundle `pc` of engine `e`, and the bundle there (R142). -/
def bundleAddr (e pc : Nat) : Nat := virifBase e + 8 * pc
def bundleAt (mem : Memory) (e pc : Nat) : Bundle :=
  bundleOf (pair (Memory.rd32 mem (bundleAddr e pc)) (Memory.rd32 mem (bundleAddr e pc + 4)))

/-! ### Control registers (R166) -/

/-- ENG_STATUS.STATE (R166): an engine that is to issue its item's first bundle runs, and so does one at END that waits for no channel (DEDUCED, log
108). -/
def Dev.engState (d : Dev) (e : Nat) : Nat :=
  let g := d.eng e
  if e ≥ d.cap.engines then 6
  else if g.wait = .saving ∨ g.wait = .restoring then 4
  else if !g.run then 0
  else if g.wait = .stopped then 5
  else if g.ctx.ch.any (fun x => match x.2.act with
    | some t => t.tick
    | none => false) then 3
  else if g.wait = .go ∨ g.wait = .starting ∨ (g.wait = .ending ∧ !g.ctx.ch.any (fun x => x.2.act.isSome)) then 1
  else 2

/-- Control register `n` of engine `e`, as MCV and the fabric read it. -/
def Dev.engReg (d : Dev) (e n : Nat) : Word :=
  let g := d.eng e
  let c := g.ctx
  let r := c.run
  match n with
  | 0 => w32 (d.cap.engines * 2 ^ 16 + (8 + e) * 2 ^ 8 + e)
  | 1 => w32 (b2n c.sat)
  | 2 => c.flags.word
  | 3 => w32 (b2n r.pre * 2 ^ 15 + r.plat * 2 ^ 12 + r.item)
  | 4 => r.arg0
  | 5 => r.arg1
  | 6 => w32 r.blk
  | 7 => w32 (r.blk / 2 ^ 32)
  | 8 => w32 c.cyc
  | 9 => c.loopst
  | 10 => w32 ((if g.run then r.plat * 2 ^ 28 + r.item * 2 ^ 16 else 0) + g.saved.length * 2 ^ 4 + d.engState e)
  | 11 => d.rd (R.ENG_STICKY.of e)
  | 12 => d.rd (R.ENG_FAULT.of e)
  | 13 => d.rd (R.ENG_FAULT_PC.of e)
  | 14 => d.rd (R.ENG_RUNS.of e)
  | 15 => 0#32
  | _ =>
    let x := c.chan ((n - 16) / 4)
    match n % 4 with
    | 0 => x.loc
    | 1 => x.extLo
    | 2 => x.extHi
    | _ => x.ctlWord

/-! ### Issue (R154, R155, R168, R174) -/

/-- May engine `e` issue a bundle? -/
def Dev.issues (d : Dev) (e : Nat) : Bool :=
  let g := d.eng e
  decide (e < d.cap.engines) && g.run && decide (g.wait = .go) && g.fault.isNone

/-- The engine stops with a fault (R174); the first one stands. -/
def Engine.stop (g : Engine) (cause pc : Nat) : Engine :=
  if g.fault.isSome then g else { g with fault := some (cause, pc), wait := .go }

/-- The bundle that issues stops the engine with a fault; its cycle counts (R171). -/
def Engine.fail (g : Engine) (cause pc : Nat) : Engine := { g with ctx := { g.ctx with cyc := g.ctx.cyc + 1 } }.stop cause pc

/-- The engine reads an uncorrectable word at address `a` for the bundle at its PC (R144). -/
def eccFault (e a : Nat) (d : Dev) : Dev :=
  (unitUe 2 (e * 40960 + virifWord (a % 2 ^ 20)) unitPort d).setEng e ((d.eng e).fail 9 (d.eng e).ctx.pc)

/-- Single-bit errors that an engine corrects as it reads are counted (R144; 13_memory.md R368). -/
def engCe (n : Nat) (d : Dev) : Dev := (List.range n).foldl (fun d _ => storeCe 2 d) d

/-- Does engine `e` fetch the bundle `b` next? -/
def Dev.fetches (d : Dev) (mem : Memory) (e : Nat) (b : Bundle) : Bool :=
  !d.badWord (bundleAddr e (d.eng e).ctx.pc) && decide (bundleAt mem e (d.eng e).ctx.pc = b)

/-- The context after a bundle of `cyc` cycles, on to the next bundle; past bundle 8191 a PC_RANGE fault. -/
def Engine.proceed (g : Engine) (c : Ctx) (cyc : Nat) : Engine :=
  let c := { c with cyc := c.cyc + cyc }
  match c.advance with
  | some c' => { g with ctx := c', wait := .go }
  | none => { g with ctx := c }.stop 5 8191

/-- The same for a bundle that names the next one: a taken BRA, CALL or RET, LOOP and LOOPR. One that stands at the innermost loop's end does not
go back and ends no loop (R154, R156; DEDUCED, log 108). -/
def Engine.jump (g : Engine) (c : Ctx) (cyc : Nat) : Engine :=
  { g with ctx := { c with cyc := c.cyc + cyc }, wait := .go }

/-- Does an access to a local word meet the local range of a busy channel (R168)? A load from a range that is only read does not. -/
def Ctx.meet (c : Ctx) (y store : Bool) (w : Nat) : Bool :=
  c.ch.any (fun p => match p.2.act with
    | none => false
    | some t => decide (t.y = y) && (store || t.kind % 2 == 0) && decide (t.word ≤ w) && decide (w < t.word + t.n))

def Ctx.meets (c : Ctx) (y : Bool) (words : List Nat) (store : Bool) : Bool := words.any (c.meet y store)

/-- The D registers that the X slot, the Y slot and the arithmetic slot write, in rising precedence (R155). -/
def Ctx.writeD (c : Ctx) (ws : List (Nat × Word)) : Ctx := ws.foldl (fun c p => c.setD p.1 p.2) c

/-- The context after a standard bundle's writes. -/
def Ctx.commit (c : Ctx) (x y : Move) (a : Arith) : Ctx :=
  let c1 := c.writeD (x.dw ++ y.dw ++ a.dw)
  let c2 := (x.pw ++ y.pw).foldl (fun c p => c.setP p.1 p.2) c1
  let c3 := a.aw.foldl (fun c p => c.setA p.1 p.2) c2
  let c4 := match a.cw with
    | some (n, v) => c3.setC n v
    | none => c3
  let f := c4.flags
  let f := { f with nov := f.nov || x.nov || y.nov || a.nov, gov := f.gov || a.gov }
  { c4 with flags := match a.cmp with
      | some (n, z) => { f with n := n, z := z }
      | none => f }

/-- Words of local memory as a bundle stores them. A narrower write into an uncorrectable 64-bit word leaves it and is counted; both halves
replace it (13_memory.md R368, R369). -/
def engStore (e : Nat) (y : Bool) (ws : List (Nat × Word)) (a : Memory × Dev) : Memory × Dev :=
  let whole := ws.filter (fun p => ws.any (fun q => q.1 != p.1 && q.1 / 2 == p.1 / 2))
  ws.foldl (fun a p =>
    let at' := localAddr e y p.1
    if whole.contains p then (Memory.wr32 a.1 at' p.2, match storeOf at' with
      | some k => storeHeal k.1 k.2 a.2
      | none => a.2)
    else (bytesPut unitUe unitPort at' ((wordBytes p.2).map some) [] a.1 a.2).2) a

/-- A standard bundle with operation `op` of code `opc` (R155). -/
def issueStd (opc : Nat) (op : Dev → Nat → AOp) (e : Nat) (o : Std) (mem : Memory) (d : Dev) : Memory × Dev :=
  let g := d.eng e
  let c := g.ctx
  if !d.issues e then (mem, d)
  else if d.badWord (bundleAddr e c.pc) then (mem, eccFault e (bundleAddr e c.pc) d)
  else if !d.fetches mem e (.std opc { o with ce := 0 }) then (mem, d)
  else
    let d := engCe o.ce.val d
    let x := slotMove (rdLocal mem e false) c false o.x
    let y := slotMove (rdLocal mem e true) c true o.y
    let a := op d e c o x y
    let loads (y : Bool) (m : Move) : List Nat := if m.ld = [] then [] else m.touch.map (localAddr e y)
    let lost := (loads false x ++ loads true y).find? d.badWord
    if a.bad ∨ x.bad = some 1 ∨ y.bad = some 1 then (mem, d.setEng e (g.fail 1 c.pc))
    else if x.bad.isSome ∨ y.bad.isSome then (mem, d.setEng e (g.fail 2 c.pc))
    else if c.meets false x.touch x.store ∨ c.meets true y.touch y.store ∨ c.meets true (a.yw.map Prod.fst) true then
      (mem, d.setEng e { g with wait := .conflict (x.touch.map (fun w => (false, x.store, w)) ++ y.touch.map (fun w => (true, y.store, w)) ++
        a.yw.map (fun p => (true, true, p.1))) })
    else match lost with
      | some w => (mem, eccFault e w d)
      | none =>
        let r := engStore e true (y.sw ++ a.yw) (engStore e false x.sw (mem, d))
        (r.1, r.2.setEng e (g.proceed (c.commit x y a) (if a.two then 2 else 1)))

/-- A bundle whose arithmetic slot is empty, with slot `sl` on the side that `y` says and `other` on the other. -/
def slotBundle (y : Bool) (sl other : Slot) (ce mop : Fin 8) : Std :=
  let s := { sl with mop := mop }
  if y then ⟨0, 0, 0, 0, 0, other, s, ce⟩ else ⟨0, 0, 0, 0, 0, s, other, ce⟩

/-- An immediate bundle of code `iop`: bits 45:32 must be 0 (R153). -/
def issueImm (iop : Nat) (g : Ctx → Imm → Ctx) (e : Nat) (r : Imm) (mem : Memory) (d : Dev) : Dev :=
  let k := d.eng e
  if !d.issues e then d
  else if d.badWord (bundleAddr e k.ctx.pc) then eccFault e (bundleAddr e k.ctx.pc) d
  else if !d.fetches mem e (.imm iop { r with ce := 0 }) then d
  else
    let d := engCe r.ce.val d
    if r.rsv.val ≠ 0 then d.setEng e (k.fail 1 k.ctx.pc) else d.setEng e (k.proceed (g k.ctx r) 1)

/-- A control bundle of code `cop`: bits 31:13 must be 0 (R154). -/
def issueCtl (cop : Nat) (g : Engine → Ctl → Dev → Dev) (e : Nat) (c : Ctl) (mem : Memory) (d : Dev) : Dev :=
  let k := d.eng e
  if !d.issues e then d
  else if d.badWord (bundleAddr e k.ctx.pc) then eccFault e (bundleAddr e k.ctx.pc) d
  else if !d.fetches mem e (.ctl cop { c with ce := 0 }) then d
  else
    let d := engCe c.ce.val d
    if c.rsv.val ≠ 0 then d.setEng e (k.fail 1 k.ctx.pc) else g k c d

/-- A control bundle of one cycle that only changes the context. -/
def ctlStep (h : Ctx → Ctx) (e : Nat) : Engine → Ctl → Dev → Dev :=
  fun k _ d => d.setEng e (k.proceed (h k.ctx) 1)

def ctlBra (e : Nat) : Engine → Ctl → Dev → Dev := fun k c d =>
  if k.ctx.cond c.cond.val then d.setEng e (k.jump (k.ctx.branch c.target.val) 3) else d.setEng e (k.proceed k.ctx 1)

/-- CALL (R154). One in bundle 8191 pushes 0, as PC + 1 in the PC's 13 bits (DESIGN CHOICE, log 108). -/
def ctlCall (e : Nat) : Engine → Ctl → Dev → Dev := fun k c d =>
  if !k.ctx.cond c.cond.val then d.setEng e (k.proceed k.ctx 1)
  else if k.ctx.calls.length ≥ 8 then d.setEng e (k.fail 4 k.ctx.pc)
  else d.setEng e (k.jump { k.ctx with calls := ((k.ctx.pc + 1) % 8192) :: k.ctx.calls, pc := c.target.val } 3)

def ctlRet (e : Nat) : Engine → Ctl → Dev → Dev := fun k c d =>
  if !k.ctx.cond c.cond.val then d.setEng e (k.proceed k.ctx 1)
  else match k.ctx.calls with
    | [] => d.setEng e (k.fail 4 k.ctx.pc)
    | r :: rest => d.setEng e (k.jump { k.ctx with calls := rest, pc := r } 3)

/-- LOOP and LOOPR with count `n`; `0` skips past the body (R154). -/
def ctlLoop (count : Ctx → Ctl → Nat) (e : Nat) : Engine → Ctl → Dev → Dev := fun k c d =>
  let x := k.ctx
  let n := count x c
  if c.target.val < x.pc + 1 then d.setEng e (k.fail 1 x.pc)
  else if x.loops.length ≥ 4 then d.setEng e (k.fail 3 x.pc)
  else if n = 0 then
    if c.target.val ≥ 8191 then d.setEng e (k.fail 5 8191)
    else d.setEng e (k.jump { x with pc := c.target.val + 1 } 1)
  else d.setEng e (k.jump { x.enter c.target.val n with pc := x.pc + 1 } 1)

/-- BRK stops the engine while a debugger is attached in Inspection at debug level 3 (R154, 17_security_debug.md R475). -/
def ctlBrk (e : Nat) : Engine → Ctl → Dev → Dev := fun k _ d =>
  let k' := k.proceed k.ctx 1
  if d.inMode mInspection && d.fb F.STATUS_SEC_ATTACH && d.level == 3 then
    d.setEng e { k' with wait := if k'.fault.isSome then .go else .stopped }
  else d.setEng e k'

/-! ### Transfers (R167 to R169) -/

/-- The words from `word` on that channel `k` moves with its registers as they stand: LEN, or the queue's slot. -/
def Chan.kind (x : Chan) : Nat := bits x.ctl 28 2
def Chan.qid (x : Chan) : Nat := bits x.extLo 0 9
def Dev.xferLen (d : Dev) (x : Chan) : Nat :=
  if x.kind ≥ 2 then Tbl.getD d.vf.gslot (x.qid - 320) 0 else bits x.ctl 0 16

/-- Is the queue bound to the item in this direction (R169, 06_signal_box.md R178)? -/
def bound (qb : Word) (put : Bool) (q : Nat) : Bool :=
  (List.range 4).any (fun i => bit qb (8 * i + 7) && bit qb (8 * i + 6) == put && bits qb (8 * i) 6 + 320 == q)

/-- May a transfer use the external range (R167)? -/
def Dev.extOk (d : Dev) (a n : Nat) : Bool :=
  let z := a + 4 * n - 1
  (inSram a && inSram z) || (inAudio a && inAudio z) || (inDram a && d.canFetch a && inDram z && d.canFetch z)

/-- A graph-queue slot's words, in channels of 32 as the CRM reads them, and back. -/
def chunk32 (ws : List Word) (n : Nat) : Tbl (List Word) :=
  (List.range ((n + 31) / 32)).map (fun k => (k, (ws.drop (32 * k)).take 32))
def QSlot.words (s : QSlot) : List Word := s.ch.flatMap Prod.snd

/-- Must the channel wait: it is busy, or its local range overlaps a busy channel's (R168)? -/
def Ctx.xgoWaits (c : Ctx) (k : Nat) (y : Bool) (word n : Nat) : Bool :=
  (c.chan k).act.isSome || c.ch.any (fun p => match p.2.act with
    | none => false
    | some t => decide (t.y = y) && decide (0 < n) && decide (0 < t.n) && decide (t.word < word + n) && decide (word < t.word + t.n))

/-- A QPUT takes a ticket, or waits for one (R169). -/
def startPut (e k : Nat) (t : Xfer) (d : Dev) : Dev :=
  let have' := decide ((d.q.get t.ext).h > 0)
  let d := d.when have' (fun d => d.onQ (fun q => q.spend t.ext))
  d.onEng e (fun g => g.onCtx (fun c => c.setChan k { c.chan k with act := some { t with tick := !have' }, redo := none }))

/-- The channel starts, its conflicts over (R167, R169), and the engine goes on past the XGO. -/
def startXfer (e k : Nat) (d : Dev) : Dev :=
  let g := d.eng e
  let c := g.ctx
  let x := c.chan k
  let n := d.xferLen x
  let ext := if x.kind ≥ 2 then x.qid else pair x.extLo x.extHi / 4 * 4
  let t : Xfer := ⟨x.kind, bit x.loc 15, bits x.loc 0 15, n, ext, false, [], c.pc⟩
  let c0 := c.setChan k { x with err := false }
  if x.kind < 2 ∧ n > 0 ∧ !d.extOk ext n then
    (fetchMiss ext d).setEng e ({ g with ctx := c.setChan k { x with err := true } }.fail 6 c.pc)
  else
    let d := d.setEng e (g.proceed c0 1)
    if x.kind = 3 then startPut e k t d
    else if x.kind = 2 then
      match d.q.take ext with
      | (some s, q) =>
        { d with q := q }.onEng e (fun g => g.onCtx (fun c => c.setChan k { c.chan k with act := some { t with data := s.words } }))
      | (none, _) =>
        d.onEng e (fun g => g.onCtx (fun c =>
          { c.setChan k { c.chan k with act := some { t with data := List.replicate n 0#32 } } with
            flags := { c.flags with qempty := true } }))
    else if n = 0 then d
    else d.onEng e (fun g => g.onCtx (fun c => c.setChan k { c.chan k with act := some t }))

/-- XGO (R154, R167 to R169). -/
def ctlXgo (e : Nat) : Engine → Ctl → Dev → Dev := fun g c d =>
  let k := c.reg.val % 4
  let x := g.ctx.chan k
  let n := d.xferLen x
  if x.kind ≥ 2 ∧ !bound g.ctx.run.qb (x.kind == 3) x.qid then d.setEng e (g.fail 7 g.ctx.pc)
  else if n > 0 ∧ bits x.loc 0 15 + n > 32768 then d.setEng e (g.fail 8 g.ctx.pc)
  else if g.ctx.xgoWaits k (bit x.loc 15) (bits x.loc 0 15) n then d.setEng e { g with wait := .xgo k }
  else startXfer e k d

/-- XWAIT (R154). -/
def Ctx.busyIn (c : Ctx) (mask : Nat) : Bool :=
  c.ch.any (fun p => p.2.act.isSome && (mask >>> p.1) % 2 == 1)

def ctlXwait (e : Nat) : Engine → Ctl → Dev → Dev := fun g c d =>
  let mask := c.count.val % 16
  if g.ctx.busyIn mask then d.setEng e { g with wait := .xwait mask } else d.setEng e (g.proceed g.ctx 1)

/-- END: any protected section closes, and the engine waits for its channels (R171, R173). -/
def ctlEnd (e : Nat) : Engine → Ctl → Dev → Dev := fun g _ d =>
  d.setEng e { g with wait := .ending, ctx := { g.ctx with prot := false, cyc := g.ctx.cyc + 1 } }

/-- A waiting XGO starts once its conflict is over (R168). -/
def xferStart (e k : Nat) (d : Dev) : Dev :=
  let g := d.eng e
  let x := g.ctx.chan k
  d.when (decide (g.wait = .xgo k) && !g.ctx.xgoWaits k (bit x.loc 15) (bits x.loc 0 15) (d.xferLen x)) (startXfer e k)

/-- The waits that a channel going idle ends; `waited` cycles passed in them (R168, R171), or in a fault's wait for its channels (R174). -/
def Engine.release (g : Engine) (waited : Nat) : Engine :=
  let c := { g.ctx with cyc := g.ctx.cyc + waited }
  if g.fault.isSome then { g with ctx := c }
  else match g.wait with
    | .conflict ws => { g with wait := if ws.any (fun w => c.meet w.1 w.2.1 w.2.2) then g.wait else .go, ctx := c }
    | .xwait mask => if c.busyIn mask then { g with ctx := c } else g.proceed c 1
    | .xgo _ => { g with ctx := c }
    | .ending => { g with ctx := c }
    | _ => g

/-- The channel goes idle and the waits it held end. -/
def chanIdle (e k waited : Nat) (err : Bool) (d : Dev) : Dev :=
  d.onEng e (fun g => (g.onCtx (fun c => c.setChan k { c.chan k with act := none, err := err })).release waited)

/-- The transfer ends with an error response: ERR, and the item is aborted at the XGO's bundle (R167, R174). -/
def xferErr (e k waited : Nat) (d : Dev) : Dev :=
  match ((d.eng e).ctx.chan k).act with
  | none => d
  | some t =>
    d.when (!t.tick && decide (t.kind < 2)) (fun d => chanIdle e k waited true (d.onEng e (fun g => g.stop 6 t.pc)))

/-- The local range of a transfer gets the words `ws` (13_memory.md R368, R369). -/
def localPut (e : Nat) (t : Xfer) (ws : List Word) (ecc : List EccHit) (mem : Memory) (d : Dev) : Memory × Dev :=
  (bytesPut unitUe unitPort (localAddr e t.y t.word) ((ws.flatMap wordBytes).map some) ecc mem d).2

/-- The channel completes its transfer (R167, R169): its data moves, it goes idle, and waits end. `ecc` is what it finds in the words it
reads. An uncorrectable word in the external range is an error response, and so is a write that a copy ignores (12_twin.md R345); one in the
local range it reads is an error of the engine's (R144; 13_memory.md R368). The transfer waits while another master holds its target locked
(13_memory.md R377). -/
def xferDone (e k waited : Nat) (ecc : List EccHit) (mem : Memory) (d : Dev) : Memory × Dev :=
  let g := d.eng e
  match (g.ctx.chan k).act with
  | none => (mem, d)
  | some t =>
    let n := 4 * t.n
    let idle := chanIdle e k waited false
    let ws := rdLocals mem e t.y t.word t.n
    if t.tick ∨ (t.kind < 2 ∧ !d.reach 4 t.ext n) then (mem, d)
    else if t.kind = 0 then
      let r := unitRead 4 t.ext n ecc d
      if r.1 then (mem, xferErr e k waited r.2)
      else (localPut e t (Memory.rdWords (d.seen mem) t.ext t.n) ecc mem r.2).map id idle
    else if t.kind = 2 then (localPut e t (t.data.take t.n) ecc mem d).map id idle
    else
      let r := readFinds unitUe unitPort (localAddr e t.y t.word) n ecc d
      if r.1 then (mem, chanIdle e k waited false (r.2.onEng e (fun g => g.stop 9 t.pc)))
      else if t.kind = 1 then
        let ag : Agent := .virif (Fin.ofNat 16 e)
        if d.mirrorHeld (some ag) t.ext n then (mem, xferErr e k waited (mirrorIgn r.2))
        else
          let x := unitWrite 4 t.ext (ws.flatMap wordBytes) ecc mem r.2
          if x.1 then (x.2.1, xferErr e k waited x.2.2)
          else (x.2.1, idle (mirrorLog ag t.ext n x.2.1 x.2.2))
      else
        let s : QSlot := ⟨g.ctx.run.blk, chunk32 ws t.n⟩
        (mem, idle (r.2.onQ (fun q => (q.fill t.ext).setSlots t.ext (q.slotsOf t.ext ++ [s]))))

/-- A ticket has returned: the waiting QPUT writes its slot (R169). -/
def qputTicket (e k : Nat) (d : Dev) : Dev :=
  match ((d.eng e).ctx.chan k).act with
  | none => d
  | some t => d.when (t.tick && decide ((d.q.get t.ext).h > 0)) (startPut e k t)

/-- A protected section closes by itself, and PROTX sets (R173). -/
def protTimeout (e : Nat) (d : Dev) : Dev :=
  d.when ((d.eng e).run && (d.eng e).ctx.prot) (fun d => d.onEng e (fun g => g.onCtx (fun c =>
    { c with prot := false, flags := { c.flags with protx := true } })))

/-- A write of ENG_CNT_CLR (R166). -/
def engCntClr (e : Nat) (v : Word) (d : Dev) : Dev :=
  d.when (bit v 0) (fun d => (d.wr (R.ENG_RUNS.of e) 0#32).wr (R.ENG_FAULT.of e) 0#32)

/-- An operation that needs no device. -/
def pure' (op : AOp) : Dev → Nat → AOp := fun _ _ => op

end Sys2Proof.Machine
end

