-- ==== Sys2Proof/Machine/Sbox.lean ====
section
/-!
DEFINITION. The signal box: trace, platforms, completions, dispatch, the timetable, the graph loader and swaps, and its
actions at a departure (06_signal_box.md R177 to R205).
Marks (notes/assumptions): DEDUCED 37, 38.
-/
namespace Sys2Proof.Machine

def Dev.onSb (d : Dev) (g : Sbox → Sbox) : Dev := { d with sb := g d.sb }

/-! ### Descriptors (R178, R179) -/

def Desc.depcnt (x : Desc) : Nat := bits x.w0 17 12
def Desc.pre (x : Desc) : Bool := bit x.w0 16
def Desc.plat (x : Desc) : Nat := bits x.w0 13 3
def Desc.entry (x : Desc) : Nat := bits x.w0 0 13
def Desc.release (x : Desc) : Nat := bits x.w1 24 6
def Desc.deadline (x : Desc) : Nat := bits x.w1 16 7
def Desc.aff (x : Desc) : Nat := bits x.w1 0 16
def Desc.succLen (x : Desc) : Nat := bits x.w2 16 9
def Desc.succIdx (x : Desc) : Nat := bits x.w2 0 16
def Desc.isStage (x : Desc) : Bool := x.kind == 1 || x.kind == 2

/-- The successors of an item (R179). -/
def Graph.succs (g : Graph) (x : Desc) : List Nat := (g.succ.drop x.succIdx).take x.succLen

def Inst.run (i : Inst) (j : Nat) : IRun := (i.runs[j]?).getD ⟨0, .done, false, false, false, false, false⟩
def Inst.setRun (i : Inst) (j : Nat) (r : IRun) : Inst := { i with runs := i.runs.set j r }

def Dev.setInst (d : Dev) (i : Inst) : Dev :=
  d.onSb (fun s => { s with insts := s.insts.map (fun k => if k.blk = i.blk then i else k) })

/-! ### The trace ring (R201 to R204) -/

def ringLen : Nat := 8192

/-- A record of `kind` written, when it is enabled: over the oldest, or lost in stop mode (R203). `cyc` is the core
cycle of the event, `dep` that of the instance's departure. -/
def trace (blk dep cyc kind info depth eng : Nat) (pre : Bool) (plat item : Nat) (data : Word) (d : Dev) : Dev :=
  let w := d.rd R.SB_TRC_CTRL
  if !(bit w 0 && bit w (15 + kind)) then d
  else if d.sb.nrec = ringLen ∧ bit w 1 then
    let d := d.bump R.SB_TRC_LOST
    d.when (!d.sb.lostEvt) (fun d => (d.onSb (fun s => { s with lostEvt := true })).evt Ev.SB_TRC_FULL)
  else
    let r : TRec := ⟨w32 blk, w32 (kind * 2 ^ 24 + min (cyc - dep) 0xFFFFFF),
      w32 (info * 2 ^ 24 + depth % 8 * 2 ^ 21 + eng * 2 ^ 16 + b2n pre * 2 ^ 15 + plat * 2 ^ 12 + item), data⟩
    d.onSb (fun s => { s with
      trace := Tbl.set s.trace .zero s.wptr r, wptr := (s.wptr + 1) % ringLen,
      wrap := s.wrap || s.nrec == ringLen, nrec := min (s.nrec + 1) ringLen })

/-- A record about item `j` of an instance. -/
def traceItem (i : Inst) (cyc kind info depth eng j : Nat) (data : Word) (d : Dev) : Dev :=
  let x := (d.sb.instGraph i).item j
  trace i.blk i.dep cyc kind info depth eng x.pre x.plat j data d

/-- A record about no item. -/
def traceNone (blk dep cyc kind : Nat) (data : Word) (d : Dev) : Dev :=
  trace blk dep cyc kind 0 0 31 false 0 0xFFF data d

def traceClr (d : Dev) : Dev :=
  (d.wr R.SB_TRC_LOST 0#32).onSb (fun s =>
    { s with trace := [], wptr := 0, nrec := 0, wrap := false, lostEvt := false })

/-! ### Platforms and readiness (R185 to R187, R192) -/

def Sbox.plat (s : Sbox) (p : Nat) : List (Nat × Nat) := Tbl.getD s.plats p []
def Sbox.setPlat (s : Sbox) (p : Nat) (l : List (Nat × Nat)) : Sbox := { s with plats := Tbl.set s.plats [] p l }
def Sbox.onPlats (s : Sbox) : Nat := s.plats.foldl (fun n p => n + p.2.length) 0
def Sbox.unplat (s : Sbox) (b j : Nat) : Sbox :=
  { s with plats := (s.plats.map (fun p => (p.1, p.2.filter (fun e => e != (b, j))))).filter (fun p => p.2 != []) }

/-- Item `j` starts when it is a stage item, else it enters the tail of its platform (R186, R187). -/
def makeReady (b cyc j : Nat) (d : Dev) : Dev :=
  match d.sb.inst b with
  | none => d
  | some i =>
    let x := (d.sb.instGraph i).item j
    if x.isStage then
      traceItem i cyc 0x0D 0 0 31 j 0#32 (d.setInst (i.setRun j { i.run j with st := .running }))
    else
      let d := d.setInst (i.setRun j { i.run j with st := .ready })
      let d := d.onSb (fun s => s.setPlat x.plat (s.plat x.plat ++ [(b, j)]))
      traceItem i cyc 0x02 0 0 31 j 0#32 d

/-- The counter of item `j` has reached 0: ready, or delayed until its release (R186, R192). -/
def reached (b cyc j : Nat) (d : Dev) : Dev :=
  match d.sb.inst b with
  | none => d
  | some i =>
    if (i.run j).rel then d.setInst (i.setRun j { i.run j with st := .delayed }) else makeReady b cyc j d

/-- One decrement (R186): a dropped successor is left alone, a counter already at 0 becomes 0xFFF. -/
def decrement (b : Nat) (d : Dev) (j : Nat) : Dev :=
  match d.sb.inst b with
  | none => d
  | some i =>
    let r := i.run j
    if r.st = .dropped then d
    else if r.cnt = 0 then d.setInst (i.setRun j { r with cnt := 0xFFF, bad := true })
    else d.setInst (i.setRun j { r with cnt := r.cnt - 1 })

/-- Does item `j` of block `b` wait with its counter at 0: has a decrement just brought it there? -/
def Sbox.reachedBy (s : Sbox) (b j : Nat) : Bool :=
  match s.inst b with
  | none => false
  | some i => (i.run j).st == .waiting && (i.run j).cnt == 0

/-- Is item `j` of block `b` delayed with its counter at 0, so that its release makes it ready (R192)? A decrement may have left its counter at 0xFFF
(R186). -/
def Sbox.delayedBy (s : Sbox) (b j : Nat) : Bool :=
  match s.inst b with
  | none => false
  | some i => (i.run j).st == .delayed && (i.run j).cnt == 0

/-- The release entry of item `j` of block `b` has expired. -/
def released (b j : Nat) (d : Dev) : Dev :=
  match d.sb.inst b with
  | none => d
  | some i => d.setInst (i.setRun j { i.run j with rel := false })

/-- Step 2 of core cycle `c` (R194): the next four decrements of each completion, and the release entries that expire; the items that they make
ready or delayed follow in ascending item number (R187, R203). -/
def sbStep (c : Nat) (d : Dev) : Dev :=
  let ds := d.sb.decs.filter (fun e => e.cyc == c)
  let rs := (d.sb.rels.filter (fun e => e.1 == c)).map Prod.snd
  let rest := (ds.filter (fun e => decide (4 < e.js.length))).map (fun e => { e with cyc := c + 1, js := e.js.drop 4 })
  let d := d.onSb (fun s => { s with decs := s.decs.filter (fun e => e.cyc != c) ++ rest, rels := s.rels.filter (fun e => e.1 != c) })
  let d := rs.foldl (fun d e => released e.1 e.2 d) d
  let d := ds.foldl (fun d e => (e.js.take 4).foldl (decrement e.blk) d) d
  let named (b j : Nat) : Bool := rs.contains (b, j) || ds.any (fun e => e.blk == b && (e.js.take 4).contains j)
  let bs := (ds.map Dec.blk ++ rs.map Prod.fst).eraseDups
  let go := (List.range 4096).flatMap (fun j => (bs.filter (fun b => named b j)).map (fun b => (b, j)))
  go.foldl (fun d e =>
    if d.sb.reachedBy e.1 e.2 then reached e.1 c e.2 d
    else d.when (rs.contains e && d.sb.delayedBy e.1 e.2) (makeReady e.1 c e.2)) d

/-- The first core cycle that has a second step to come. -/
def Sbox.nextStep (s : Sbox) : Option Nat :=
  match s.decs.map Dec.cyc ++ s.rels.map Prod.fst with
  | [] => none
  | c :: cs => some (cs.foldl min c)

/-- The second steps of the core cycles that `due` names, in order. -/
def sbRun (due : Nat → Bool) : (fuel : Nat) → Dev → Dev
  | 0, d => d
  | fuel + 1, d => match d.sb.nextStep with
    | none => d
    | some c => if due c then sbRun due fuel (sbStep c d) else d

def Sbox.steps (s : Sbox) : Nat := s.rels.length + s.decs.foldl (fun n e => n + e.js.length + 1) 0

/-- What comes in core cycle `cyc` before a completion: the second steps of earlier cycles; what comes after its second step; and, for a command that
carries no core cycle, every decrement that completions have brought (R194). -/
def sbBefore (cyc : Nat) (d : Dev) : Dev := sbRun (fun c => decide (c < cyc)) d.sb.steps d
def sbUpTo (cyc : Nat) (d : Dev) : Dev := sbRun (fun c => decide (c ≤ cyc)) d.sb.steps d
def sbAll (d : Dev) : Dev := sbRun (fun _ => true) d.sb.steps d

/-- The decrements of a completion in core cycle `cyc`: four successors per core cycle, in list order, from the next one on (R186). -/
def decrements (b cyc : Nat) (js : List Nat) (d : Dev) : Dev :=
  d.when (!js.isEmpty) (fun d => d.onSb (fun s => { s with decs := s.decs ++ [⟨cyc + 1, b, js⟩] }))

/-- A write of SB_TRC_CTRL: its fields, and CLR (R203). -/
def traceCtrl (v : Word) (d : Dev) : Dev :=
  let d := (sbAll d).wr R.SB_TRC_CTRL (v &&& 0xFFFF0003#32)
  d.when (bit v 2) traceClr

/-- A read of SB_TRC_W0 captures the selected record (R204). -/
def traceCapture (m : Agent) (d : Dev) : Dev :=
  let d := sbAll d
  let r := Tbl.getD d.sb.trace (Reg.idx d R.SB_TRC_SEL m % ringLen) .zero
  let d := d.setHold (R.SB_TRC_W.at 1) m r.w1
  let d := d.setHold (R.SB_TRC_W.at 2) m r.w2
  (d.setHold (R.SB_TRC_W.at 3) m r.w3).answer r.w0

/-- An instance whose items have all ended ends (R197, R198, R205); one with a dropped item is excluded. -/
def checkEnd (b cyc : Nat) (d : Dev) : Dev :=
  match d.sb.inst b with
  | none => d
  | some i =>
    if i.ended || !i.runs.all (fun r => r.st.ended) then d
    else
      let excl := i.runs.any (fun r => r.st == .dropped)
      let n := min (cyc - i.dep) 0xFFFFFF
      let d := d.setInst { i with ended := true, audit := !excl }
      let d := (d.setB F.SB_DAUD_STATUS_LAST_EXCL excl).wr R.SB_INST_LAST (w32 n)
      d.peakF ⟨R.SB_INST_PEAK, 0, 24⟩ n

def lastFault (type cause eng item : Nat) (d : Dev) : Dev :=
  d.wr R.SB_LAST_FAULT (w32 (2 ^ 31 + type * 2 ^ 28 + cause * 2 ^ 24 + eng * 2 ^ 16 + item))

/-- The key of an item's latest run. -/
def runKey (slot : Bool) (j : Nat) : Nat := b2n slot * 4096 + j

/-- The completion of Virif item `j` on engine `e` (R186, R191, R195): its record, its CYCLE, an abort's report, an
overrun, then its successors. `cause` is 0 for DONE. -/
def complete (b j e cause cycles cyc : Nat) (d : Dev) : Dev :=
  let d := sbBefore cyc d
  match d.sb.inst b with
  | none => d
  | some i =>
    let x := (d.sb.instGraph i).item j
    let depth := (d.eng e).saved.length
    let beyond := decide (bits x.w6 0 32 ≠ 0) && decide (bits x.w6 0 32 < cycles)
    let r := i.run j
    let d := d.setInst (i.setRun j { r with st := if cause = 0 then .done else .aborted, ovr := r.ovr || beyond })
    let d := d.onSb (fun s => { s with cyc := Tbl.set s.cyc 0 (runKey i.slot j) cycles })
    let d := traceItem i cyc (if cause = 0 then 0x08 else 0x09) cause depth e j (w32 cycles) d
    let d := d.when (decide (cause ≠ 0)) (fun d =>
      lastFault 1 cause e j ((d.bump R.SB_ABORT_CNT).evt Ev.SB_ABORT))
    let d := d.when beyond (fun d =>
      lastFault 3 0 e j (((traceItem i cyc 0x0B 0 depth e j (w32 cycles) d).bump R.SB_OVRUN_CNT).evt Ev.SB_OVERRUN))
    let d := d.when (!i.past) (decrements b cyc ((d.sb.instGraph i).succs x))
    checkEnd b cyc d

/-- A stage item completes (R177, R186): its unit has handed over the block. -/
def stageDone (j cyc : Nat) (d : Dev) : Dev :=
  let d := sbBefore cyc d
  match d.sb.insts.reverse.find? (fun i => ((d.sb.instGraph i).item j).isStage && (i.run j).st == .running) with
  | none => d
  | some i =>
    let x := (d.sb.instGraph i).item j
    let beyond := if x.kind = 1 then (match d.crm.rend with
        | some r => decide (i.blk < r.blk)
        | none => decide (i.blk < d.crm.begun))
      else (match d.cce.blk with
        | some c => decide (i.blk < c) || (decide (i.blk = c) && decide (d.crm.nout ≤ d.cce.done.length))
        | none => true)
    d.when beyond (fun d =>
      let d := d.setInst (i.setRun j { i.run j with st := .done })
      let d := traceItem i cyc 0x0E 0 0 31 j 0#32 d
      let d := d.when (!i.past) (decrements i.blk cyc ((d.sb.instGraph i).succs x))
      checkEnd i.blk cyc d)

/-! ### Dispatch (R188, R189) -/

/-- Idle in the sense of R188: nothing runs, no context is saved, no preemption is pending. -/
def Engine.isIdle (g : Engine) : Bool := !g.run && g.saved.isEmpty && g.next.isNone

/-- The engines of an affinity mask that the variant has. -/
def Dev.engines (d : Dev) (aff : Nat) : List Nat :=
  (List.range d.cap.engines).filter (fun e => (aff >>> e) % 2 == 1)

/-- May the item of platform `p` preempt what runs (R188 test 2)? -/
def Engine.preemptible (g : Engine) (p : Nat) : Bool :=
  g.run && decide (p < g.ctx.run.plat) && g.ctx.run.pre && decide (g.saved.length < 7) && g.next.isNone

/-- The engine for an item, and whether it is to be preempted. -/
def Dev.pickEngine (d : Dev) (x : Desc) : Option (Nat × Bool) :=
  let es := d.engines x.aff
  match es.find? (fun e => (d.eng e).isIdle) with
  | some e => some (e, false)
  | none =>
    let cs := es.filter (fun e => (d.eng e).preemptible x.plat)
    let top := cs.foldl (fun m e => max m (d.eng e).ctx.run.plat) 0
    (cs.find? (fun e => (d.eng e).ctx.run.plat == top)).map (fun e => (e, true))

/-- The READY items in scan order: platforms 0 to 7, head to tail. -/
def Sbox.scan (s : Sbox) : List (Nat × Nat) := (List.range 8).flatMap s.plat

/-- What the engine needs of an item (R170). -/
def Desc.toRun (x : Desc) (b j : Nat) : ERun := ⟨j, x.plat, x.pre, x.w4, x.w5, b, x.w3, x.entry⟩

/-- The item leaves its platform for engine `e`. -/
def dispatchTo (i : Inst) (j e : Nat) (pre : Bool) (cyc : Nat) (d : Dev) : Dev :=
  let x := (d.sb.instGraph i).item j
  let g := d.eng e
  let d := d.setInst (i.setRun j { i.run j with st := .running })
  let d := d.onSb (fun s => { s.unplat i.blk j with eng := Tbl.set s.eng 31 (runKey i.slot j) e })
  let r := x.toRun i.blk j
  let d := (d.setEng e (if pre then { g with next := some r } else { g with ctx := .start r, run := true, wait := .starting })).bump
    R.SB_DISP_CNT
  if pre then
    traceItem i cyc 0x05 0 g.saved.length e j (w32 (2 ^ 31 + g.ctx.run.item)) (d.bump R.SB_PREEMPT_CNT)
  else traceItem i cyc 0x04 0 g.saved.length e j 0#32 d

/-- One dispatch decision: the first READY item, in scan order, that has an engine (R188). -/
def dispatchFrom (cyc : Nat) : List (Nat × Nat) → Dev → Dev
  | [], d => d
  | (b, j) :: rest, d =>
    match d.sb.inst b with
    | none => dispatchFrom cyc rest d
    | some i =>
      if (i.run j).st ≠ .ready then dispatchFrom cyc rest d
      else match d.pickEngine ((d.sb.instGraph i).item j) with
        | none => dispatchFrom cyc rest d
        | some (e, pre) => dispatchTo i j e pre cyc d

def dispatch (cyc : Nat) (d : Dev) : Dev :=
  let d := sbUpTo cyc d
  dispatchFrom cyc d.sb.scan d

/-! ### The timetable (R192, R193) -/

def Inst.ttCount (i : Inst) : Nat :=
  i.runs.foldl (fun n r => n + b2n r.rel + b2n r.dl) 0
def Sbox.ttUse (s : Sbox) : Nat := s.insts.foldl (fun n i => n + i.ttCount) 0

/-- The release entry of item `j` expires in core cycle `cyc`, whose second step takes it (R192, R194). -/
def releaseExpire (j cyc : Nat) (d : Dev) : Dev :=
  let d := sbBefore cyc d
  match d.sb.insts.reverse.find? (fun i => (i.run j).rel && !d.sb.rels.any (fun e => e.2 == (i.blk, j))) with
  | none => d
  | some i => d.onSb (fun s => { s with rels := s.rels ++ [(cyc, i.blk, j)] })

/-- The deadline entry of item `j` expires: a miss unless it is done or aborted (R193). -/
def deadlineExpire (j cyc : Nat) (d : Dev) : Dev :=
  let d := sbUpTo cyc d
  match d.sb.insts.reverse.find? (fun i => (i.run j).dl) with
  | none => d
  | some i =>
    let r := i.run j
    let hit := r.st != .done && r.st != .aborted
    let x := (d.sb.instGraph i).item j
    let e := if r.st = .running ∨ r.st = .saved then Tbl.getD d.sb.eng (runKey i.slot j) 31 else 31
    let d := d.setInst (i.setRun j { r with dl := false, dlmiss := r.dlmiss || hit })
    d.when hit (fun d =>
      let d := traceItem i cyc 0x0A x.deadline (if e = 31 then 0 else (d.eng e).saved.length) e j 0#32 d
      lastFault 2 0 e j ((d.bump R.SB_DLMISS_CNT).evt Ev.SB_DEADLINE))

/-! ### The dependence audit (R198) -/

/-- The audit of the earliest ended instance that awaits it; its counters are left as they are. -/
def daudit (cyc : Nat) (d : Dev) : Dev :=
  let d := sbUpTo cyc d
  match d.sb.insts.reverse.find? (fun i => i.audit) with
  | none => d
  | some i =>
    let badAt := (List.range i.runs.length).filter (fun j => (i.run j).cnt != 0 || (i.run j).bad)
    let n := (i.runs.filter (fun r => r.cnt != 0)).length
    let d := d.setInst { i with audit := false }
    match badAt with
    | [] => d.setB F.SB_DAUD_STATUS_LAST_OK true
    | j :: _ =>
      let d := (d.setB F.SB_DAUD_STATUS_LAST_OK false).bumpF F.SB_DAUD_STATUS_FAIL_COUNT
      let d := d.when (!d.fb F.SB_DAUD_FIRST_VALID) (fun d =>
        d.wr R.SB_DAUD_FIRST (w32 (2 ^ 31 + i.blk % 2 ^ 19 * 2 ^ 12 + j)))
      twFault 3 ((traceNone i.blk i.dep cyc 0x10 (w32 n) d).evt Ev.SB_DAUDIT)

/-! ### Swaps (R183, R184) -/

/-- A write of SB_GSWAP. -/
def gswapReq (v : Word) (d : Dev) : Dev :=
  d.when (bit v 0) (fun d =>
    if !d.sb.nextOk && d.sb.ld.isNone then d.evt Ev.SB_GSWAP_INV
    else
      let timed := bit v 31
      let at' := d.rd64 R.SB_GSWAP_AT_LO R.SB_GSWAP_AT_HI
      let late := timed && decide (at' < d.effBlk) && !d.within at'
      let d := d.when late (fun d => (d.bump R.SB_GSWAP_LATE).evt Ev.SB_GSWAP_LATE)
      d.onSb (fun s => { s with swap := some ⟨timed, if timed then max at' d.effBlk else d.effBlk⟩ }))

/-- A pending swap at departure `b`: not while the loader runs; not into an invalid slot (R183, R184). -/
def gswapAt (b cyc : Nat) (d : Dev) : Dev :=
  match d.sb.swap with
  | none => d
  | some w =>
    if b < w.blk ∨ d.sb.ld.isSome ∨ d.swapHeld .graph 0 then d
    else if !d.sb.nextOk then (d.onSb (fun s => { s with swap := none })).evt Ev.SB_GSWAP_INV
    else
      let d := d.onSb (fun s => { s with swap := none, cur := !s.cur, curOk := true, nextOk := false })
      (traceNone b cyc cyc 0x0F (w32 d.sb.curGraph.items.length) d).evt Ev.SB_GSWAP_DONE

/-! ### Departure (R185, R197) -/

/-- Item `j` left from the instance before: dropped, or, a stage item, started as it stands (R197). -/
def dropItem (b cyc : Nat) (d : Dev) (j : Nat) : Dev :=
  match d.sb.inst b with
  | none => d
  | some i =>
    let r := i.run j
    if r.st = .waiting ∨ r.st = .delayed ∨ r.st = .ready then
      if ((d.sb.instGraph i).item j).isStage then makeReady b cyc j d
      else
        let d := d.setInst (i.setRun j { r with st := .dropped })
        let d := traceItem i cyc 0x0C 0 0 31 j 0#32 (d.onSb (fun s => s.unplat b j))
        d.bump R.SB_DROP_CNT
    else d

/-- The drops at departure of the block after `b` (R197). -/
def dropAll (cyc : Nat) (d : Dev) : Dev :=
  match d.sb.insts with
  | [] => d
  | i :: _ =>
    let left := (List.range i.runs.length).filter (fun j =>
      let r := i.run j
      (r.st == .waiting || r.st == .delayed || r.st == .ready) && !((d.sb.instGraph i).item j).isStage)
    let d := (List.range i.runs.length).foldl (dropItem i.blk cyc) d
    let d := match left with
      | [] => d
      | j :: _ => (lastFault 4 0 31 j d).evt Ev.SB_DROP
    let d := d.onSb (fun s => { s with insts := s.insts.map (fun k => { k with past := true }) })
    checkEnd i.blk cyc d

/-- A new instance: counters from DEPCNT, timetable entries armed (R185). -/
def newInst (g : Graph) (slot : Bool) (b cyc : Nat) : Inst :=
  ⟨b, slot, cyc, g.items.map (fun x => ⟨x.depcnt, .waiting, false, false, false, x.release != 0, x.deadline != 0⟩),
   false, false, false⟩

/-- The signal box at departure `b` (R185). Instances that have ended and been audited are forgotten. -/
def sbDeparture (b cyc : Nat) (d : Dev) : Dev :=
  let d := dropAll cyc (gswapAt b cyc (sbUpTo cyc d))
  let d := d.onSb (fun s => { s with insts := s.insts.filter (fun i => !i.ended || i.audit) })
  if !d.sb.curOk then d
  else
    let g := d.sb.curGraph
    let i := newInst g d.sb.cur b cyc
    let d := d.onSb (fun s => { s with insts := i :: s.insts })
    let d := traceNone b cyc cyc 0x01 (w32 (g.items.length + b2n d.sb.cur * 2 ^ 16)) d
    let js := List.range g.items.length
    let d := js.foldl (fun d j =>
      let x := g.item j
      let d := d.when (decide (x.release ≠ 0)) (traceItem i (cyc + 1) 0x03 x.release 0 31 j 0#32)
      if x.depcnt = 0 then reached b (cyc + 1) j d else d) d
    d.peakF ⟨R.SB_TT_USE, 16, 9⟩ d.sb.ttUse

/-! ### The graph loader (R181, R182) -/

/-- Is an instance of the former graph still running (STATUS.OLD_BUSY)? -/
def Sbox.oldBusy (s : Sbox) : Bool := s.insts.any (fun i => i.slot != s.cur && !i.ended)

/-- A graph load begins (R181). -/
def gldBegin (c : LoadCmd) (d : Dev) : Dev := twLoadOut c (d.onSb (fun s => { s with ld := some s.oldBusy, ldAddr := c.addr }))

/-- A write of SB_GLD_CTRL (R181); on a copy GO waits for the loader (12_twin.md R346). -/
def gldGo (v : Word) (d : Dev) : Dev :=
  d.when (bit v 0) (fun d =>
    let c : LoadCmd := ⟨.graph, d.rd64 R.SB_GLD_ADDR_LO R.SB_GLD_ADDR_HI, 0, 0⟩
    if d.sb.ld.isSome then twLoadWait c d else gldBegin c d)

/-- The load has ended; one that waited on a copy begins. -/
def gldEnd (d : Dev) : Dev := twLoadNext .graph gldBegin (twLoaded .graph (d.onSb (fun s => { s with ld := none })))

def gldStart (d : Dev) : Dev :=
  d.when (decide (d.sb.ld = some true) && !d.sb.oldBusy) (fun d => d.onSb (fun s => { s with ld := some false }))

/-- The descriptor whose first word is word `k` of an image. -/
def rdDesc (w : Nat → Word) (k : Nat) : Desc :=
  ⟨w k, w (k + 1), w (k + 2), w (k + 3), w (k + 4), w (k + 5), w (k + 6), w (k + 7)⟩

/-- Bits of a descriptor that must be 0, or an illegal KIND (R182 cause 3). -/
def Desc.rsvBad (x : Desc) : Bool :=
  decide (x.kind ≥ 3) || bits x.w1 30 2 != 0 || bit x.w1 23 || bits x.w2 25 7 != 0 || x.w7 != 0#32

/-- A stage item's Virif fields must be 0 (R178). -/
def Desc.stageBad (x : Desc) : Bool :=
  x.isStage && (x.entry != 0 || x.aff != 0 || x.plat != 0 || x.pre || x.w3 != 0#32 || x.w4 != 0#32 || x.w5 != 0#32 ||
    x.w6 != 0#32)

def Desc.timeBad (x : Desc) : Bool :=
  decide (x.deadline > 64) || (x.deadline != 0 && decide (x.deadline ≤ x.release))

/-- A successor list that R182 cause 7 rejects for item `j` of `n`. -/
def succBad (g : Graph) (n j : Nat) (x : Desc) : Bool :=
  let l := g.succs x
  decide (x.succLen > 256) || (x.succLen != 0 && decide (g.succ.length < x.succIdx + x.succLen)) ||
    l.any (fun k => decide (n ≤ k)) || l.contains j || decide (l.eraseDups.length ≠ l.length)

/-- The items reached from a set in at most `fuel` steps. -/
def reachFrom (g : Graph) : (fuel : Nat) → (front seen : List Nat) → List Nat
  | 0, _, seen => seen
  | fuel + 1, front, seen =>
    let new := ((front.flatMap (fun j => g.succs (g.item j))).eraseDups).filter (fun j => !seen.contains j)
    if new.isEmpty then seen else reachFrom g fuel new (seen ++ new)

/-- Items left after `fuel` rounds of taking away those that no remaining item names. -/
def kahn (g : Graph) : (fuel : Nat) → List Nat → List Nat
  | 0, js => js
  | fuel + 1, js =>
    let named := js.flatMap (fun j => g.succs (g.item j))
    let rest := js.filter (fun j => named.contains j)
    if rest.length = js.length then js else kahn g fuel rest

/-- The first number of a list, or 0. -/
def firstOr0 (l : List Nat) : Nat := l.headD 0

/-- The queue bindings of a descriptor: direction and queue. -/
def Desc.binds (x : Desc) : List (Bool × Nat) :=
  ((List.range 4).filter (fun k => bit x.w3 (8 * k + 7))).map (fun k => (bit x.w3 (8 * k + 6), bits x.w3 (8 * k) 6))

/-- The checks of R182 on a fetched graph, from cause 3 on: the cause and the item, or none. `rsv0` says that word 0 or
1 breaks the reserved-bit rule, `rsvS` that a successor word does. -/
def graphFault (engines : Nat) (queues : Nat → Bool) (rsv0 rsvS : Bool) (g : Graph) : Option (Nat × Nat) :=
  let n := g.items.length
  let js := List.range n
  let bad (p : Nat → Desc → Bool) : List Nat := js.filter (fun j => p j (g.item j))
  let of' (k : Nat) := js.filter (fun j => (g.item j).kind == k)
  let lowest (a b : List Nat) : Nat := match a, b with
    | [], [] => 0
    | x :: _, [] => x
    | [], y :: _ => y
    | x :: _, y :: _ => min x y
  let rsv := bad (fun _ x => x.rsvBad)
  let stg := bad (fun _ x => x.stageBad)
  let dup := ((of' 1).drop 1).take 1 ++ ((of' 2).drop 1).take 1
  let dupLow := match dup with
    | [] => []
    | _ => [dup.foldl min n]
  let aff := bad (fun _ x => x.kind == 0 && (x.aff % 2 ^ engines == 0))
  let tim := bad (fun _ x => x.timeBad)
  let suc := bad (fun j x => succBad g n j x)
  let named := js.flatMap (fun j => g.succs (g.item j))
  let cnt := bad (fun j x => decide (named.count j ≠ x.depcnt))
  let left := kahn g n js
  let tt := js.foldl (fun (acc : Nat × Option Nat) j =>
    let k := acc.1 + b2n ((g.item j).release != 0) + b2n ((g.item j).deadline != 0)
    (k, if acc.2.isNone && decide (k > 256) then some j else acc.2)) (0, none)
  let unmade := bad (fun _ x => x.binds.any (fun b => !queues b.2))
  let twice := bad (fun j x => x.binds.any (fun b => (List.range j).any (fun k => (g.item k).binds.contains b)))
  if rsv0 then some (3, 0)
  else if rsv != [] then some (3, firstOr0 rsv)
  else if rsvS then some (3, 0)
  else if (of' 1).length ≠ 1 ∨ (of' 2).length ≠ 1 ∨ stg != [] then some (4, lowest stg dupLow)
  else if aff != [] then some (5, firstOr0 aff)
  else if tim != [] then some (6, firstOr0 tim)
  else if suc != [] then some (7, firstOr0 suc)
  else if cnt != [] then some (8, firstOr0 cnt)
  else if left != [] then
    some (9, firstOr0 (left.filter (fun j => (reachFrom g n [j] []).contains j)))
  else match tt.2 with
    | some j => some (10, j)
    | none => if unmade != [] ∨ twice != [] then some (11, lowest unmade twice) else none

/-- The words of a graph image (R179). -/
def graphWords (w0 w1 : Word) : Nat := 2 + 8 * bits w0 0 13 + (bits w1 0 17 + 1) / 2

/-- A graph image of words `w` (R179, R181, R182): the cause and item of its rejection, or the graph. `bad` names the words whose
fetch fails. -/
def graphOf (w : Nat → Word) (bad : Nat → Bool) (engines : Nat) (queues : Nat → Bool) : Sum (Nat × Nat) Graph :=
  if bad 0 || bad 1 then .inl (1, 0)
  else
    let w0 := w 0
    let w1 := w 1
    let n := bits w0 0 13
    let s := bits w1 0 17
    if n = 0 ∨ n > 4096 ∨ s > 65536 then .inl (2, 0)
    else
      let sw := (s + 1) / 2
      if (List.range (graphWords w0 w1)).any bad then .inl (1, 0)
      else
        let ws := (List.range sw).map (fun k => w (2 + 8 * n + k))
        let ents := (ws.flatMap (fun w => [bits w 0 16, bits w 16 16]))
        let g : Graph := ⟨(List.range n).map (fun j => rdDesc w (2 + 8 * j)), (ents.take s).map (· % 4096)⟩
        let rsvS := (ents.take s).any (fun e => decide (e ≥ 4096)) || (ents.drop s).any (fun e => decide (e ≠ 0))
        match graphFault engines queues (decide (bits w0 13 19 ≠ 0) || decide (bits w1 17 15 ≠ 0)) rsvS g with
        | some f => .inl f
        | none => .inr g

/-- A graph image at `a`; `okAt` says at which addresses a fetch succeeds. -/
def loadGraph (mem : Memory) (okAt : Nat → Bool) (a engines : Nat) (queues : Nat → Bool) : Sum (Nat × Nat) Graph :=
  graphOf (fun k => Memory.rd32 mem (a + 4 * k)) (fun k => !okAt (a + 4 * k)) engines queues

def gldResult (cause item : Nat) (d : Dev) : Dev :=
  (d.setF F.SB_GLD_CTRL_CAUSE cause).setF F.SB_GLD_CTRL_ITEM item

/-- The bytes that the loader fetches of the graph image at `a`: its header, and what a header within the limits tells (R181). -/
def gldBytes (mem : Memory) (a : Nat) : Nat :=
  let w0 := Memory.rd32 mem a
  let w1 := Memory.rd32 mem (a + 4)
  if bits w0 0 13 = 0 ∨ bits w0 0 13 > 4096 ∨ bits w1 0 17 > 65536 then 8 else 4 * graphWords w0 w1

/-- The source data of the load: on a copy the header and then the whole image wait for their BULK frames (12_twin.md R346). -/
def Dev.gldWaits (d : Dev) : Bool :=
  let a := d.sb.ldAddr
  d.loadWaits .graph 8 || d.loadWaits .graph (gldBytes (d.loadSrc .graph a 8 []) a)

/-- The loader finishes (R181); `ecc` lists what its fetches find (13_memory.md R368). It waits while a target it fetches from is locked (13_memory.md
R377). -/
def gldDone (mem : Memory) (ecc : List EccHit) (d : Dev) : Dev :=
  let a := d.sb.ldAddr
  let mem := d.seen mem
  let n := gldBytes (d.loadSrc .graph a 8 mem) a
  let own := !d.bulkHas .graph n
  d.when (decide (d.sb.ld = some false) && !d.gldWaits && (!own || d.reach 7 a n)) (fun d =>
    let mem := d.loadSrc .graph a n mem
    let okAt (x : Nat) : Bool := d.loadGets .graph a n x (d.canFetch x && !d.loses ecc x)
    let fetched := if okAt a && okAt (a + 4) then n else 8
    let words := (List.range (fetched / 4)).map (fun k => a + 4 * k)
    let got := 4 * (words.takeWhile okAt).length
    let d := bulkUsed .graph n (twBulk ⟨.graph, a, 0, 0⟩ mem a got (decide (got < fetched)) d)
    let d := d.when own (fun d => match words.find? (fun x => !d.canFetch x) with
      | some x => fetchMiss x d
      | none => (unitRead 7 a fetched ecc d).2)
    match loadGraph mem okAt a d.cap.engines (fun q => (Tbl.get? d.vf.gslot q).isSome) with
    | .inl (c, j) => gldEnd ((gldResult c j (d.onSb (fun s => { s with nextOk := false }))).evt Ev.SB_GLD_ERR)
    | .inr g =>
      let d := d.onSb (fun s =>
        let t := s.setGraph (!s.cur) g
        { t with nextOk := true, cyc := Tbl.drop s.cyc (fun k => k / 4096 == b2n (!s.cur)),
                 eng := Tbl.drop s.eng (fun k => k / 4096 == b2n (!s.cur)) })
      gldEnd ((gldResult 0 0 d).evt Ev.SB_GLD_DONE))

/-! ### Registers (R205) -/

def sbCounters : List Reg :=
  [R.SB_DISP_CNT, R.SB_PREEMPT_CNT, R.SB_DLMISS_CNT, R.SB_ABORT_CNT, R.SB_DROP_CNT, R.SB_OVRUN_CNT, R.SB_GSWAP_LATE,
   R.SB_TRC_LOST, R.SB_INST_PEAK, R.SB_DAUD_FIRST, R.SB_LAST_FAULT]

def sbCntClr (v : Word) (d : Dev) : Dev :=
  d.when (bit v 0) (fun d => (d.clear sbCounters).setF F.SB_DAUD_STATUS_FAIL_COUNT 0)

def sbStatus (s : Sbox) : Word :=
  w32 (s.onPlats * 2 ^ 8 + b2n s.cur * 32 + b2n s.oldBusy * 16 + b2n s.swap.isSome * 8 + b2n s.ld.isSome * 4 +
    b2n s.nextOk * 2 + b2n s.curOk)

def sbEngines (d : Dev) : Word :=
  w32 (d.vf.eng.foldl (fun n p => n + (if p.2.run then 2 ^ p.1 else 0) + (if p.2.saved.isEmpty then 0 else 2 ^ (16 + p.1))) 0)

/-- ITEM_STATE of item `j` of the current slot. -/
def itemState (s : Sbox) (j : Nat) : Word :=
  let eng := Tbl.getD s.eng (runKey s.cur j) 31
  match s.insts with
  | [] => w32 (eng * 16)
  | i :: _ =>
    let r := i.run j
    w32 (b2n r.dlmiss * 2 ^ 31 + b2n r.ovr * 2 ^ 30 + r.cnt * 2 ^ 16 + eng * 16 + r.st.code)

def Desc.word (x : Desc) (k : Nat) : Word :=
  match k with
  | 0 => x.w0
  | 1 => x.w1
  | 2 => x.w2
  | 3 => x.w3
  | 4 => x.w4
  | 5 => x.w5
  | 6 => x.w6
  | _ => x.w7

/-- Registers whose value the signal box computes at the read. -/
def sbRead (m : Agent) (off : Nat) (d : Dev) : Option Word :=
  let d := sbAll d
  let s := d.sb
  let j := Reg.idx d R.ITEM_SEL m
  let has := decide (j < s.curGraph.items.length)
  if off = 0x00C then some (sbStatus s)
  else if off = 0x010 then some (w32 ((if s.curOk then s.curGraph.items.length else 0) +
    (if s.nextOk then (s.graph (!s.cur)).items.length else 0) * 2 ^ 16))
  else if off = 0x028 then some (w32 (b2n s.ld.isSome * 2 ^ 31 + d.f F.SB_GLD_CTRL_CAUSE * 2 ^ 24 +
    d.f F.SB_GLD_CTRL_ITEM * 2 ^ 12))
  else if off = 0x02C then some (sbEngines d)
  else if off = 0x030 then some (w32 (bits (d.rd R.SB_TT_USE) 16 9 * 2 ^ 16 + s.ttUse))
  else if off = 0x06C then some (w32 (b2n s.wrap * 2 ^ 31 + s.wptr))
  else if 0x07C ≤ off && off ≤ 0x084 then some (d.hold ⟨2, off, 0, 0, 0, 0⟩ m)
  else if 0x100 ≤ off && off ≤ 0x11C then some (if has then (s.curGraph.item j).word ((off - 0x100) / 4) else 0#32)
  else if off = 0x120 then some (if has then w32 (Tbl.getD s.cyc (runKey s.cur j) 0) else 0#32)
  else if off = 0x124 then some (if has then itemState s j else 0#32)
  else none

/-- Registers whose write is more than its masks. -/
def sbWrite (off : Nat) (v : Word) (d : Dev) : Option Dev :=
  if off = 0x014 then some (gswapReq v d)
  else if off = 0x020 || off = 0x024 then (if d.sb.ld.isSome then some d else none)
  else if off = 0x028 then some (gldGo v d)
  else if off = 0x064 then some (sbCntClr v d)
  else if off = 0x068 then some (traceCtrl v d)
  else none

/-! ### Meanings -/

def execDispatch (cyc : Nat) (s : State) : Out := ok s (dispatch cyc)
def execStageDone (item cyc : Nat) (s : State) : Out := ok s (stageDone item cyc)
def execReleaseExpire (item cyc : Nat) (s : State) : Out := ok s (releaseExpire item cyc)
def execDeadlineExpire (item cyc : Nat) (s : State) : Out := ok s (deadlineExpire item cyc)
def execDaudit (cyc : Nat) (s : State) : Out := ok s (daudit cyc)
def execGldGo (m : Agent) (v : Word) (s : State) : Out := okRs m R.SB_GLD_CTRL v s (gldGo v)
def execGldStartAfterOld (s : State) : Out := ok s gldStart
def execGldDone (ecc : List EccHit) (s : State) : Out := ok s (gldDone s.mem ecc)
def execSbGswap (m : Agent) (v : Word) (s : State) : Out := okRs m R.SB_GSWAP v s (gswapReq v)
def execTraceClr (m : Agent) (v : Word) (s : State) : Out := okRs m R.SB_TRC_CTRL v s (traceCtrl v)
def execTraceCaptureRead (m : Agent) (s : State) : Out := okBy m R.SB_TRC_W.addr 0#32 s (traceCapture m) false
def execSbCntClr (m : Agent) (v : Word) (s : State) : Out := okBy m R.SB_CNT_CLR.addr v s (sbCntClr v)

end Sys2Proof.Machine
end

