-- ==== Sys2Proof/Machine/Crm.lean ====
section
/-!
DEFINITION. The crosspoint's commands (03_crosspoint.md): node writes, copies and swaps, rendering a group of four
feeds, the bulk loader, and the CRM's part of a departure and a resume.
Marks (notes/assumptions): DEDUCED 28, 39, 92, 93, 96; DESIGN CHOICE 106.
-/
namespace Sys2Proof.Machine


/-- Is input `i` solver-owned (R62, R77)? -/
def Dev.solverOwned (d : Dev) (i : Nat) : Bool := d.gsv.layout.objs.contains i

/-- The bank an input follows: true = B (R82). -/
def Dev.bankOf (d : Dev) (i : Nat) : Bool := if d.solverOwned i then false else d.crm.live

def Node.gainOf (n : Node) (b : Bool) : Nat := if b then n.bGain else n.aGain
def Node.dlyOf (n : Node) (b : Bool) : Nat := if b then n.bDly else n.aDly

/-! ### Node writes (R62, R81, R83, R101) -/

/-- The two words of a record hold valid check bits again. -/
def nodeHeal (i o : Nat) (d : Dev) : Dev := storeHeal 1 (2 * nodeKey i o + 1) (storeHeal 1 (2 * nodeKey i o) d)

/-- An uncorrectable error found in a record: it is rewritten silent, with valid check bits and ECCX set (R101). -/
def nodeEcc (i o : Nat) (d : Dev) : Dev :=
  let d := nodeHeal i o (d.onCrm (fun c => c.setNode i o { Node.zero with eccx := true }))
  let d := d.wr R.CRM_ECC_NODE (w32 (2 ^ 31 + o * 2 ^ 16 + i))
  twFault 1 ((d.bump R.CRM_ECC_CNT).evt Ev.CRM_NODE_ECC)

/-- Does an error lie in the record of node `(i, o)`? -/
def EccHit.inNode (e : EccHit) (i o : Nat) : Bool := e.addr / 16 == 0x3000000 + nodeKey i o

/-- What a read of node `(i, o)` through the CRM's port finds (R101; 13_memory.md R368): single-bit errors are corrected and counted, a
double-bit error silences the record. -/
def nodeRead (ecc : List EccHit) (i o : Nat) (d : Dev) : Dev :=
  (ecc.filter (fun e => e.inNode i o)).foldl (fun d e =>
    if e.double then nodeEcc i o (ueCount 1 ((e.addr - 0x30000000) / 8) privPort d) else storeCe 1 d) d

/-- Does the read find a double-bit error? -/
def nodeLost (ecc : List EccHit) (i o : Nat) : Bool := ecc.any (fun e => e.inNode i o && e.double)

/-- A target gain with bit 23 set is stored as 0x7F_FFFF and counted (R81). -/
def gainLimited (gain : Nat) : Bool := (gain >>> 23) % 2 == 1

/-- A gain and a delay stored in bank `b` of node `(i, o)`. -/
def nodePut (b : Bool) (i o gain dly : Nat) (d : Dev) : Dev :=
  let n := d.crm.node i o
  let lim := gainLimited gain
  let g := if lim then 0x7FFFFF else gain
  d.onCrm (fun c => c.setNode i o (if b then { n with bGain := g, bDly := dly, lim := lim, wrB := n.eccx }
    else { n with aGain := g, aDly := dly, lim := lim, wrA := n.eccx }))

/-- A limited gain is counted as its write completes (R81). -/
def limCount (gain : Nat) (d : Dev) : Dev :=
  d.when (gainLimited gain) (fun d => (d.bump R.CRM_GAINLIM_CNT).evt Ev.CRM_GAIN_LIM)

/-- Does a departed block that has not begun bring a flip or a copy? -/
def CrmDep.stirs (p : CrmDep) : Bool := p.flip.isSome || p.copy

/-- The bank live once the departed blocks have begun, and the first block after the ramp of the swap that then runs. -/
def Crm.next (c : Crm) : Bool × Option Nat :=
  c.wait.foldl (fun a p => match p.flip with
    | some q => (q.bank, some (p.blk + q.ramp))
    | none => a) (c.live, c.run.map Prod.snd)

/-- A window or loader write to node `(i, o)`: to the inactive bank of a host-owned node (R83); ignored on a
solver-owned one (R62). The write that finds an uncorrectable error is discarded with the record (R101). It is stored as it completes; while a
departed block that has not begun (01_architecture.md R31) brings a flip or a copy, it lands on top of what the block brings (R83, R85;
DEDUCED, log 28). -/
def nodeWrite (i o gain dly : Nat) (ecc : List EccHit) (d : Dev) : Dev :=
  if d.solverOwned i then d.evt Ev.GSV_NODE_WR_IGN
  else
    let d := nodeRead ecc i o d
    if nodeLost ecc i o then d
    else
      let d := limCount gain d
      match d.crm.wait.reverse.find? CrmDep.stirs with
      | none => nodePut (!d.crm.live) i o gain dly d
      | some p => d.onCrm (fun c => { c with
          wait := c.wait.map (fun q => if q.blk = p.blk then { q with posts := q.posts ++ [(i, o, gain, dly)] } else q) })

def Dev.inSel (d : Dev) (m : Agent) : Nat := Reg.idx d R.CRM_ISEL m
def Dev.outSel (d : Dev) (m : Agent) : Nat := Reg.idx d R.CRM_OSEL m

/-- Does the node a master selects exist (R76)? -/
def Dev.nodeSel (d : Dev) (m : Agent) : Bool := decide (d.inSel m < d.crm.nin) && decide (d.outSel m < d.crm.nout)

/-- The steps of the select registers on an access to NODE_WR (R106). -/
def crmStep (m : Agent) (d : Dev) : Dev :=
  let oa := Reg.ainc d R.CRM_OSEL m
  let ia := Reg.ainc d R.CRM_ISEL m
  let wraps := decide (d.outSel m + 1 ≥ d.crm.nout)
  let d1 := d.when oa (fun d => d.stepSel R.CRM_OSEL m d.crm.nout)
  d1.when (ia && (!oa || wraps)) (fun d => d.stepSel R.CRM_ISEL m d.crm.nin)

/-- A write of NODE_WR: the gain and the master's staged delay (R107). -/
def nodeWrPost (m : Agent) (v : Word) (ecc : List EccHit) (d : Dev) : Dev :=
  let d1 := d.when (d.nodeSel m)
    (nodeWrite (d.inSel m) (d.outSel m) (bits v 0 24) (bits (d.rd (R.NODE_WDLY.of m.num)) 0 11) ecc)
  crmStep m d1

/-! ### The record capture (R106) -/

/-- NODE_LIVE_DLY (R107). -/
def Node.liveWord (n : Node) : Word :=
  w32 (n.liveDly + (b2n n.stRamp + 2 * b2n n.stXf + 4 * b2n n.lim + 8 * b2n n.eccx + 16 * b2n n.nz) * 2 ^ 11)

/-- A read of NODE_A_GAIN captures the record for the master; zeros where the node does not exist (R511). -/
def nodeCapture (m : Agent) (d : Dev) : Dev :=
  let n := if d.nodeSel m then d.crm.node (d.inSel m) (d.outSel m) else .zero
  let d := d.setHold R.NODE_A_DLY m (w32 n.aDly)
  let d := d.setHold R.NODE_B_GAIN m (w32 n.bGain)
  let d := d.setHold R.NODE_B_DLY m (w32 n.bDly)
  let d := d.setHold R.NODE_LIVE_GAIN m (w32 n.liveGain)
  let d := d.setHold R.NODE_LIVE_DLY m n.liveWord
  d.answer (w32 n.aGain)

/-! ### Copy, swap and their queue (R85, R94 to R97) -/

/-- A COPY is pending until it is complete (R85). A second request before the first takes effect merges with it. -/
def copyReq (d : Dev) : Dev :=
  d.onCrm (fun c => { c with copyAt := if c.copyAt.isSome then c.copyAt else some d.effBlk })

/-- A write of CRM_CTRL: COPY, QCLR and NZ_CLR. -/
def crmCtrlWrite (v : Word) (d : Dev) : Dev :=
  let d := d.when (bit v 0) copyReq
  let d := d.when (bit v 1) (fun d => d.onCrm (fun c => { c with queued := none }))
  d.when (bit v 2) (fun d => d.onCrm (fun c => { c with nzAt := some d.effBlk }))

/-- The copy has passed the last node (R85). -/
def copyDone (d : Dev) : Dev :=
  d.when d.crm.copyRun (fun d => (d.onCrm (fun c => { c with copyRun := false })).evt Ev.CRM_COPY_DONE)

/-- Ramp times run from 1 to 256 blocks (R86). -/
def rampOf (n : Nat) : Nat := max 1 (min n 256)

/-- A swap request (R94 to R96); a block that fell within the running Halt is not late (R99). -/
def crmSwapReq (v : Word) (d : Dev) : Dev :=
  let bank := bit v 0
  let timed := bit v 31
  let at' := d.rd64 R.CRM_SWAP_AT_LO R.CRM_SWAP_AT_HI
  if bank = d.crm.next.1 then d.bump R.CRM_SWAP_NOP_CNT
  else
    let req : SwapReq := ⟨bank, rampOf (bits v 1 9), timed, if timed then max at' d.effBlk else d.effBlk,
      timed && decide (at' < d.effBlk) && !d.within at'⟩
    let d := d.when d.crm.queued.isSome (fun d => (d.bump R.CRM_SWAP_REPL_CNT).evt Ev.CRM_SWAP_REPL)
    d.onCrm (fun c => { c with queued := some req })

/-- The inputs that the host owns. -/
def Dev.hostInputs (d : Dev) : List Nat := (List.range d.crm.nin).filter (fun i => !d.solverOwned i)

/-- ECCX of a host-owned node clears at the flip to a bank written since the error; the delay is taken without a
crossfade (R101). -/
def Node.flipClear (n : Node) (b : Bool) : Node :=
  if n.eccx && (if b then n.wrB else n.wrA) then { n with eccx := false, wrA := false, wrB := false, liveDly := n.dlyOf b }
  else n

/-- The queued swap at departure `b` (R95, R97): it flips on block `b`, waits, or is a no-op. -/
def crmQueued (b : Nat) (d : Dev) : Option SwapReq × Dev :=
  match d.crm.queued with
  | none => (none, d)
  | some q =>
    let now := d.crm.next
    let busy := match now.2 with
      | some e => decide (b < e)
      | none => false
    if busy || decide (b < q.blk) || d.crm.ldRun || d.swapHeld .node 0 then (none, d)
    else
      let d := d.onCrm (fun c => { c with queued := none })
      if q.bank = now.1 then (none, d.bump R.CRM_SWAP_NOP_CNT) else (some q, d)

/-- A swap flips on block `b` (R86, R94, R96). CRM_SWAP_END keeps the ramp end of the latest swap when none runs (DESIGN CHOICE, log 93: R107
names the running swap's only). -/
def crmFlip (b : Nat) (q : SwapReq) (d : Dev) : Dev :=
  let host := d.hostInputs
  let owned := d.gsv.layout.objs
  let d := d.onCrm (fun c => { c with
    live := q.bank, run := some (q.bank, b + q.ramp),
    ramp := host.foldl (fun t i => Tbl.set t 0 i (b + q.ramp)) c.ramp,
    nodes := c.nodes.map (fun e => if owned.contains (e.1 % 1024) then e else (e.1, e.2.flipClear q.bank)) })
  let d := d.when q.late (fun d => (d.bump R.CRM_SWAP_LATE_CNT).evt Ev.CRM_SWAP_LATE)
  d.wr R.CRM_SWAP_END (w32 (b + q.ramp - 1))

/-- The copy: the inactive bank of every host-owned node becomes equal to the live bank (R85); from then on it runs until COPY_DONE. -/
def crmCopyAt (d : Dev) : Dev :=
  let owned := d.gsv.layout.objs
  let live := d.crm.live
  d.onCrm (fun c => { c with copyRun := true, nodes := c.nodes.map (fun e =>
    if owned.contains (e.1 % 1024) then e
    else if live then (e.1, { e.2 with aGain := e.2.bGain, aDly := e.2.bDly })
    else (e.1, { e.2 with bGain := e.2.aGain, bDly := e.2.aDly })) })

/-- NZ_CLR (R107). -/
def crmNzAt (d : Dev) : Dev :=
  d.onCrm (fun c => { c with nodes := c.nodes.map (fun e => (e.1, { e.2 with nz := false })) })

/-- One solver target placed in bank A (R84, R86, R101). `ecc` lists what the write's read of the store finds. -/
def placeTarget (ecc : List EccHit) (b : Nat) (d : Dev) (w : NodeTgt) : Dev :=
  let d := nodeRead ecc w.input w.feed d
  if nodeLost ecc w.input w.feed then d
  else
    let n := d.crm.node w.input w.feed
    let lim := gainLimited w.tgt.gain
    let n := { n with aGain := if lim then 0x7FFFFF else w.tgt.gain, aDly := w.tgt.dly, lim := lim, eccx := false,
                      wrA := false, wrB := false, liveDly := if n.eccx then w.tgt.dly else n.liveDly }
    let d := d.onCrm (fun c =>
      { c.setNode w.input w.feed n with ramp := Tbl.set c.ramp 0 w.input (b + rampOf w.ramp) })
    d.when lim (fun d => (d.bump R.CRM_GAINLIM_CNT).evt Ev.CRM_GAIN_LIM)

/-- A node as its block begins, every target in place (R90): one that the block before left dormant takes its target delay at once. -/
def Node.begins (bank : Bool) (n : Node) : Node :=
  { n with liveDly := if !n.loud && n.liveGain == 0 then n.dlyOf bank else n.liveDly, loud := n.aGain != 0 || n.bGain != 0 }

/-- The CRM begins a departed block: the flip first, then the copy (R85), the solver's targets (R84), dormant nodes' delays (R90), and the
node writes that came after the departure. -/
def crmBegin (p : CrmDep) (d : Dev) : Dev :=
  let d := match p.flip with
    | some q => crmFlip p.blk q d
    | none => d
  let d := (d.when p.copy crmCopyAt).when p.nz crmNzAt
  let d := p.writes.foldl (placeTarget p.ecc p.blk) d
  let banks := d.bankOf
  let d := d.onCrm (fun c => { c with nodes := c.nodes.map (fun e => (e.1, e.2.begins (banks (e.1 % 1024)))) })
  let d := p.posts.foldl (fun d e => nodePut (!d.crm.live) e.1 e.2.1 e.2.2.1 e.2.2.2 d) d
  d.onCrm (fun c => { c with rend := some ⟨p.blk, 0, 0, 0, 64⟩, begun := p.blk + 1 })

/-- The oldest departed block that waits begins (01_architecture.md R31). -/
def crmNext (d : Dev) : Dev :=
  match d.crm.wait with
  | [] => d
  | p :: rest => crmBegin p (d.onCrm (fun c => { c with wait := rest }))

/-! ### Rendering (R78, R87 to R93, R103) -/

/-- The gain on sample `j` (R87): `k` blocks of the ramp remain, `0` when it is not running. -/
def rampGain (gs gt k j : Nat) : Nat :=
  if k = 0 then gt else ((gs : Int) + ((gt : Int) - gs) * (j + 1) / (32 * k : Nat)).toNat

/-- Sample of an input's delay line, `back` samples before the newest; one that later departures have pushed out of its 2080 samples, before a
late block begins, reads as 0 (DESIGN CHOICE, log 28: R78 names no samples further back). -/
def lineAt (l : List Word) (back : Nat) : Int := wInt ((l[back]?).getD 0#32)

/-- What one node gives to sample `j` of its feed, as an exact Q5.51 value (R89, R91). `base` is how far the block
lies behind the delay line's newest block. -/
def nodeSample (l : List Word) (base : Nat) (n : Node) (bank : Bool) (k j : Nat) : Int :=
  let g := rampGain n.liveGain (n.gainOf bank) k j
  let at' (dly : Nat) : Int := lineAt l (base + (31 - j) + dly)
  if n.liveDly ≠ n.dlyOf bank && !n.dormant then
    let old := g * (31 - j) / 32
    (old : Int) * at' n.liveDly + ((g : Int) - old) * at' (n.dlyOf bank)
  else (g : Int) * at' (n.dlyOf bank)

/-- The record after the block (R87, R89, R90, R79). -/
def Node.after (n : Node) (bank : Bool) (k : Nat) : Node :=
  if n.eccx then { n with stRamp := false, stXf := false }
  else
    let g := rampGain n.liveGain (n.gainOf bank) k 31
    { n with
      liveGain := g, liveDly := n.dlyOf bank,
      stRamp := (List.range 32).any (fun j => rampGain n.liveGain (n.gainOf bank) k j != n.liveGain),
      stXf := decide (n.liveDly ≠ n.dlyOf bank) && !n.dormant,
      nz := n.nz || g != 0 }

/-- Blocks of an input's ramp from `c` to its ramp end (R87). -/
def Dev.rampLeft (d : Dev) (i c : Nat) : Nat := d.crm.rampEnd i - c

/-- The nodes of feed `o` that the store lists, by input. -/
def Dev.feedNodes (d : Dev) (o : Nat) : List (Nat × Node) :=
  (d.crm.nodes.filter (fun e => e.1 / 1024 == o && decide (e.1 % 1024 < d.crm.nin))).map (fun e => (e.1 % 1024, e.2))

/-- Does the node render in this block? -/
def Node.active (n : Node) : Bool := !n.dormant && !n.eccx

/-- The 32 samples of feed `o` before narrowing (R78, R91). -/
def feedAcc (d : Dev) (o c : Nat) (j : Nat) : Int :=
  let base := 32 * (d.crm.lineBlk - c)
  ((d.feedNodes o).filter (fun e => e.2.active)).foldl (fun a e =>
    a + nodeSample (Tbl.getD d.crm.lines e.1 []) base e.2 (d.bankOf e.1) (d.rampLeft e.1 c) j) 0

/-- The magnitude of a sample as the peak registers report it (R92). -/
def magOf (v : Int) : Nat := min v.natAbs (2 ^ 31 - 1)

/-- One feed rendered: samples, clips and peak (R91, R92), the record of every node, the feed buffer. -/
def renderFeed (c : Nat) (d : Dev) (o : Nat) : Dev :=
  let acc := (List.range 32).map (fun j => narrow (feedAcc d o c j) 20)
  let ys := acc.map (sat 32)
  let clips := (acc.filter (fun v => !fits 32 v)).length
  let nodes := d.feedNodes o
  let d1 := nodes.foldl (fun d' e =>
    d'.onCrm (fun cr => cr.setNode e.1 o (e.2.after (d.bankOf e.1) (d.rampLeft e.1 c)))) d
  let d2 := d1.when (decide (clips > 0)) (fun d =>
    ((d.setBit (R.CRM_CLIP.at (o / 32)) (o % 32)).bumpBy (R.FEED_CLIPCNT.of o) clips).evt Ev.CRM_CLIP)
  let d3 := d2.peakF ⟨R.FEED_PEAK.of o, 0, 31⟩ ((ys.map magOf).foldl max 0)
  d3.onCrm (fun cr => { cr with fbuf := Tbl.put cr.fbuf o (Tbl.getD cr.fbuf o [] ++ [(c, ys.map wOfInt)]) })

/-- The cost of an input in a group (R103). -/
def groupCost (d : Dev) (os : List Nat) (i : Nat) : Nat :=
  let ns := os.map (fun o => d.crm.node i o)
  if ns.all Node.dormant then 0
  else if ns.any (fun n => !n.dormant && decide (n.liveDly ≠ n.dlyOf (d.bankOf i))) then 2 else 1

/-- The feeds of group `g`. -/
def groupFeeds (d : Dev) (g : Nat) : List Nat := (List.range 4).map (· + 4 * g) |>.filter (· < d.crm.nout)

/-- The end of a block: reports, the hand-over of the last group, a swap's end (R94, R103), the next block. -/
def crmBlockEnd (r : Rend) (d : Dev) : Dev :=
  let d := d.wr R.CRM_ACT_LAST (w32 r.act)
  let d := d.wr R.CRM_XF_LAST (w32 r.xf)
  let d := d.wr R.CRM_CYC_LAST (w32 r.cyc)
  let d := d.peakF ⟨R.CRM_CYC_PEAK, 0, 20⟩ r.cyc
  let d := d.onQ (fun q => q.fill 296)
  let done := match d.crm.run with
    | some (_, e) => decide (e ≤ r.blk + 1)
    | none => false
  let d := d.when done (fun d =>
    ((d.onCrm (fun c => { c with run := none })).bump R.CRM_SWAP_CNT).evt Ev.CRM_SWAP_DONE)
  crmNext (d.onCrm (fun c => { c with rend := none }))

/-- May the next group be handed over: a block is being rendered, and its first group needs the CRM stage of its
instance started and a ticket of QID 296 (R37, R103; 06_signal_box.md R177)? -/
def canRender (d : Dev) : Bool :=
  match d.crm.rend with
  | none => false
  | some r => decide (r.grp > 0) || (decide ((d.q.get 296).h > 0) && d.sb.stageOn 1 r.blk)

/-- The graph queues that feed inputs present a slot as the CRM begins a block (R28, R78; 01_architecture.md R38): it stands in the
input's newest block. -/
def graphIn (blk : Nat) (d : Dev) : Dev :=
  let qs := ((d.crm.src.map (fun e => e.2.1)).filter (fun q => decide (320 ≤ q))).eraseDups
  qs.foldl (fun d q =>
    let r := d.q.take q
    let d := { d with q := r.2 }
    match r.1 with
    | none => d
    | some sl => d.onCrm (fun c =>
        let at' := 32 * (c.lineBlk - blk)
        { c with lines := c.src.foldl (fun t e =>
            if e.2.1 = q then
              let l := Tbl.getD t e.1 []
              let ys := ((Tbl.getD sl.ch e.2.2 []) ++ List.replicate 32 0#32).take 32
              Tbl.put t e.1 (l.take at' ++ ys.reverse ++ l.drop (at' + 32))
            else t) c.lines })) d

/-- The CRM finishes its next group of four feeds. `ecc` lists what its reads of node records find (R101); a dormant node is not read. -/
def renderGroup (ecc : List EccHit) (d : Dev) : Dev :=
  match d.crm.rend with
  | none => d
  | some r =>
    let os := groupFeeds d r.grp
    let d := d.when (decide (r.grp = 0)) (fun d => graphIn r.blk (d.onQ (fun q => q.spend 296)))
    let found := (((ecc.filter (fun e => inNodes e.addr)).map (fun e => (e.addr - 0x30000000) / 16)).eraseDups).filter (fun k =>
      os.contains (k / 1024) && decide (k % 1024 < d.crm.nin) && !(d.crm.node (k % 1024) (k / 1024)).dormant)
    let d := found.foldl (fun d k => nodeRead ecc (k % 1024) (k / 1024) d) d
    let ns := os.flatMap (fun o => d.feedNodes o)
    let inputs := (ns.map Prod.fst).eraseDups
    let cost := inputs.foldl (fun n i => n + groupCost d os i) 0
    let act := (ns.filter (fun e => !e.2.dormant)).length
    let xf := (ns.filter (fun e => !e.2.dormant && decide (e.2.liveDly ≠ e.2.dlyOf (d.bankOf e.1)))).length
    let r' : Rend := ⟨r.blk, r.grp + 1, r.act + act, r.xf + xf, r.cyc + cost⟩
    let d := os.foldl (renderFeed r.blk) d
    let d := d.onCrm (fun c => { c with rend := some r' })
    if 4 * (r.grp + 1) ≥ d.crm.nout then crmBlockEnd r' d else d

/-! ### The CRM at a departure and a resume (R78, R84, R99) -/

/-- The block of samples that input `i` takes at departure `b` (R78): zeros without a source or without a slot. -/
def inputBlock (slots : Tbl QSlot) (src : Tbl (Nat × Nat)) (i : Nat) : List Word :=
  match Tbl.get? src i with
  | none => List.replicate 32 0#32
  | some (q, ch) =>
    match Tbl.get? slots q with
    | none => List.replicate 32 0#32
    | some s => (Tbl.get? s.ch ch).getD (List.replicate 32 0#32)

/-- Every input's delay line takes its block, newest sample first, 2080 samples kept (R78). -/
def crmLines (b : Nat) (slots : Tbl QSlot) (d : Dev) : Dev :=
  d.onCrm (fun c => { c with
    lineBlk := b,
    lines := (List.range c.nin).foldl (fun t i =>
      Tbl.put t i (((inputBlock slots c.src i).reverse ++ Tbl.getD t i []).take 2080)) c.lines })

/-- The CRM's actions at departure `b` in Mainline: what takes effect on block `b` is settled (01_architecture.md R32), the delay lines take
the inputs, and block `b` begins unless the block before is unfinished (01_architecture.md R31). The copy is made at the departure unless a flip
has to come first (R85): only the inactive bank changes, which no block being rendered reads (R82). -/
def crmDeparture (b : Nat) (ecc : List EccHit) (slots : Tbl QSlot) (d : Dev) : Dev :=
  let (flip, d) := crmQueued b d
  let due (k : Option Nat) : Bool := k.any (fun k => decide (k ≤ b))
  let (ws, d) := gsvTakeSlot b d
  let copy := due d.crm.copyAt
  let now := copy && flip.isNone && !d.crm.wait.any CrmDep.stirs
  let d := (d.onCrm (fun c => { c with copyAt := if copy then none else c.copyAt })).when now crmCopyAt
  let p : CrmDep := ⟨b, flip, copy && !now, due d.crm.nzAt, ws, ecc, []⟩
  let d := crmLines b slots (d.onCrm (fun c => { c with nzAt := if p.nz then none else c.nzAt, wait := c.wait ++ [p] }))
  if d.crm.rend.isNone then crmNext d else d

/-- Blocks that had departed and not begun when rendering starts again: what they brought is in place. -/
def crmDrain (d : Dev) : Dev :=
  (d.crm.wait.foldl (fun d _ => crmNext d) d).onCrm (fun c => { c with rend := none })

/-- Every running ramp and the running swap move forward by the `k` blocks skipped from block `h` on (R99). -/
def crmShift (h k : Nat) (d : Dev) : Dev :=
  let d := d.onCrm (fun c => { c with
    ramp := c.ramp.map (fun e => if h < e.2 then (e.1, e.2 + k) else e),
    run := c.run.map (fun r => (r.1, r.2 + k)) })
  match d.crm.run with
  | some (_, e) => d.wr R.CRM_SWAP_END (w32 (e - 1))
  | none => d

/-! ### The bulk node loader (R104, R105) -/

/-- A node load begins (R104). -/
def blkBegin (c : LoadCmd) (d : Dev) : Dev :=
  let d := (d.wr R.CRM_BLK_DONE 0#32).wr R.CRM_BLK_SKIP 0#32
  if c.count = 0 then d.evt Ev.CRM_BLK_DONE
  else twLoadOut c (d.onCrm (fun x => { x with ldRun := true, ldAddr := c.addr, ldLeft := c.count }))

/-- A write of CRM_BLK_CTRL: GO starts a load unless one runs; on a copy it waits for the loader (12_twin.md R346). A CRM_BLK_COUNT above
1,048,576, the end of its range, counts as written (DESIGN CHOICE, log 106). -/
def blkGo (v : Word) (d : Dev) : Dev :=
  d.when (bit v 0) (fun d =>
    let c : LoadCmd := ⟨.node, d.rd64 R.CRM_BLK_ADDR_LO R.CRM_BLK_ADDR_HI, (d.rd R.CRM_BLK_COUNT).toNat, 0⟩
    if d.crm.ldRun then twLoadWait c d else blkBegin c d)

/-- The load has ended; one that waited on a copy begins. -/
def blkEnd (d : Dev) : Dev := twLoadNext .node blkBegin (twLoaded .node d)

/-- The command of the load that runs. -/
def Crm.loadCmd (c : Crm) : LoadCmd := ⟨.node, c.ldAddr, c.ldLeft, 0⟩

/-- The load stops at a record whose fetch failed (R105). -/
def blkErr (d : Dev) : Dev :=
  d.when d.crm.ldRun (fun d =>
    let d := twBulk d.crm.loadCmd [] 0 0 true d
    blkEnd ((d.onCrm (fun c => { c with ldRun := false })).evt Ev.CRM_BLK_ERR))

/-- One record of two words (R104): skipped or applied as a node write. -/
def blkRecord (w0 w1 : Word) (ecc : List EccHit) (d : Dev) : Dev :=
  let i := bits w0 0 10
  let o := bits w0 10 10
  if bit w0 31 || bits w1 24 8 ≠ 0 || i ≥ d.crm.nin || o ≥ d.crm.nout then
    (d.bump R.CRM_BLK_SKIP).evt Ev.CRM_BLK_SKIP
  else if d.solverOwned i then ((d.bump R.CRM_BLK_SKIP).evt Ev.CRM_BLK_SKIP).evt Ev.GSV_NODE_WR_IGN
  else nodeWrite i o (bits w1 0 24) (bits w0 20 11) ecc d

/-- The loader fetches and handles its next record; the fetch fails outside the stores of R105, and at an uncorrectable word
(13_memory.md R368). `ecc` lists what the fetch and the node's read find. A record waits while its target is locked (13_memory.md R377), on a copy
for its BULK frame (12_twin.md R346). -/
def blkStep (mem : Memory) (ecc : List EccHit) (d : Dev) : Dev :=
  let a := d.crm.ldAddr
  let own := !d.bulkHas .node 8
  d.when (d.crm.ldRun && !d.loadWaits .node 8 && (!own || d.reach 5 a 8)) (fun d =>
    let c := d.crm.loadCmd
    let gets := d.loadGets .node a 8 (a + 4) (d.canFetch a && d.canFetch (a + 7))
    let mem := d.loadSrc .node a 8 (d.seen mem)
    let r := if own then unitRead 5 a 8 ecc d else (false, d)
    if !gets then blkErr (d.when own (fetchMiss a))
    else if r.1 then blkErr r.2
    else
      let d := bulkUsed .node 8 (twBulk c mem a 8 false r.2)
      let d := blkRecord (Memory.rd32 mem a) (Memory.rd32 mem (a + 4)) ecc d
      let d := d.bump R.CRM_BLK_DONE
      if d.crm.ldLeft ≤ 1 then blkEnd ((d.onCrm (fun c => { c with ldRun := false, ldLeft := 0 })).evt Ev.CRM_BLK_DONE)
      else d.onCrm (fun c => { c with ldAddr := a + 8, ldLeft := c.ldLeft - 1 }))

/-! ### Register reads and writes (R107) -/

def crmCounters : List Reg :=
  [R.CRM_SWAP_CNT, R.CRM_SWAP_REPL_CNT, R.CRM_SWAP_NOP_CNT, R.CRM_SWAP_LATE_CNT, R.CRM_GAINLIM_CNT, R.CRM_ECC_CNT,
   R.CRM_CYC_PEAK, R.FEED_CLIPCNT, R.FEED_PEAK]

/-- A write of CRM_CNT_CLR. -/
def crmCntClr (v : Word) (d : Dev) : Dev := d.when (bit v 0) (fun d => d.zeroAll crmCounters)

/-- STATUS (R107). RUN is 1 while the part renders, also between two blocks (DEDUCED, log 93). -/
def crmStatus (d : Dev) : Word :=
  let c := d.crm
  let qb := match c.queued with
    | none => false
    | some q => q.bank
  w32 (b2n qb * 64 + b2n (c.copyAt.isSome || c.copyRun || c.wait.any CrmDep.copy) * 32 + b2n c.ldRun * 16 + b2n c.queued.isSome * 8 +
    b2n c.run.isSome * 4 + b2n c.live * 2 + b2n d.renders)

def crmQinfo (d : Dev) : Word :=
  match d.crm.queued with
  | none => 0#32
  | some q => w32 (2 ^ 31 + b2n q.timed * 2 ^ 30 + q.ramp * 2 + b2n q.bank)

/-- INPUT_RAMP: the ramp after the latest rendered block (R107). -/
def inputRamp (d : Dev) (i : Nat) : Word :=
  let e := d.crm.rampEnd i
  let last := match d.crm.rend with
    | some r => r.blk
    | none => d.crm.begun
  w32 (b2n (decide (last < e)) * 2 ^ 31 + min (e - last) 255 * 2 ^ 16 + (e - 1) % 2 ^ 16)

def inputActive (d : Dev) (i : Nat) : Nat :=
  (d.crm.nodes.filter (fun e => e.1 % 1024 == i && decide (e.1 / 1024 < d.crm.nout) && !e.2.dormant)).length

def feedActive (d : Dev) (o : Nat) : Nat := ((d.feedNodes o).filter (fun e => !e.2.dormant)).length

/-- INPUT_INFO (R107). -/
def inputInfo (d : Dev) (i : Nat) : Word :=
  let own := d.solverOwned i
  let o := if own then d.gsv.layout.objs.findIdx (· == i) else 0
  w32 (b2n own * 2 ^ 31 + o * 2 ^ 16 + b2n (d.bankOf i))

/-- Registers whose value the CRM computes at the read, window registers already found to exist. -/
def crmRead (m : Agent) (off : Nat) (d : Dev) : Option Word :=
  let i := d.inSel m
  let o := d.outSel m
  if off = 0x00C then some (crmStatus d)
  else if off = 0x028 then some (crmQinfo d)
  else if off = 0x068 then some (w32 (b2n d.crm.ldRun * 2 ^ 31))
  else if 0x104 ≤ off && off ≤ 0x114 then some (d.hold ⟨3, off, 0, 0, 0, 0⟩ m)
  else if off = 0x118 then some (if i < d.crm.nin then inputInfo d i else 0#32)
  else if off = 0x11C then some (if i < d.crm.nin then inputRamp d i else 0#32)
  else if off = 0x120 then some (if i < d.crm.nin then w32 (inputActive d i) else 0#32)
  else if off = 0x124 then some (if o < d.crm.nout then d.rd (R.FEED_CLIPCNT.of o) else 0#32)
  else if off = 0x128 then some (if o < d.crm.nout then d.rd (R.FEED_PEAK.of o) else 0#32)
  else if off = 0x12C then some (if o < d.crm.nout then w32 (feedActive d o) else 0#32)
  else if off = 0x130 then some (d.rd (R.NODE_WDLY.of m.num))
  else none

/-- Registers whose write is more than its masks. -/
def crmWrite (m : Agent) (off : Nat) (v : Word) (d : Dev) : Option Dev :=
  if off = 0x014 then some (crmCtrlWrite v d)
  else if off = 0x01C then some (crmSwapReq v d)
  else if off = 0x05C || off = 0x060 || off = 0x064 then (if d.crm.ldRun then some d else none)
  else if off = 0x068 then some (blkGo v d)
  else if off = 0x074 then some (crmCntClr v d)
  else if off = 0x128 then
    some (d.when (decide (d.outSel m < d.crm.nout) && decide (v = 0#32)) (fun d => d.wr (R.FEED_PEAK.of (d.outSel m)) 0#32))
  else if off = 0x130 then some (d.wr (R.NODE_WDLY.of m.num) (w32 (bits v 0 11)))
  else if off = 0x134 then some (nodeWrPost m v [] d)
  else none

/-! ### Meanings -/

def execNodeWr (m : Agent) (v : Word) (ecc : List EccHit) (s : State) : Out := okRs m R.NODE_WR v s (nodeWrPost m v ecc)
def execNodeCaptureRead (m : Agent) (s : State) : Out := okBy m R.NODE_A_GAIN.addr 0#32 s (nodeCapture m) false
def execCopy (m : Agent) (v : Word) (s : State) : Out := okRs m R.CRM_CTRL v s (crmCtrlWrite v)
def execCopyDone (s : State) : Out := ok s copyDone
def execQclr (m : Agent) (v : Word) (s : State) : Out := okRs m R.CRM_CTRL v s (crmCtrlWrite v)
def execNzClr (m : Agent) (v : Word) (s : State) : Out := okRs m R.CRM_CTRL v s (crmCtrlWrite v)
def execCrmSwap (m : Agent) (v : Word) (s : State) : Out := okRs m R.CRM_SWAP v s (crmSwapReq v)

/-- CRM_RENDER_GROUP: nothing happens while no block is being rendered or the ticket of QID 296 is missing. -/
def execCrmRenderGroup (ecc : List EccHit) (s : State) : Out := ok s (fun d => (sbAll d).when (canRender (sbAll d)) (renderGroup ecc))
def execBlkGo (m : Agent) (v : Word) (s : State) : Out := okRs m R.CRM_BLK_CTRL v s (blkGo v)
def execBlkRecordApply (ecc : List EccHit) (s : State) : Out := ok s (blkStep s.mem ecc)
def execBlkErr (s : State) : Out := ok s blkErr
def execCrmCntClr (m : Agent) (v : Word) (s : State) : Out := okBy m R.CRM_CNT_CLR.addr v s (crmCntClr v)

end Sys2Proof.Machine
end

