-- ==== Sys2Proof/Machine/Chain.lean ====
section
/-!
DEFINITION. The arithmetic of a feed's chain, stage by stage (04_correction.md R111 to R120, R129, R130): the dB tables, trim, delay, sections,
FIR, limiter, mute and ramps.
Marks (notes/assumptions): DESIGN CHOICE 23; DEDUCED 94.
-/
namespace Sys2Proof.Machine

/-! ### dB tables (R111) -/

/-- The largest `m` below `2 ^ n`, grown from `acc`, with `m ^ 1280 * den ≤ num`. -/
def rootBits (num den : Nat) : (n : Nat) → (acc : Nat) → Nat
  | 0, acc => acc
  | n + 1, acc =>
    let t := acc + 2 ^ n
    rootBits num den n (if t ^ 1280 * den ≤ num then t else acc)

/-- `floor (10 ^ (g / 1280) * 2 ^ q)`, exactly. -/
def dbFloor (g : Int) (q : Nat) : Nat :=
  if g ≥ 0 then rootBits (2 ^ (q * 1280) * 10 ^ g.toNat) 1 34 0 else rootBits (2 ^ (q * 1280)) (10 ^ (-g).toNat) 34 0

/-- The multiplier of stages 1 and 2, Q3.29 (R111). -/
def trimMul (w : Word) : Int :=
  let code := bits w 0 16
  let g := max (-6144) (min (sgn 16 code) 768)
  let mag : Int := if code = 0x8000 then 0 else dbFloor g 29
  if bit w 16 then -mag else mag

/-! ### Stages 1 to 3 (R111, R113) -/

/-- A linear step of a block's 32 samples from `a` to `b` (R111, R113). -/
def blend (a b : Int) (j : Nat) : Int := a + (b - a) * (j + 1) / 32

/-- Stages 1 and 2: the samples and whether each saturated. -/
def stageTrim (ms mt : Int) (xs : List Word) : List (Int × Bool) :=
  xs.mapIdx (fun j x => let v := narrow (wInt x * blend ms mt j) 29; (sat 32 v, !fits 32 v))

/-- Stage 3 on a delay line that already holds the block: a crossfade over one block when the delay changes. -/
def stageDelay (dl dt : Nat) (line : List Word) : List Int :=
  (List.range 32).map (fun j =>
    let a := lineAt line ((31 - j) + dl)
    let b := lineAt line ((31 - j) + dt)
    if dl = dt then b else blend a b j)

/-! ### Stage 4: second-order sections (R114) -/

def CBank.c (b : CBank) (s k : Nat) : Int := wInt (Tbl.getD b.coef (5 * s + k) 0#32)

/-- One section on one sample: the output, its saturation, the new state (R114). -/
def secStep (b : CBank) (s : Nat) (st : Sec) (x : Int) : Int × Bool × Sec :=
  let acc := b.c s 0 * x + b.c s 1 * st.x1 + b.c s 2 * st.x2 - b.c s 3 * st.y1 - b.c s 4 * st.y2 + st.e1
  let q := narrow acc 29
  let y := sat 32 q
  (y, !fits 32 q, ⟨x, st.x1, y, st.y1, if b.ef then acc - q * (2 ^ 29 : Nat) else 0⟩)

/-- The sixteen sections in ascending order on one sample; a bypassed one passes it and holds its state. -/
def secsStep (b : CBank) (secs : Tbl Sec) (x : Int) : Int × Bool × Tbl Sec :=
  (List.range 16).foldl (fun (a : Int × Bool × Tbl Sec) s =>
    if (b.byp >>> s) % 2 = 1 then a
    else
      let (y, cl, st) := secStep b s (Tbl.getD a.2.2 s .zero) a.1
      (y, a.2.1 || cl, Tbl.set a.2.2 .zero s st)) (x, false, secs)

/-! ### Stage 5: the FIR (R116 to R120) -/

/-- The direct head: the exact sum of the first 32 taps on the samples from the newest back (Q4.60). -/
def firHead (taps hist : List Word) : Int :=
  ((taps.take 32).zip hist).foldl (fun a p => a + wInt p.1 * wInt p.2) 0

/-- The layout of a feed (R116). -/
structure FirLayout where
  on : Bool
  n32 : Nat
  n128 : Nat
  n512 : Nat
  n2048 : Nat
  deriving DecidableEq, Repr

def Dev.layoutOf (d : Dev) (o : Nat) : FirLayout :=
  ⟨d.fb (F.FC_INFO_FIR.of o), d.f (F.FC_LAYOUT_N32.of o), d.f (F.FC_LAYOUT_N128.of o), d.f (F.FC_LAYOUT_N512.of o),
   d.f (F.FC_LAYOUT_N2048.of o)⟩

/-- Taps covered (R116). -/
def FirLayout.cover (l : FirLayout) : Nat := 32 + 32 * l.n32 + 128 * l.n128 + 512 * l.n512 + 2048 * l.n2048

/-- The classes of a layout (R116): partition size, first tap, number of partitions, the empty ones too. -/
def FirLayout.classes (l : FirLayout) : List (Nat × Nat × Nat) :=
  let k128 := 32 + 32 * l.n32
  let k512 := k128 + 128 * l.n128
  [(32, 32, l.n32), (128, k128, l.n128), (512, k512, l.n512), (2048, k512 + 512 * l.n512, l.n2048)]

/-- A spectrum, or a block of samples, with its block exponent (R119): each mantissa stands for `m * 2 ^ exp`. -/
structure Bfp where
  m : List (Int × Int)
  exp : Int
  deriving DecidableEq, Repr

def fitsPair (n : Nat) (z : Int × Int) : Bool := fits n z.1 && fits n z.2

/-- Mantissas shifted right by `k` bits toward minus infinity. -/
def shiftPairs (k : Nat) (x : List (Int × Int)) : List (Int × Int) := x.map (fun z => (narrow z.1 k, narrow z.2 k))

/-- The shift of block-exponent detection after a stage: 0, 1 or 2 bits, so that the output fits its mantissas (R119). -/
def stageShift (x : List (Int × Int)) : Nat :=
  if x.all (fitsPair 32) then 0 else if x.all (fitsPair 33) then 1 else 2

/-- Pi in units of 2^-64. -/
def piFix : Nat := 57952155664616982739

/-- The cosine, in units of 2^-64, of an angle from 0 to a quarter turn in the same units: 16 terms of the series, each truncated. -/
def cosFix (x : Nat) : Int :=
  ((List.range 16).foldl (fun (a : Int × Nat) i =>
    (if i % 2 = 0 then a.1 + a.2 else a.1 - a.2, a.2 * x / 2 ^ 64 * x / 2 ^ 64 / ((2 * i + 1) * (2 * i + 2)))) ((0 : Int), 2 ^ 64)).1

/-- The table of twiddle factors: the cosine of `r / n` of a turn, up to a quarter, in Q2.30 (DESIGN CHOICE, log 23). -/
def cosCode (r n : Nat) : Int :=
  if r = 0 then (2 ^ 30 : Nat) else if 4 * r = n then 0
  else narrow (cosFix (2 * piFix * r / n)) 34 + b2n (Config.twiddleUp r n)

/-- The twiddle factor `k` of `n`: a forward transform turns by `-k / n` of a turn, an inverse one by `k / n` (R119). -/
def twiddle (inverse : Bool) (n k : Nat) : Int × Int :=
  let r := k % (n / 4)
  let c := cosCode r n
  let s := cosCode (n / 4 - r) n
  let z : Int × Int := match k % n / (n / 4) with
    | 0 => (c, s)
    | 1 => (-s, c)
    | 2 => (-c, -s)
    | _ => (s, -c)
  if inverse then z else (z.1, -z.2)

/-- A value turned by `k` quarter turns. -/
def quarter (k : Nat) (z : Int × Int) : Int × Int :=
  match k % 4 with
  | 0 => z
  | 1 => (-z.2, z.1)
  | 2 => (-z.1, -z.2)
  | _ => (z.2, -z.1)

/-- Output `p` of radix-4 stage `k`, decimating in frequency (DESIGN CHOICE, log 23), before its shift: the exact sum of four values, turned by the
stage's twiddle factor and truncated toward minus infinity (R119). -/
def butterfly (inverse : Bool) (k : Nat) (x : List (Int × Int)) (p : Nat) : Int × Int :=
  let m := x.length / 4 ^ k
  let q := m / 4
  let t := p % m / q
  let j := p % q
  let s := (List.range 4).foldl (fun (a : Int × Int) u =>
    let z := quarter (if inverse then u * t else 3 * u * t) ((x[p / m * m + j + u * q]?).getD (0, 0))
    (a.1 + z.1, a.2 + z.2)) (0, 0)
  let w := twiddle inverse m (j * t)
  (narrow (s.1 * w.1 - s.2 * w.2) 30, narrow (s.1 * w.2 + s.2 * w.1) 30)

/-- One stage of a transform: butterflies, shift, exponent (R119). -/
def Bfp.stage (inverse : Bool) (x : Bfp) (k : Nat) : Bfp :=
  let y := (List.range x.m.length).map (butterfly inverse k x.m)
  ⟨shiftPairs (stageShift y) y, x.exp + stageShift y⟩

/-- The place of point `p` after `n` stages: its digits to base 4 in reverse. -/
def digitRev (n p : Nat) : Nat := (List.range n).foldl (fun a i => 4 * a + p / 4 ^ i % 4) 0

/-- The radix-4 transform of `4 ^ n` points. -/
def Bfp.transform (inverse : Bool) (n : Nat) (x : Bfp) : Bfp :=
  let y := (List.range n).foldl (Bfp.stage inverse) x
  ⟨(List.range y.m.length).map (fun p => (y.m[digitRev n p]?).getD (0, 0)), y.exp⟩

/-- A block exponent, counted relative to full scale, below -96 makes the value exactly 0 (R120). No exponent exceeds 31: a spectrum's is at most
-29 + 12, a product's below it, and a class's sum adds no more than its bits. -/
def Bfp.floor (x : Bfp) : Bfp × Bool :=
  if x.exp < -96 then (⟨x.m.map (fun _ => (0, 0)), -96⟩, true) else (x, false)

/-- The bits by which a frame can be shifted left within its mantissas. -/
def headroom (xs : List Word) : Nat :=
  ((List.range 32).filter (fun k => xs.all (fun x => fits 32 (wInt x * (2 ^ k : Nat))))).length - 1

/-- Stages of a transform of `2P` points. -/
def stagesOf (p : Nat) : Nat := Nat.log2 (2 * p) / 2

/-- The spectrum of `2P` real values in units of `2 ^ unit` of full scale. The partner of R119's pair is taken as zeros, since the result "never
depends on pairing". -/
def spectrum (p : Nat) (unit : Int) (xs : List Word) : Bfp × Bool :=
  let lead := min (Config.frameLead xs) (headroom xs)
  (Bfp.transform false (stagesOf p) ⟨xs.map (fun x => (wInt x * (2 ^ lead : Nat), 0)), unit - (lead : Int)⟩).floor

/-- The exact complex product of two spectra (R119, R120). -/
def Bfp.mul (x h : Bfp) : Bfp × Bool :=
  Bfp.floor ⟨(x.m.zip h.m).map (fun p => (p.1.1 * p.2.1 - p.1.2 * p.2.2, p.1.1 * p.2.2 + p.1.2 * p.2.1)), x.exp + h.exp⟩

/-- A class's sum, aligned to the class's largest exponent (R119). -/
def Bfp.sum (xs : List Bfp) : Bfp :=
  match xs with
  | [] => ⟨[], 0⟩
  | x :: rest =>
    let e := rest.foldl (fun e y => max e y.exp) x.exp
    let al (y : Bfp) : List (Int × Int) := shiftPairs (e - y.exp).toNat y.m
    ⟨rest.foldl (fun a y => (a.zip (al y)).map (fun p => (p.1.1 + p.2.1, p.1.2 + p.2.2))) (al x), e⟩

/-- A sum narrowed to 32-bit mantissas for the inverse transform. -/
def Bfp.fit (x : Bfp) : Bfp :=
  let need := ((List.range 64).filter (fun k => !x.m.all (fitsPair (32 + k)))).length
  let k := max need (Config.classShift x.m.length x.m)
  ⟨shiftPairs k x.m, x.exp + k⟩

/-- The value `v * 2 ^ e`, bits below 1 discarded toward minus infinity. -/
def scaleFloor (v e : Int) : Int := if 0 ≤ e then v * (2 ^ e.toNat : Nat) else narrow v (-e).toNat

/-- The stage-4 sample of index `s`, with `hist` from the one of index `n` back; 0 before the first. -/
def histAt (hist : List Word) (n : Nat) (s : Int) : Word :=
  if s < 0 ∨ (n : Int) < s then 0#32 else (hist[((n : Int) - s).toNat]?).getD 0#32

/-- What the class of partition size `p` that begins at tap `k` adds to output sample `n`, in units of 2^-60, and whether an exponent fell
below -96: overlap-save on frames of `p` samples aligned to multiples of `p` (R119). -/
def classSample (taps hist : List Word) (n p k cnt : Nat) : Int × Bool :=
  let f := ((n : Int) - k) / (p : Int)
  let parts := (List.range cnt).map (fun (q : Nat) =>
    let g := f - q
    let x := spectrum p (-31) ((List.range (2 * p)).map (fun (j : Nat) => histAt hist n ((g - 1) * p + j)))
    let h := (taps.drop (k + p * q)).take p
    let hs := spectrum p (-29) (h ++ List.replicate (2 * p - h.length) 0#32)
    let y := x.1.mul hs.1
    (y.1, x.2 || hs.2 || y.2))
  let y := Bfp.transform true (stagesOf p) (Bfp.sum (parts.map Prod.fst)).fit
  let at' := p + ((n : Int) - k - f * p).toNat
  (scaleFloor ((y.m[at']?).getD (0, 0)).1 (y.exp + 60 - 2 * stagesOf p), parts.any Prod.snd)

/-- One sample of stage 5 before saturation, and whether an exponent fell below -96: the head exactly, and each class (R119). -/
def firSample (l : FirLayout) (taps hist : List Word) (n : Nat) : Int × Bool :=
  let cs := (l.classes.filter (fun c => decide (0 < c.2.2))).map (fun c => classSample taps hist n c.1 c.2.1 c.2.2)
  (narrow (cs.foldl (fun a c => a + c.1) (firHead taps hist)) 29, cs.any Prod.snd)

/-- What stages 4 and 5 make of samples: each with its saturation, the path after them, and whether an exponent fell below -96. -/
structure PathOut where
  ys : List (Int × Bool)
  path : Path
  ufl : Bool
  deriving DecidableEq, Repr

/-- Stages 4 and 5 on the sample of index `n`. The path's history is kept as long as the layout needs. -/
def pathStep (l : FirLayout) (b : CBank) (a : PathOut) (n : Nat) (x : Int) : PathOut :=
  let (y, c, secs) := secsStep b a.path.secs x
  if l.on then
    let hist := (wOfInt y :: a.path.hist).take (l.cover + 2048)
    let v := firSample l b.taps hist n
    ⟨a.ys ++ [(sat 32 v.1, c || !fits 32 v.1)], ⟨secs, hist⟩, a.ufl || v.2⟩
  else ⟨a.ys ++ [(y, c)], ⟨secs, []⟩, a.ufl⟩

/-- Stages 4 and 5 on the samples of block `c`. -/
def pathRun (l : FirLayout) (b : CBank) (p : Path) (c : Nat) (xs : List Int) : PathOut :=
  xs.zipIdx.foldl (fun a x => pathStep l b a (32 * c + x.2) x.1) ⟨[], p, false⟩

/-! ### Stage 6: the limiter (R129) -/

/-- The binary32 of 24 significant bits at or just below `m * 2 ^ -q`, or the next above it (R129: fixed tables). -/
def tableWord (m q : Nat) (up : Bool) : Word :=
  let k := Nat.log2 m + 1 - 24
  fOfScaled ((m / 2 ^ k + b2n up : Nat) : Int) ((k : Int) - q)

/-- The threshold `10 ^ (thr / 1280)` (R129). -/
def limThr (thr : Int) : Word := if thr = 0 then fOne else tableWord (dbFloor thr 32) 32 (Config.tableUp 0 thr 0)

/-- `1 - e ^ -(p / q)` in units of `2 ^ -128`: 40 terms of the series, each truncated (R129). -/
def expComp (p q : Nat) : Nat :=
  let r := (List.range 40).foldl (fun (a : Int × Nat) (k : Nat) =>
    let t := a.2 * p / (q * (k + 1))
    (if k % 2 = 0 then a.1 + t else a.1 - t, t)) (0, 2 ^ 128)
  r.1.toNat

/-- The time constants: attack in 10 us steps, release in ms (R129). -/
def limAttack (att fs : Nat) : Word := tableWord (expComp 100000 (att * fs)) 128 (Config.tableUp 1 att fs)
def limRelease (rel fs : Nat) : Word := tableWord (expComp 1000 (rel * fs)) 128 (Config.tableUp 2 rel fs)

/-- The largest `r` below `2 ^ n`, grown from `acc`, with `10 ^ r * m ^ 1280 ≤ lim`. -/
def redBits (m lim : Nat) : (n : Nat) → (acc : Nat) → Nat
  | 0, acc => acc
  | n + 1, acc =>
    let t := acc + 2 ^ n
    redBits m lim n (if 10 ^ t * m ^ 1280 ≤ lim then t else acc)

/-- The reduction in 1/64 dB that FC_LIM_GR reports for a gain (R140), 0 at a gain of 1. -/
def limReduction (g : Word) : Nat :=
  if g = fOne then 0
  else match fUnpack g with
    | .fin _ m e => if m = 0 then 2 ^ 16 - 1 else redBits m (2 ^ ((-e).toNat * 1280)) 13 0 + b2n (Config.tableUp 3 (g.toNat : Int) 0)
    | _ => 0

/-- Parameters of the limiter: on, threshold, time constants, hold in samples. -/
structure LimPar where
  on : Bool
  thr : Word
  atk : Word
  rel : Word
  hold : Nat
  deriving DecidableEq, Repr

def limPar (lim time : Word) (fs : Nat) : LimPar :=
  let a := max 1 (bits time 0 8)
  let r := max 1 (min (bits time 16 13) 5000)
  ⟨bit lim 31, limThr (max (-3072) (min (sgn 16 (bits lim 0 16)) 0)), limAttack a fs, limRelease r fs,
   bits time 8 8 * fs / 1000⟩

/-- The limiter on one sample: the output, the applied gain, the new smoothed gain and hold counter. -/
def limStep (p : LimPar) (gs : Word) (hold : Nat) (x : Int) : Int × Word × Word × Nat :=
  let ax := fAbs (fOfScaled x (-31))
  let req := if fLe ax p.thr then fOne else fDiv p.thr ax
  let (gs', hold') :=
    if fLt req gs then (fAdd gs (fMul p.atk (fSub req gs)), p.hold)
    else if hold ≠ 0 then (gs, hold - 1)
    else (fAdd gs (fMul p.rel (fSub req gs)), 0)
  let g := fMin gs' req
  let code := fFloorScaled g 31
  let y := if code = (2 ^ 31 : Nat) then x else narrow (x * code) 31
  (y, g, gs', hold')

/-- The limiter on a block: samples, smallest applied gain, smoothed gain, hold counter. -/
def limRun (p : LimPar) (gs : Word) (hold : Nat) (xs : List Int) : List Int × Word × Word × Nat :=
  if !p.on then (xs, fOne, fOne, hold)
  else xs.foldl (fun (a : List Int × Word × Word × Nat) x =>
    let (y, g, gs', h') := limStep p a.2.2.1 a.2.2.2 x
    (a.1 ++ [y], fMin a.2.1 g, gs', h')) ([], fOne, gs, hold)

/-! ### Stage 7: mute and ramps (R130) -/

/-- The factor on sample `j` of block `c` (R87, R130). -/
def Factor.at (f : Factor) (c j : Nat) : Nat := rampGain f.live f.tgt (f.stop - c) j

/-- The factor after block `c`. -/
def Factor.after (f : Factor) (c : Nat) : Factor := { f with live := f.at c 31 }

/-- A new target from block `c` with ramp time `t` (R88). -/
def Factor.aim (f : Factor) (tgt c t : Nat) : Factor := { f with tgt := tgt, stop := c + t }

/-- The four factors on sample `j`, each product truncated. -/
def stageMute (f : Feed) (c j : Nat) (x : Int) : Int :=
  [f.user, f.glob, f.swp, f.sys].foldl (fun y k => narrow (y * (k.at c j : Nat)) 30) x

end Sys2Proof.Machine
end

