-- ==== Sys2Proof/Machine/Cce.lean ====
section
/-!
DEFINITION. The correction engine's commands (04_correction.md): a feed's chain for one block, coefficient accesses,
swaps, the FIR loader, and the engine's part of a departure and a resume.
Marks (notes/assumptions): DEDUCED 39, 41, 92, 93, 94, 96; DESIGN CHOICE 106, 107.
-/
namespace Sys2Proof.Machine

def Dev.onCce (d : Dev) (g : Cce → Cce) : Dev := { d with cce := g d.cce }
def Dev.onFeed (d : Dev) (o : Nat) (g : Feed → Feed) : Dev := d.onCce (fun c => c.setFeed o (g (c.feed o)))

def Dev.feedSel (d : Dev) (m : Agent) : Nat := Reg.idx d R.FEED_SEL m
def Dev.feedSelOk (d : Dev) (m : Agent) : Bool := decide (d.feedSel m < d.crm.nout)

/-! ### Swaps (R124 to R128) -/

def Feed.bank (f : Feed) (b : Bool) : CBank := if b then f.bankB else f.bankA
def Feed.setBank (f : Feed) (b : Bool) (k : CBank) : Feed := if b then { f with bankB := k } else { f with bankA := k }

/-- Swap ramp times run from 1 to 64 (R128). -/
def swapRamp (n : Nat) : Nat := max 1 (min n 64)

/-- A swap request for feed `o` (R126, R127); a block that fell within a Halt is not late (R137). A group request gives way to a feed's own request
for the same block, which is handled second (R136). A request that is a no-op counts as that alone, also where its timed block is past (DESIGN
CHOICE, log 107: R126 and R127 do not say which count it takes). -/
def feedSwapReq (grp : Bool) (v : Word) (o : Nat) (d : Dev) : Dev :=
  let f := d.cce.feed o
  let timed := bit v 31
  let at' := d.rd64 R.CCE_SWAP_AT_LO R.CCE_SWAP_AT_HI
  if bit v 0 = d.cce.bankOf o then d.bump R.CCE_SWAP_NOP_CNT
  else
    let req : FReq := ⟨bit v 0, swapRamp (bits v 1 9), if timed then max at' d.effBlk else d.effBlk, grp⟩
    let first := f.queued.any (fun q => grp && !q.grp && q.blk == req.blk)
    let d := d.when f.queued.isSome (fun d => (d.bump R.CCE_SWAP_REPL_CNT).evt Ev.CCE_SWAP_REPL)
    let d := d.when (timed && decide (at' < d.effBlk) && !d.within at')
      (fun d => (d.bump R.CCE_SWAP_LATE_CNT).evt Ev.CCE_SWAP_LATE)
    d.when (!first) (fun d => d.onFeed o (fun f => { f with queued := some req }))

/-- A write of FC_SWAP. -/
def fcSwap (m : Agent) (v : Word) (d : Dev) : Dev := d.when (d.feedSelOk m) (feedSwapReq false v (d.feedSel m))

/-- A write of CCE_SWAP: every feed whose group is selected, as separate requests (R127). -/
def cceSwap (v : Word) (d : Dev) : Dev :=
  let grp := (d.rd R.CCE_SWAP_GRP).toNat
  ((List.range d.crm.nout).filter (fun o => (grp >>> d.f (F.FC_INFO_GROUP.of o)) % 2 == 1)).foldl
    (fun d o => feedSwapReq true v o d) d

/-- The blocks a swap runs for: `T`, or `2T` for a dip. -/
def FSwap.len (s : FSwap) : Nat := if s.dip then 2 * s.ramp else s.ramp

/-- Does a FIR load of the feed run or wait (R126)? -/
def loading (d : Dev) (o : Nat) : Bool :=
  match d.cce.load with
  | none => false
  | some l => l.feed == o

/-- The queued swap of feed `o` at departure `b` (R126): it flips on block `b`, waits, or is a no-op. A bank whose load was incomplete is not
flipped to (R121). -/
def feedQueued (b o : Nat) (d : Dev) : Option FSwap × Dev :=
  match (d.cce.feed o).queued with
  | none => (none, d)
  | some q =>
    let busy := (d.cce.runOf o).any (fun r => decide (b < r.start + r.len))
    if busy || decide (b < q.blk) || loading d o || d.swapHeld .fir o || !((d.cce.feed o).bank q.bank).whole then (none, d)
    else
      let d := d.onFeed o (fun f => { f with queued := none })
      if q.bank = d.cce.bankOf o then (none, d.bump R.CCE_SWAP_NOP_CNT)
      else (some ⟨!d.fb (F.FC_INFO_XF.of o), q.bank, q.ramp, b⟩, d)

/-- The queued swaps of every feed at departure `b`. -/
def feedsQueued (b : Nat) (d : Dev) : Tbl FSwap × Dev :=
  (List.range d.crm.nout).foldl (fun (a : Tbl FSwap × Dev) o =>
    let (s, d) := feedQueued b o a.2
    match s with
    | some s => (Tbl.put a.1 o s, d)
    | none => (a.1, d)) ([], d)

/-- A swap flips (R124, R125): a crossfade copies the path at once; a dip starts its ramp down, also between identical banks (DESIGN CHOICE, log
107: R128's "changes no sample" is taken of the coefficients; the swap factor follows R125). -/
def Feed.flip (f : Feed) (s : FSwap) : Feed :=
  if s.dip then { f with run := some s, swp := f.swp.aim 0 s.start s.ramp }
  else { f with run := some s, live := s.bank, old := f.path }

/-- The flip of a dip between its halves, at the first sample of block `c` (R125). -/
def dipTurn (c : Nat) (f : Feed) : Feed :=
  match f.run with
  | some r =>
    if r.dip && f.live != r.bank && decide (r.start + r.ramp ≤ c) then { f with live := r.bank, swp := f.swp.aim one30 c r.ramp } else f
  | none => f

/-! ### A feed's chain for one block (R108) -/

/-- The latched value of a register (R110). -/
def Dev.latched (d : Dev) (r : Reg) : Word := d.cce.latch.rd r

/-- What one block of a feed comes to. -/
structure FeedOut where
  feed : Feed
  out : List (Word × Bool)
  ufl : Bool
  minGain : Word
  deriving DecidableEq, Repr

/-- The crossfade of stage 5 between the old and the new path (R124). -/
def xfMix (r : FSwap) (c j : Nat) (yo yn : Int) : Int :=
  yo + (yn - yo) * ((min (32 * (c - r.start) + j + 1) (32 * r.ramp) : Nat) : Int) / (32 * r.ramp : Nat)

/-- Block `c` of feed `o` on the CRM's samples `xs`: stages 1 to 7. -/
def feedBlock (d : Dev) (o c : Nat) (xs : List Word) : FeedOut :=
  let f := dipTurn c (d.cce.feed o)
  let f := if f.late && !d.cce.cut then { f with sys := { f.sys with live := 0, stop := c + 1 }, late := false } else f
  let l := d.layoutOf o
  -- stages 1 to 3
  let mt := trimMul (d.latched (R.FC_TRIM.of o))
  let s2 := stageTrim f.m mt xs
  let cap := (d.rd (R.FC_DLYCAP.of o)).toNat
  let line := ((s2.map (fun p => wOfInt p.1)).reverse ++ f.line).take (cap + 32)
  let dt := (d.latched (R.FC_DLY.of o)).toNat
  let s3 := stageDelay f.dly dt line
  -- stages 4 and 5
  let y := pathRun l (f.bank f.live) f.path c s3
  let xf := match f.run with
    | some r => if r.dip then none else some r
    | none => none
  let yo : PathOut := match xf with
    | none => ⟨[], .zero, false⟩
    | some r => pathRun l (f.bank (!r.bank)) f.old c s3
  let s5 : List (Int × Bool) := match xf with
    | none => y.ys
    | some r => (yo.ys.zip y.ys).mapIdx (fun j p => (xfMix r c j p.1.1 p.2.1, p.1.2 || p.2.2))
  -- stages 6 and 7
  let p := limPar (d.latched (R.FC_LIM.of o)) (d.latched (R.FC_LIM_TIME.of o)) d.rate
  let (s6, gmin, gs, hold) := limRun p f.gs f.hold (s5.map Prod.fst)
  let s7 := s6.mapIdx (fun j x => stageMute f c j x)
  let out := if f.eccx then List.replicate 32 (0#32, false)
    else (s7.zip (s2.zip s5)).map (fun e => (wOfInt e.1, e.2.1.2 || e.2.2.2))
  let done := match f.run with
    | some r => decide (r.start + r.len ≤ c + 1)
    | none => false
  let f' := { f with
    m := mt, dly := dt, line := line, path := y.path, old := if done then .zero else yo.path,
    run := if done then none else f.run,
    user := f.user.after c, glob := f.glob.after c, swp := f.swp.after c, sys := f.sys.after c,
    gs := gs, hold := hold, limAct := fLt gmin fOne,
    muted := f.user.at c 31 * f.glob.at c 31 * f.swp.at c 31 * f.sys.at c 31 == 0 }
  ⟨f', out, y.ufl || yo.ufl, gmin⟩

/-- A stage of feed `o` saturated: the flag and the event; FC_CLIPCNT takes the `n` samples not counted yet (R109). -/
def clipReport (o n : Nat) (d : Dev) : Dev :=
  ((d.setBit (R.CCE_CLIP.at (o / 32)) (o % 32)).bumpBy (R.FC_CLIPCNT.of o) n).evt Ev.CCE_CLIP

/-- The clip reports of one block of a feed (R109). -/
def reportClips (o n : Nat) (d : Dev) : Dev := d.when (decide (n > 0)) (clipReport o n)

/-- An uncorrectable error in a feed's coefficients or state: silent until a commit or reset (R138). -/
def feedEcc (o : Nat) (d : Dev) : Dev :=
  let d := d.onFeed o (fun f => { f with eccx := true })
  twFault 1 (((d.wr R.CCE_ECC_FEED (w32 (2 ^ 31 + o))).bump R.CCE_ECC_CNT).evt Ev.CCE_COEF_ECC)

/-- What the CCE's reads of a feed's coefficients, spectra and state find (R138; 13_memory.md R368). -/
def feedRead (ecc : List StoreHit) (o : Nat) (d : Dev) : Dev :=
  let d := ecc.foldl (fun d e => if e.double then ueCount e.store.val e.word (if e.store.val ≤ 1 then privPort else unitPort) d
    else storeCe e.store.val d) d
  d.when (ecc.any StoreHit.double) (feedEcc o)

/-- The classes that lie in DRAM on a variant that has it, as partition size and count: those that begin at or above tap 512 (R118). -/
def FirLayout.dram (l : FirLayout) : List (Nat × Nat) :=
  (l.classes.filter (fun c => l.on && decide (0 < c.2.2) && decide (512 ≤ c.2.1))).map (fun c => (c.1, c.2.2))

/-- DRAM traffic of one feed in one block, in units of 64 bytes (R134): the delay line's and the classes', twice while a crossfade runs. -/
def feedTraffic (d : Dev) (o : Nat) : Nat :=
  if !d.cap.dram then 0
  else
    let sum := (d.layoutOf o).dram.foldl (fun n c => n + 2 * c.2 + 1) 0
    let twice := if (d.cce.feed o).run.any (fun r => !r.dip) then 2 else 1
    4 * twice * (b2n (d.fb (F.FC_INFO_DLYDRAM.of o)) + sum)

/-! ### The CCE at a departure and a resume (R31, R110, R137) -/

/-- A factor's new target (R88, R130). -/
def Factor.take (f : Factor) (a : Aim) (c : Nat) : Factor :=
  Factor.aim (if a.zero then { f with live := 0 } else f) a.tgt c a.ramp

/-- A change of target acts from block `c` on. -/
def aimAct (c : Nat) (d : Dev) (a : Aim) : Dev :=
  match a.who with
  | .user o => d.onFeed o (fun f => { f with user := f.user.take a c })
  | .glob => (List.range d.crm.nout).foldl (fun d o => d.onFeed o (fun f => { f with glob := f.glob.take a c })) d
  | .sys (some o) => d.onFeed o (fun f => { f with sys := f.sys.take a c })
  | .sys none => (List.range d.crm.nout).foldl (fun d o => d.onFeed o (fun f => { f with sys := f.sys.take a c })) d

/-- The CCE begins a departed block with what took effect on it (R31, R110, R124). -/
def cceBegin (p : CceDep) (d : Dev) : Dev :=
  let d := p.flips.foldl (fun d e => d.onFeed e.1 (fun f => f.flip e.2)) d
  let d := p.aims.foldl (aimAct p.blk) d
  d.onCce (fun e => { e with latch := p.latch, blk := some p.blk, cut := decide (p.blk < e.dep), done := [], waits := [], cyc := 0, traf := 0,
                             ufl := false, waited := false })

/-- The oldest departed block that waits begins (01_architecture.md R31). -/
def cceNext (d : Dev) : Dev :=
  match d.cce.wait with
  | [] => d
  | p :: rest => cceBegin p (d.onCce (fun e => { e with wait := rest }))

/-- The feeds whose current block is not complete. -/
def Dev.undone (d : Dev) : List Nat :=
  match d.cce.blk with
  | none => []
  | some _ => (List.range d.crm.nout).filter (fun o => (Tbl.get? d.cce.done o).isNone)

/-- The CCE's actions at departure `b`: what takes effect on block `b` is settled (01_architecture.md R32), and block `b` begins unless the
block before is unfinished; feeds it has not completed are late (01_architecture.md R31). -/
def cceDeparture (b : Nat) (d : Dev) : Dev :=
  let late := d.undone
  let d := late.foldl (fun d o => d.onFeed o (fun f => { f with late := true })) d
  let (flips, d) := feedsQueued b d
  let d := d.onCce (fun e =>
    let p : CceDep := ⟨b, e.latchFrom d.regs, e.aims.filter (fun a => decide (a.blk ≤ b)), flips⟩
    { e with dep := b, aims := e.aims.filter (fun a => decide (b < a.blk)), wait := e.wait ++ [p] })
  if late = [] then cceNext d else d.onCce (fun e => { e with cut := true })

/-- Blocks that had departed and were not complete when rendering starts again: what they brought is in place. -/
def cceDrain (d : Dev) : Dev :=
  (d.cce.wait.foldl (fun d _ => cceNext d) d).onCce (fun e => { e with blk := none, cut := false, done := [], waits := [] })

/-- Every ramp, crossfade and dip moves forward by the `k` blocks skipped from block `h` on (R137). -/
def cceShift (h k : Nat) (d : Dev) : Dev :=
  let mv (f : Factor) : Factor := if h < f.stop then { f with stop := f.stop + k } else f
  d.onCce (fun e => { e with feeds := e.feeds.map (fun p => (p.1, { p.2 with
    user := mv p.2.user, glob := mv p.2.glob, swp := mv p.2.swp, sys := mv p.2.sys,
    run := p.2.run.map (fun r => { r with start := r.start + k }) })) })

/-! ### The CCE runs (R109, R124, R134, R135) -/

/-- The end of a block: reports and the filled slot of QID 297; a block whose cut-off has passed is discarded and gives way to the next
(01_architecture.md R31). -/
def cceBlockEnd (d : Dev) : Dev :=
  let d := d.wr R.CCE_CYC_LAST (w32 (d.cce.cyc % 2 ^ 20))
  let d := d.peakF ⟨R.CCE_CYC_PEAK, 0, 20⟩ (d.cce.cyc % 2 ^ 20)
  let d := d.wr R.CCE_DRAM_LAST (w32 (d.cce.traf % 2 ^ 24))
  let d := d.when d.cce.ufl (fun d => (d.bump R.CCE_BFP_UFL_CNT).evt Ev.CCE_BFP_UFL)
  let d := d.onQ (fun q => q.fill 297)
  d.when d.cce.cut (fun d => cceNext (d.onQ (fun q => q.pop 297)))

/-- May the CCE run feed `o`: the CRM has handed over its samples of the block, the feed is not done, and, for the block's first feed, the CCE stage
of the block's instance has started and QID 297 has a ticket (01_architecture.md R37; 06_signal_box.md R177)? The block and the samples. -/
def Dev.feedDue (d : Dev) (o : Nat) : Option (Nat × List Word) :=
  match d.cce.blk, Tbl.getD d.crm.fbuf o [] with
  | some c, (b, xs) :: _ =>
    if b = c && (Tbl.get? d.cce.done o).isNone && (!d.cce.done.isEmpty || (d.sb.stageOn 2 c && decide (0 < (d.q.get 297).h))) then some (c, xs)
    else none
  | _, _ => none

/-- The CCE runs feed `o` for its block. -/
def cceRun (o cyc : Nat) (d : Dev) : Dev :=
  match d.feedDue o with
  | none => d
  | some (c, xs) =>
    let d := d.when (d.cce.done = []) (fun d => d.onQ (fun q => q.spend 297))
    let r := feedBlock d o c xs
    let swapped := (d.cce.feed o).run.isSome && r.feed.run.isNone
    let traf := feedTraffic d o
    let d := d.onCrm (fun k => { k with fbuf := Tbl.set k.fbuf [] o ((Tbl.getD k.fbuf o []).drop 1) })
    let d := d.onCce (fun e => { (e.setFeed o r.feed) with
      done := Tbl.put e.done o r.out, cyc := e.cyc + cyc, traf := e.traf + traf, ufl := e.ufl || r.ufl, waits := e.waits.filter (· != o) })
    let d := reportClips o (r.out.filter (fun p => p.2)).length d
    let d := d.peakF ⟨R.FC_PEAK.of o, 0, 31⟩ ((r.out.map (fun p => magOf (wInt p.1))).foldl max 0)
    let gr := limReduction r.minGain % 2 ^ 16
    let d := d.setF ⟨R.FC_LIM_GR.of o, 0, 16⟩ gr
    let d := d.peakF ⟨R.FC_LIM_GR.of o, 16, 16⟩ gr
    let d := d.when swapped (fun d => (d.bump R.CCE_SWAP_CNT).evt Ev.CCE_SWAP_DONE)
    if d.cce.done.length ≥ d.crm.nout then cceBlockEnd (d.onQ (fun q => q.pop 296)) else d

/-- CCE_FEED_BLOCK: the chain runs, or waits for DRAM data that has not arrived (R135). `ecc` lists what its reads find (R138). -/
def cceFeed (o cyc : Nat) (ready : Bool) (ecc : List StoreHit) (d : Dev) : Dev :=
  let d := sbAll d
  d.when (d.feedDue o).isSome (fun d =>
    let d := feedRead ecc o d
    if ready then cceRun o cyc d
    else d.when (!d.cce.waits.contains o) (fun d =>
      let d := d.when (!d.cce.waited) (fun d => (d.bump R.CCE_TAILWAIT_CNT).evt Ev.CCE_TAIL_WAIT)
      d.onCce (fun e => { e with waits := o :: e.waits, waited := true })))

/-- The data has arrived: the feed that waited runs (R135). -/
def tailWaitEnd (o cyc : Nat) (d : Dev) : Dev := d.when (d.cce.waits.contains o) (cceRun o cyc)

/-! ### Coefficient accesses (R123, R139, R140) -/

/-- FC_DLY: a delay above the capacity is stored as the capacity (R112). -/
def fcDlyWrite (m : Agent) (v : Word) (d : Dev) : Dev :=
  let o := d.feedSel m
  d.when (d.feedSelOk m) (fun d =>
    let cap := (d.rd (R.FC_DLYCAP.of o)).toNat
    let x := bits v 0 16
    let d := d.wr (R.FC_DLY.of o) (w32 (min x cap))
    d.when (decide (cap < x)) (fun d => (d.bump R.CCE_DLYLIM_CNT).evt Ev.CCE_DLY_LIM))

/-- COEF and SEC step after an access to a coefficient (R139); a COEF of 5 to 7, of which R139 does not speak, steps as 4 does (DESIGN CHOICE,
log 106). -/
def sosStep (r : Reg) (nsec : Nat) (m : Agent) (d : Dev) : Dev :=
  let w := d.rd (r.of m.num)
  let c := bits w 0 3
  let s := bits w 4 4
  d.when (bit w 31) (fun d =>
    if c < 4 then d.wr (r.of m.num) (setBits w 0 3 (c + 1))
    else d.wr (r.of m.num) (setBits (setBits w 0 3 0) 4 4 ((s + 1) % nsec)))

/-- Is the feed's swap running, so that its inactive bank is in use (R123)? -/
def Dev.swapping (d : Dev) (o : Nat) : Bool := (d.cce.runOf o).isSome

/-- An access to FC_SOS_COEF: a write goes to the inactive bank, a read returns bank RBANK. -/
def sosCoef (m : Agent) (write : Bool) (v : Word) (d : Dev) : Dev :=
  let o := d.feedSel m
  let w := d.rd (R.FC_SOS_SEL.of m.num)
  let k := bits w 0 3
  let s := bits w 4 4
  let f := d.cce.feed o
  let d1 :=
    if write then
      d.when (d.feedSelOk m && decide (k < 5)) (fun d =>
        if d.swapping o then d.evt Ev.CCE_COEF_BUSY
        else d.onFeed o (fun f =>
          let b := f.bank (!f.live)
          f.setBank (!f.live) { b with coef := Tbl.set b.coef 0#32 (5 * s + k) v }))
    else if d.feedSelOk m && k < 5 then d.answer (Tbl.getD (f.bank (bit w 8)).coef (5 * s + k) 0#32)
    else d.answer 0#32
  sosStep R.FC_SOS_SEL 16 m d1

/-- A write of FC_SOS_BYP: the inactive bank's bypass mask and error feedback. -/
def sosByp (m : Agent) (v : Word) (d : Dev) : Dev :=
  let o := d.feedSel m
  d.when (d.feedSelOk m) (fun d =>
    if d.swapping o then d.evt Ev.CCE_COEF_BUSY
    else d.onFeed o (fun f => f.setBank (!f.live) { f.bank (!f.live) with byp := bits v 0 16, ef := bit v 31 }))

/-! ### The FIR loader (R121, R123) -/

/-- A FIR load begins (R121). A feed without a layout completes at once. -/
def fldBegin (c : LoadCmd) (d : Dev) : Dev :=
  let d := d.wr R.CCE_FLD_DONE 0#32
  if c.feed ≥ d.crm.nout || !(d.layoutOf c.feed).on then (d.evt Ev.CCE_FLD_TRUNC).evt Ev.CCE_FLD_DONE
  else twLoadOut c (d.onCce (fun e => { e with load := some ⟨c.feed, c.addr, c.count, (e.runOf c.feed).isSome⟩ }))

/-- A write of CCE_FLD_CTRL: FEED, and GO, unless a load runs; on a copy GO waits for the loader (12_twin.md R346). -/
def fldGo (v : Word) (d : Dev) : Dev :=
  d.when (d.cce.load.isNone || d.twCopy) (fun d =>
    let o := bits v 16 10
    let d := d.setF F.CCE_FLD_CTRL_FEED o
    d.when (bit v 0) (fun d =>
      let c : LoadCmd := ⟨.fir, d.rd64 R.CCE_FLD_ADDR_LO R.CCE_FLD_ADDR_HI, (d.rd R.CCE_FLD_COUNT).toNat, o⟩
      if d.cce.load.isSome then twLoadWait c d else fldBegin c d))

/-- The load has ended; one that waited on a copy begins. -/
def fldEnd (d : Dev) : Dev := twLoadNext .fir fldBegin (twLoaded .fir (d.onCce (fun e => { e with load := none })))

def FirLoad.cmd (l : FirLoad) : LoadCmd := ⟨.fir, l.addr, l.count, l.feed⟩

/-- The swap that a load waited for has completed (R123). -/
def fldStart (d : Dev) : Dev :=
  match d.cce.load with
  | some l => d.when (l.wait && !d.swapping l.feed) (fun d =>
      d.onCce (fun e => { e with load := some { l with wait := false } }))
  | none => d

/-- The taps of a load: `n` words from memory, then zeros up to the coverage (R121). -/
def loadTaps (mem : Memory) (l : FirLoad) (n cover : Nat) : List Word :=
  let got := Memory.rdWords mem l.addr (min n cover)
  got ++ List.replicate (cover - got.length) 0#32

/-- A fetch failed after `done` taps: the bank is incomplete (R121). -/
def fldFail (mem : Memory) (done : Nat) (d : Dev) : Dev :=
  match d.cce.load with
  | some l => d.when (!l.wait) (fun d =>
      let cover := (d.layoutOf l.feed).cover
      let n := min done (min l.count cover)
      let mem := d.loadSrc .fir l.addr (4 * n) (d.seen mem)
      let d := bulkUsed .fir (4 * n) (twBulk l.cmd mem l.addr (4 * n) true d)
      let d := d.onFeed l.feed (fun f =>
        let b := f.bank (!f.live)
        let taps := Memory.rdWords mem l.addr n ++ b.taps.drop n
        f.setBank (!f.live) { b with taps := taps, whole := false })
      fldEnd ((d.wr R.CCE_FLD_DONE (w32 n)).evt Ev.CCE_FLD_ERR))
  | none => d

/-- The taps of a load before the first whose fetch fails: it lies outside the stores of R121, or in an uncorrectable word (13_memory.md R368). -/
def FirLoad.goodTaps (l : FirLoad) (n : Nat) (ecc : List EccHit) (d : Dev) : Nat :=
  ((List.range n).takeWhile (fun i =>
    let a := l.addr + 4 * i
    d.loadGets .fir l.addr (4 * n) a (d.canFetch a && d.canFetch (a + 3) && !d.loses ecc a))).length

/-- The load completes: the inactive bank holds the taps (R121), or the first tap whose fetch fails stops it; `ecc` lists what the fetches find. It
waits while its target is locked (13_memory.md R377), on a copy for its BULK frames (12_twin.md R346). -/
def fldDone (mem : Memory) (ecc : List EccHit) (d : Dev) : Dev :=
  match d.cce.load with
  | some l =>
    let n := min l.count (d.layoutOf l.feed).cover
    let own := !d.bulkHas .fir (4 * n)
    let good := l.goodTaps n ecc d
    let a := l.addr + 4 * good
    let miss := own && decide (good < n) && !(d.canFetch a && d.canFetch (a + 3))
    if l.wait || d.loadWaits .fir (4 * n) || (own && !d.reach 6 l.addr (4 * n)) then d
    else
    let d := if own then (unitRead 6 l.addr (4 * (if miss then good else min n (good + 1))) ecc d).2 else d
    if good < n then fldFail mem good (d.when miss (fetchMiss a))
    else
      let cover := (d.layoutOf l.feed).cover
      let mem := d.loadSrc .fir l.addr (4 * n) (d.seen mem)
      let d := bulkUsed .fir (4 * n) (twBulk l.cmd mem l.addr (4 * n) false d)
      let d := d.onFeed l.feed (fun f => f.setBank (!f.live)
        { f.bank (!f.live) with taps := loadTaps mem l l.count cover, whole := true })
      let d := d.when (decide (cover < l.count)) (fun d => d.evt Ev.CCE_FLD_TRUNC)
      fldEnd ((d.wr R.CCE_FLD_DONE (w32 (min l.count cover))).evt Ev.CCE_FLD_DONE)
  | none => d

/-! ### Register reads and writes (R140) -/

def cceCounters : List Reg :=
  [R.CCE_SWAP_CNT, R.CCE_SWAP_REPL_CNT, R.CCE_SWAP_NOP_CNT, R.CCE_SWAP_LATE_CNT, R.CCE_BFP_UFL_CNT, R.CCE_TAILWAIT_CNT,
   R.CCE_DLYLIM_CNT, R.CCE_ECC_CNT, R.CCE_CYC_PEAK, R.FC_CLIPCNT, R.FC_PEAK]

/-- A write of CCE_CNT_CLR: counters, peaks, and PEAK of every FC_LIM_GR. -/
def cceCntClr (v : Word) (d : Dev) : Dev :=
  d.when (bit v 0) (fun d =>
    (List.range d.crm.nout).foldl (fun d o => d.setF ⟨R.FC_LIM_GR.of o, 16, 16⟩ 0) (d.zeroAll cceCounters))

/-- STATUS (R140): the factor of feed 0 stands for the global one, which every feed shares. RUN as `crmStatus` has it. -/
def cceStatus (d : Dev) : Word :=
  w32 (b2n ((d.cce.feed 0).glob.tgt == 0) * 8 + b2n (d.cce.feeds.any (fun e => e.2.run.isSome)) * 4 +
    b2n d.cce.load.isSome * 2 + b2n d.renders)

/-- FC_SWAP_STAT (R140). -/
def fcSwapStat (d : Dev) (o : Nat) : Word :=
  let f := d.cce.feed o
  let next := match d.cce.blk with
    | some c => if (Tbl.get? d.cce.done o).isSome then c + 1 else c
    | none => d.cce.dep + 1
  let run := d.cce.runOf o
  let left := match run with
    | some r => min (r.start + r.len - next) 127
    | none => 0
  let dip := run.any FSwap.dip
  let qb := match f.queued with
    | some q => q.bank
    | none => false
  w32 (left * 2 ^ 8 + b2n (loading d o) * 32 + b2n qb * 16 + b2n f.queued.isSome * 8 + b2n dip * 4 +
    b2n run.isSome * 2 + b2n f.live)

def fcState (f : Feed) : Word := w32 (b2n f.muted * 4 + b2n f.limAct * 2 + b2n f.eccx)

/-- Registers whose value the engine computes at the read. -/
def cceRead (m : Agent) (off : Nat) (d : Dev) : Option Word :=
  let o := d.feedSel m
  if off = 0x00C then some (cceStatus d)
  else if off = 0x06C then some (w32 (b2n d.cce.load.isSome * 2 ^ 31 + d.f F.CCE_FLD_CTRL_FEED * 2 ^ 16))
  else if off = 0x124 then some (d.rd (R.FC_SOS_SEL.of m.num))
  else if off = 0x12C then
    let b := (d.cce.feed o).bank (bit (d.rd (R.FC_SOS_SEL.of m.num)) 8)
    some (w32 (b2n b.ef * 2 ^ 31 + b.byp))
  else if off = 0x144 then some (fcSwapStat d o)
  else if off = 0x148 then some (fcState (d.cce.feed o))
  else none

/-- A mute write restarts its factor's ramp at the block of R32 (R88, R110, R130). -/
def muteWrite (r : Reg) (who : Which) (v : Word) (d : Dev) : Dev :=
  (d.wr r (w32 (bits v 0 10))).onCce (fun e =>
    { e with aims := e.aims ++ [⟨who, d.effBlk, if bit v 0 then 0 else one30, rampOf (bits v 1 9), false⟩] })

/-- Registers whose write is more than its masks. -/
def cceWrite (m : Agent) (off : Nat) (v : Word) (d : Dev) : Option Dev :=
  if off = 0x01C then some (muteWrite R.CCE_GMUTE .glob v d)
  else if off = 0x020 then some (cceSwap v d)
  else if off = 0x060 || off = 0x064 || off = 0x068 then (if d.cce.load.isSome then some d else none)
  else if off = 0x06C then some (fldGo v d)
  else if off = 0x07C then some (cceCntClr v d)
  else if off = 0x120 then some (fcDlyWrite m v d)
  else if off = 0x124 then some (d.wr (R.FC_SOS_SEL.of m.num) (v &&& 0x800001F7#32))
  else if off = 0x128 then some (sosCoef m true v d)
  else if off = 0x12C then some (sosByp m v d)
  else if off = 0x138 then some (d.when (v = 0#32) (fun d => d.setF ⟨R.FC_LIM_GR.of (d.feedSel m), 16, 16⟩ 0))
  else if off = 0x13C then some (d.when (d.feedSelOk m) (muteWrite (R.FC_MUTE.of (d.feedSel m)) (.user (d.feedSel m)) v))
  else if off = 0x140 then some (fcSwap m v d)
  else none

/-! ### Meanings -/

def execCceFeedBlock (feed cyc : Nat) (tailReady : Bool) (ecc : List StoreHit) (s : State) : Out := ok s (cceFeed feed cyc tailReady ecc)
def execTailWaitEnd (feed cyc : Nat) (s : State) : Out := ok s (tailWaitEnd feed cyc)
def execFcDlyWrite (m : Agent) (v : Word) (s : State) : Out := okRs m R.FC_DLY v s (fcDlyWrite m v)
def execFcSosCoefAccess (m : Agent) (write : Bool) (v : Word) (s : State) : Out :=
  okBy m R.FC_SOS_COEF.addr v s (fun d => if write then rsGate m R.FC_SOS_COEF v (sosCoef m write v) d else sosCoef m write v d) write
def execFcSosBypWrite (m : Agent) (v : Word) (s : State) : Out := okRs m R.FC_SOS_BYP v s (sosByp m v)
def execFldGo (m : Agent) (v : Word) (s : State) : Out := okRs m R.CCE_FLD_CTRL v s (fldGo v)
def execFldStartAfterSwap (s : State) : Out := ok s fldStart
def execFldDone (ecc : List EccHit) (s : State) : Out := ok s (fldDone s.mem ecc)
def execFldErr (done : Nat) (s : State) : Out := ok s (fldFail s.mem done)
def execFcSwap (m : Agent) (v : Word) (s : State) : Out := okRs m R.FC_SWAP v s (fcSwap m v)
def execCceSwap (m : Agent) (v : Word) (s : State) : Out := okRs m R.CCE_SWAP v s (cceSwap v)
def execCceCntClr (m : Agent) (v : Word) (s : State) : Out := okBy m R.CCE_CNT_CLR.addr v s (cceCntClr v)

end Sys2Proof.Machine
end

