-- ==== Sys2Proof/Machine/Analog.lean ====
section
/-!
DEFINITION. Analog inputs, mic biases and jack sensing (10_analog_inputs.md R292 to R319).
Marks (notes/assumptions): DEDUCED 58, 60, 102; DESIGN CHOICE 59.
-/
namespace Sys2Proof.Machine

def Dev.onAi (d : Dev) (g : AnalogIn → AnalogIn) : Dev := { d with ai := g d.ai }
def Dev.ain (d : Dev) (n : Nat) : Ain := Tbl.getD d.ai.ain n .off
def Dev.setAinX (d : Dev) (n : Nat) (x : Ain) : Dev := d.onAi (fun a => { a with ain := Tbl.set a.ain .off n x })
def Dev.mb (d : Dev) (k : Nat) : Bias := Tbl.getD d.ai.mb k .off
def Dev.ainSel (d : Dev) (m : Agent) : Nat := Reg.idx d R.AIN_SEL m

/-! ### Mic bias state -/

/-- The bias that an input names: 1 or 2 (R308). -/
def Dev.biasOf (d : Dev) (n : Nat) : Option Nat :=
  let b := d.f (F.AI_CFG_BIAS.of n)
  if b = 1 ∨ b = 2 then some (b - 1) else none

/-- What a bias does to block `c` of its inputs: 0 mutes, 1 ramps in, 2 passes (R308). -/
def Bias.gate (x : Bias) (c : Nat) : Nat :=
  let on : Nat := match x.rampAt with
    | some r => if c < r then 0 else if c = r then 1 else 2
    | none => 2
  if x.step = 18 then on
  else
    match x.muteAt with
    | some q => if c < q then on else 0
    | none => 0

def Dev.inGate (d : Dev) (n c : Nat) : Nat :=
  match d.biasOf n with
  | some k => (d.mb k).gate c
  | none => 2

/-- Is the input muted because its bias is not at step 18 (R308)? -/
def Dev.muted (d : Dev) (n : Nat) : Bool :=
  match d.biasOf n with
  | some k => (d.mb k).step != 18
  | none => false

/-- An input with AI_STATUS and STATUS in block `c`: VALID needs its bias at step 18 (R300, R308). -/
def Dev.setAinIn (d : Dev) (c n : Nat) (x : Ain) : Dev :=
  let muted := d.muted n
  let en := d.fb (F.AI_CFG_EN.of n)
  let valid := en && x.ready && !muted && d.inGate n c != 0
  let x := if valid then x else { x with above := false, low := 0 }
  let d := d.setAinX n x
  let w := b2n valid * 2 ^ 31 + b2n (x.fast && en) * 2 ^ 30 + b2n muted * 2 ^ 29 + b2n x.above * 2 ^ 28 + x.pga
  let d := d.wr (R.AI_STATUS.of n) (w32 w)
  d.wr (statusReg 10) (setBits (setBits (d.rd (statusReg 10)) (8 + n) 1 (b2n valid)) (16 + n) 1 (b2n (x.fast && en)))

/-- The same in the block that is being received. -/
def Dev.setAin (d : Dev) (n : Nat) (x : Ain) : Dev := d.setAinIn d.nextDep n x

def Dev.refreshAin (c : Nat) (d : Dev) : Dev := (List.range 8).foldl (fun d n => d.setAinIn c n (d.ain n)) d

/-- HELD of a jack pin: its bias is not at step 0; its debounce count restarts (R315). -/
def jdHeld (d : Dev) (n : Nat) : Dev :=
  let b := bits (d.rd R.JD_CFG) (16 + 2 * n) 2
  let held := (b == 1 || b == 2) && (d.mb (b - 1)).step != 0
  let d := d.wr R.JD_STATUS (setBits (d.rd R.JD_STATUS) (4 * n + 3) 1 (b2n held))
  d.when held (fun d => d.onAi (fun a => { a with jd := Tbl.set a.jd .reset n .reset }))

/-- A bias with MB_STATUS, its inputs and its jack pins. -/
def Dev.setMb (d : Dev) (k : Nat) (x : Bias) : Dev :=
  let d := d.onAi (fun a => { a with mb := Tbl.set a.mb .off k x })
  let w := b2n x.lim * 128 + b2n (x.step == 18) * 64 + b2n x.up * 32 + x.step
  let d := d.wr R.MB_STATUS (setBits (d.rd R.MB_STATUS) (8 * k) 8 w)
  (List.range 4).foldl jdHeld (d.refreshAin d.nextDep)

/-! ### Inputs (R292 to R301) -/

/-- The largest gain code of a mode (R293). -/
def pgaMax (mic : Bool) : Nat := if mic then 120 else 24
def Dev.pgaTarget (d : Dev) (n : Nat) : Nat := min (d.f (F.AI_CFG_PGA.of n)) (pgaMax (d.fb (F.AI_CFG_MODE.of n)))

/-- A synchronising reset at block `b` (R299, R300): the decimation state is cleared, the block being gathered carries zeros. -/
def aiResetAt (b n : Nat) (d : Dev) : Dev :=
  let x := d.ain n
  d.setAin n { Ain.off with rst := some b, pga := x.pga, syncs := x.syncs, wait := x.wait,
                            buf := Tbl.drop x.buf (fun i => decide (32 * b ≤ i)) }

/-- The current gain code becomes `c` (R294). -/
def pgaMove (n c : Nat) (d : Dev) : Dev :=
  let x := d.ain n
  let d := d.setAin n { x with pga := c, cross := false, wait := 0 }
  d.when (x.pga != c && c == d.pgaTarget n) (fun d => d.setF (F.AI_EVT_PGA_DONE.of n) 1)

/-- A write of AI_CFG (R293, R294, R299, R301). -/
def aiCfgWrite (n : Nat) (v : Word) (d : Dev) : Dev :=
  d.when (d.cap.analog && decide (n < 8)) (fun d =>
    let was := d.rd (R.AI_CFG.of n)
    let held : Word := 0x43000000#32
    let clash := bit was 31 && (was ^^^ v) &&& held ≠ 0#32
    let v := (if clash then merge v held was else v) &&& 0xF300007F#32
    let d := (d.wr (R.AI_CFG.of n) v).when clash (fun d => d.evt ⟨10, 15⟩)
    let d := d.when (!bit v 29) (fun d => pgaMove n (d.pgaTarget n) d)
    if bit v 31 && !bit was 31 then aiResetAt d.effBlk n d
    else if !bit v 31 && bit was 31 then
      let x := d.ain n
      d.setAin n { Ain.off with pga := x.pga, buf := Tbl.drop x.buf (fun i => decide (32 * d.effBlk ≤ i)) }
    else d.setAin n { d.ain n with syncs := if bit v 31 then (d.ain n).syncs else [] })

/-- A write of AI_SYNC (R299). -/
def aiSync (v : Word) (d : Dev) : Dev :=
  d.when d.cap.analog (fun d =>
    let at0 := pair (d.rd R.AI_SYNC_AT_LO) (d.rd R.AI_SYNC_AT_HI)
    let timed := bit v 31
    let late := timed && decide (at0 < d.effBlk)
    let b := if timed then max at0 d.effBlk else d.effBlk
    let d := d.when late (fun d => d.evt ⟨10, 12⟩)
    (List.range 8).foldl (fun d n =>
      d.when (bit v n) (fun d =>
        if b = d.effBlk then d.when (d.fb (F.AI_CFG_EN.of n)) (aiResetAt b n)
        else d.setAinX n { d.ain n with syncs := (d.ain n).syncs ++ [b] })) d)

/-- Block `b` begins: timed resets act, ramps and mutes of biases take hold (R299, R308). -/
def aiBegin (b : Nat) (d : Dev) : Dev :=
  ((List.range 8).foldl (fun d n =>
    let x := d.ain n
    let due := x.syncs.any (fun c => decide (c ≤ b))
    let d := d.when due (fun d => d.setAinX n { x with syncs := x.syncs.filter (fun c => decide (b < c)) })
    d.when (due && d.fb (F.AI_CFG_EN.of n)) (aiResetAt b n)) d).refreshAin b

/-- Sample 40 of the resets at block `g` (R300). -/
def syncDone (g : Nat) (d : Dev) : Dev :=
  let mine (d : Dev) (n : Nat) : Bool := (d.ain n).rst == some g && !(d.ain n).ready && d.fb (F.AI_CFG_EN.of n)
  let any := (List.range 8).any (mine d)
  let d := (List.range 8).foldl (fun d n =>
    d.when (mine d n) (fun d => (d.setAin n { d.ain n with ready := true }).setF (F.AI_EVT_VALID.of n) 1)) d
  d.when any (fun d => d.evt ⟨10, 11⟩)

/-- Sample 3 after the reset: the fast path carries data (R300). -/
def fvalidSet (n : Nat) (d : Dev) : Dev :=
  d.when (d.fb (F.AI_CFG_EN.of n) && (d.ain n).rst.isSome) (fun d => d.setAin n { d.ain n with fast := true })

/-- The gain moves one code toward its target, at a change of the fast path's sign, or (`goal`) once AI_ZCTO samples have brought none (R294). -/
def pgaStep (n : Nat) (goal : Bool) (d : Dev) : Dev :=
  let x := d.ain n
  let t := d.pgaTarget n
  let due := if goal then decide (max 1 (d.f (F.AI_ZCTO_TO.of n)) ≤ x.wait) else x.cross
  d.when (x.pga != t && d.fb (F.AI_CFG_PGAZC.of n) && due) (fun d =>
    let d := d.when goal (fun d => d.setF (F.AI_EVT_PGA_TO.of n) 1)
    pgaMove n (if x.pga < t then x.pga + 1 else x.pga - 1) d)

/-- The code of a level in 1/64 dBFS below full scale (R302). -/
def dbCode (k : Nat) : Nat := dbFloor (-(k : Int)) 31

/-- A threshold field limited to -6144 .. 0 (R302), as a number of 1/64 dB below full scale. -/
def thrBelow (v : Nat) : Nat := let s := sgn 16 v; if s > 0 then 0 else min s.natAbs 6144

/-- The level detector on one valid sample of magnitude `a` (R302, R303). -/
def detect (n a : Nat) (d : Dev) : Dev :=
  let x := d.ain n
  let on := thrBelow (d.f (F.AI_THR_ON.of n))
  let off := max on (thrBelow (d.f (F.AI_THR_OFF.of n)))
  if !x.above then
    d.when (decide (dbCode on ≤ a)) (fun d =>
      (d.setAin n { x with above := true, low := 0 }).setF (F.AI_EVT_THR_ON.of n) 1)
  else d.setAinX n { x with low := if dbCode off ≤ a then 0 else x.low + 1 }

/-- One modulator word, -2 to +2, through the integrators; they wrap (R296). -/
def Cic.push (c : Cic) (v : Int) : Cic :=
  let i1 := c.i1 + BitVec.ofInt 23 v
  let i2 := c.i2 + i1
  let i3 := c.i3 + i2
  let i4 := c.i4 + i3
  { c with i1 := i1, i2 := i2, i3 := i3, i4 := i4, i5 := c.i5 + i4 }

/-- The combs take the last integrator; the output, signed, and the decimator after it (R296). -/
def Cic.pull (c : Cic) : Int × Cic :=
  let d1 := c.i5 - c.c1
  let d2 := d1 - c.c2
  let d3 := d2 - c.c3
  let d4 := d3 - c.c4
  let d5 := d4 - c.c5
  (d5.toInt, { c with c1 := c.i5, c2 := d1, c3 := d2, c4 := d3, c5 := d4 })

/-- A modulator word of five levels. -/
def level (w : Fin 5) : Int := (w.val : Int) - 2

/-- Sixteen modulator words: one output at 8 fs. -/
def Cic.run (c : Cic) (ws : List (Fin 5)) : Int × Cic := (ws.foldl (fun c w => c.push (level w)) c).pull

/-- The CIC outputs that the filters behind it see: their delay is at most 40 samples, and their response is symmetric (R295). -/
def cicDepth : Nat := 640

/-- Element `i` of a sequence, 0 beyond its end. -/
def tapOf (xs : List Int) (i : Nat) : Int := (xs[i]?).getD 0

/-- A symmetric filter whose coefficients from its centre outward are `cs`, with one centre, or (`even`) two, on a sequence, latest first. -/
def symFir (cs : List Int) (even : Bool) (xs : List Int) : Int :=
  let m := cs.length
  cs.zipIdx.foldl (fun y e =>
    let lo := m - 1 - e.2
    let hi := if even then m + e.2 else m - 1 + e.2
    y + e.1 * (if lo = hi then tapOf xs lo else tapOf xs lo + tapOf xs hi)) 0

/-- A half-band filter: a centre of 1/2, and coefficients at its odd distances alone. -/
def halfBand (side : List Int) (frac : Nat) (xs : List Int) : Int :=
  let m := 2 * side.length - 1
  side.zipIdx.foldl (fun y e => y + e.1 * (tapOf xs (m - 2 * e.2 - 1) + tapOf xs (m + 2 * e.2 + 1))) (2 ^ (frac - 1) * tapOf xs m)

/-- Half-band stage `k`: every second value of the filtered sequence, narrowed (R295). -/
def halve (k : Nat) (xs : List Int) : List Int :=
  (List.range (xs.length / 2)).map (fun i => narrow (halfBand (Config.adcHalf k) (Config.adcFrac k) (xs.drop (2 * i))) (Config.adcFrac k))

/-- Stages 2 and 3 of the fine path: two half-band stages and the FIR on the latest CIC outputs, latest first (R295). -/
def adcFine (cic : List Int) : Int := narrow (symFir Config.adcFir Config.adcFirEven (halve 1 (halve 0 cic))) (Config.adcFrac 2)

/-- The fast path's four taps on the latest CIC outputs, saturated (R304). -/
def adcFast (cic : List Int) : Int :=
  sat 32 (narrow ((List.range 4).foldl (fun y i => y + Config.adcFast i * tapOf cic i) 0) (Config.adcFrac 3))

/-- The pole of the high-pass filter, Q1.31, at a rate in Hz: its corner is 1.0 Hz, so that `2^31 (1 - pole)` lies between 0.95 and 1.05 times
`2^31 * 2 pi / rate` (R297). -/
def hpfPole (rate : Nat) : Nat := 2 ^ 31 - (12818385819 / rate + Config.hpfPole rate % (1349303771 / rate + 1))

/-- The 128 words of a sample at fs: eight outputs of the CIC, and as many samples of the fast path (R295, R304). -/
def Ain.take (x : Ain) (ws : List (Fin 5)) : Ain :=
  (List.range 8).foldl (fun x k =>
    let (v, c) := x.cic.run ((ws.drop (16 * k)).take 16)
    let out := (v :: x.out).take cicDepth
    { x with cic := c, out := out, quick := (x.quick ++ [if x.fast then adcFast out else 0]).drop (x.quick.length - 7) }) x

/-- The high-pass filter on one sample; it has no state while it is off (R297). -/
def Hpf.run (h : Hpf) (pole : Nat) (on : Bool) (x : Int) : Int × Hpf :=
  if on then
    let y := x - h.x + narrow (pole * h.y) 31
    (y, ⟨x, y⟩)
  else (x, .reset)

/-- Samples 3 and 40 after a reset are reached by the first sample from there on, where no command has said so before (R300). -/
def aiReach (n idx : Nat) (d : Dev) : Dev :=
  match (d.ain n).rst with
  | none => d
  | some b =>
    let d := d.when (decide (32 * b + 3 ≤ idx) && !(d.ain n).fast) (fvalidSet n)
    d.when (decide (32 * b + 40 ≤ idx) && !(d.ain n).ready) (syncDone b)

/-- The sample of index `idx` at fs of input `n` is formed of its 128 modulator words (R295 to R304, R308). -/
def adcSample (n idx : Nat) (ws : List (Fin 5)) (overload : Bool) (d : Dev) : Dev :=
  d.when (d.fb (F.AI_CFG_EN.of n)) (fun d =>
    let d := aiReach n idx d
    let s0 := d.ain n
    let was := s0.quick.getLast?
    let s := s0.take ws
    let (x, h) := s.hpf.run (hpfPole d.rate) (d.fb (F.AI_CFG_HPF.of n)) (adcFine s.out)
    let cross := match was, s.quick.getLast? with
      | some u, some v => decide (u < 0) != decide (v < 0)
      | _, _ => false
    let moving := s.pga != d.pgaTarget n && d.fb (F.AI_CFG_PGAZC.of n)
    let s := { s with hpf := h, cross := cross, wait := if moving then s.wait + 1 else 0 }
    let d := d.setAinX n s
    let data := match s.rst with
      | some b => decide (32 * b + 40 ≤ idx)
      | none => false
    let g := d.inGate n (idx / 32)
    let y := sat 32 x
    let clip := overload || (data && g != 0 && y != x)
    let d := d.when clip (fun d =>
      ((d.setBit R.AI_CLIP n).bump (R.AI_CLIPCNT.of n)).setF (F.AI_EVT_CLIP.of n) 1)
    d.when (data && g != 0) (fun d =>
      let z := if g = 1 then y * (idx % 32 + 1 : Nat) / 32 else y
      let d := d.setAinX n { s with buf := Tbl.set s.buf 0#32 idx (wOfInt z) }
      let d := d.peakF (F.AI_PEAK_MAG.of n) (min z.natAbs (2 ^ 31 - 1))
      d.when (!d.muted n) (detect n z.natAbs)))

/-- AI_THR_TIME of consecutive samples below OFF (R302). -/
def thrOff (n : Nat) (d : Dev) : Dev :=
  let x := d.ain n
  let ms := max 1 (d.f (F.AI_THR_TIME_MS.of n))
  d.when (x.above && decide (ms * d.rate ≤ x.low * 1000)) (fun d =>
    (d.setAin n { x with above := false, low := 0 }).setF (F.AI_EVT_THR_OFF.of n) 1)

/-- The ADC group delivers block `b` to QID 292, or discards it (R292). `render` is false in Shunt and Halt (R310). -/
def aiDeliver (b : Nat) (render : Bool) (d : Dev) : Dev :=
  d.when d.cap.analog (fun d =>
    let ch := (List.range 8).map (fun n => (n, (List.range 32).map (fun j => Tbl.getD (d.ain n).buf (32 * b + j) 0#32)))
    let d := (List.range 8).foldl (fun d n =>
      d.setAinX n { d.ain n with buf := Tbl.drop (d.ain n).buf (fun i => decide (i < 32 * (b + 1))) }) d
    if !render || (d.q.get 292).d == 0 then d
    else if (d.q.get 292).h = 0 then (d.bump R.AI_OVR_CNT).evt ⟨10, 13⟩
    else d.onQ (fun q => q.push 292 ⟨b, ch⟩))

/-! ### Mic bias (R305 to R309) -/

def mbCtrl (k : Nat) : Reg := if k = 0 then R.MB_CTRL1 else R.MB_CTRL2

/-- The bias moves one step (R306 to R308). -/
def mbMove (k : Nat) (d : Dev) : Dev :=
  let x := d.mb k
  let up := bit (d.rd (mbCtrl k)) 31
  let s := if up then min (x.step + 1) 18 else x.step - 1
  let next := d.nextDep + 1
  let y : Bias := { x with step := s, up := up }
  let y := if s = 18 ∧ x.step ≠ 18 then { y with rampAt := some next, muteAt := none }
    else if x.step = 18 ∧ s ≠ 18 then { y with muteAt := some next } else y
  let d := d.setMb k y
  d.when (s != x.step && (s == 0 || s == 18)) (fun d => d.evt ⟨10, 10⟩)

/-- A write of MB_CTRL: LEVEL at step 0 only; EN requests a direction, which acts at once at rest (R305 to R307). -/
def mbCtrlWrite (k : Nat) (v : Word) (d : Dev) : Dev :=
  d.when (d.cap.analog && decide (k < 2)) (fun d =>
    let was := d.rd (mbCtrl k)
    let x := d.mb k
    let clash := x.step != 0 && bits was 0 2 != bits v 0 2
    let v := (if clash then merge v 3#32 was else v) &&& 0x80000003#32
    let d := (d.wr (mbCtrl k) v).when clash (fun d => d.evt ⟨10, 15⟩)
    d.when ((x.step == 0 && bit v 31) || (x.step == 18 && !bit v 31)) (mbMove k))

/-- Whether a bias's current limit acts, as its load shows it: only while the bias is driven, from step 2 on (R305, R318). -/
def mbLimit (k : Nat) (lim : Bool) (d : Dev) : Dev :=
  d.setMb k { d.mb k with lim := lim && decide (2 ≤ (d.mb k).step) }

def mbDwellEnd (k : Nat) (lim : Bool) (d : Dev) : Dev :=
  d.when (decide (0 < (d.mb k).step) && decide ((d.mb k).step < 18)) (fun d => mbLimit k lim (mbMove k d))

/-- An overcurrent: step 1 at once, EN clears (R309). -/
def mbOc (k : Nat) (d : Dev) : Dev :=
  let x := d.mb k
  d.when (decide (2 ≤ x.step)) (fun d =>
    let d := d.wr (mbCtrl k) (d.rd (mbCtrl k) &&& 0x7FFFFFFF#32)
    let y : Bias := { x with step := 1, up := false, lim := false, muteAt := if x.step = 18 then some (d.nextDep + 1) else x.muteAt }
    (d.setMb k y).evt ⟨10, 8⟩)

/-- An open load, which no limit acts on (R309). -/
def mbOpen (k : Nat) (d : Dev) : Dev := d.when ((d.mb k).step == 18) (fun d => mbLimit k false (d.evt ⟨10, 9⟩))

/-! ### Jack sensing (R312 to R316) -/

/-- The class of a resistance (R313). -/
def jackClass (r : Nat) : Nat :=
  if 1000000 ≤ r then 0 else if r < 200 then 1 else if 600 ≤ r ∧ r < 4700 then 2
  else if 10000 ≤ r ∧ r < 200000 then 3 else 4

/-- A measurement of JD(n + 1), unless the pin is off or held (R312, R315). -/
def jackMeasure (n ohms : Nat) (d : Dev) : Dev :=
  d.when (bit (d.rd R.JD_CFG) (28 + n) && !bit (d.rd R.JD_STATUS) (4 * n + 3)) (fun d =>
    let c := jackClass ohms
    let x := Tbl.getD d.ai.jd n .reset
    let y : Jack := ⟨c, if x.cls = c then x.cnt + 1 else 1⟩
    (d.onAi (fun a => { a with jd := Tbl.set a.jd .reset n y })).wr (R.JD_RES.at n) (w32 (min ohms 0x3FFFFF)))

/-- The class becomes the accepted type after DEB measurements, with one event (R314). Answers whether it wakes the part
from Depot (R316). -/
def jackAccept (n : Nat) (d : Dev) : Bool × Dev :=
  let x := Tbl.getD d.ai.jd n .reset
  let old := bits (d.rd R.JD_STATUS) (4 * n) 3
  let deb := max 1 (d.f F.JD_CFG_DEB)
  if x.cnt < deb ∨ x.cls = old then (false, d)
  else
    let e := if old = 0 then n else if x.cls = 0 then 4 + n else 8 + n
    let d := (d.wr R.JD_STATUS (setBits (d.rd R.JD_STATUS) (4 * n) 3 x.cls)).setBit R.JD_EVT e
    (decide (e < 8) && bit (d.rd R.JD_CFG) (24 + n), d)

def jdCfgWrite (v : Word) (d : Dev) : Dev := (List.range 4).foldl jdHeld (d.wr R.JD_CFG (v &&& 0xFFFF00F1#32))

/-! ### Registers, reset and Siding (R310, R318) -/

def aiCntClr (v : Word) (d : Dev) : Dev := d.when (bit v 0) (fun d => d.zeroAll [R.AI_OVR_CNT, R.AI_CLIPCNT, R.AI_PEAK])

/-- The reset of the block: registers clear, inputs off, biases pulled down with no sequence (R310). -/
def aiReset (d : Dev) : Dev :=
  let d := (d.resetRegs 10).onAi (fun a => { a with ain := [], mb := [] })
  (List.range 4).foldl jdHeld (d.onQ (fun q => q.renew 292))

/-- Entering Siding: conversion stops, biases go to step 0 with no sequence (R310). -/
def aiSiding (d : Dev) : Dev :=
  let d := (List.range 8).foldl (fun d n => d.setAinX n { Ain.off with pga := (d.ain n).pga }) d
  (List.range 2).foldl (fun d k => d.setMb k .off) d

/-- Leaving Siding: biases with EN = 1 run up, enabled inputs take a synchronising reset (R299, R310). -/
def aiWake (d : Dev) : Dev :=
  let d := (List.range 2).foldl (fun d k => d.when (bit (d.rd (mbCtrl k)) 31) (mbMove k)) d
  (List.range 8).foldl (fun d n => d.when (d.fb (F.AI_CFG_EN.of n)) (aiResetAt d.effBlk n)) d

def aiRead (off : Nat) (d : Dev) : Option Word := if off = 0x004 then some d.aiEvt else none

def aiWrite (m : Agent) (off : Nat) (v : Word) (d : Dev) : Option Dev :=
  if off = 0x010 then some (aiSync v d)
  else if off = 0x020 || off = 0x024 then some (mbCtrlWrite ((off - 0x020) / 4) v d)
  else if off = 0x034 then some (aiCntClr v d)
  else if off = 0x100 then some (d.when (decide (d.ainSel m < 8)) (aiCfgWrite (d.ainSel m) v))
  else none

/-! ### Meanings -/

def execAiEnable (m : Agent) (v : Word) (s : State) : Out := okBy m R.AI_CFG.addr v s (fun d => aiCfgWrite (d.ainSel m) v d)
def execAiDisable (m : Agent) (v : Word) (s : State) : Out := okBy m R.AI_CFG.addr v s (fun d => aiCfgWrite (d.ainSel m) v d)
def execAiSync (m : Agent) (v : Word) (s : State) : Out := okBy m R.AI_SYNC.addr v s (aiSync v)
def execSyncDone (g : Nat) (s : State) : Out := ok s (syncDone g)
def execFvalidSet (n : Fin 8) (s : State) : Out := ok s (fvalidSet n.val)
def execPgaWrite (m : Agent) (v : Word) (s : State) : Out := okBy m R.AI_CFG.addr v s (fun d => aiCfgWrite (d.ainSel m) v d)
def execPgaStep (n : Fin 8) (s : State) : Out := ok s (pgaStep n.val false)
def execPgaTo (n : Fin 8) (s : State) : Out := ok s (pgaStep n.val true)
def execAdcSample (n : Fin 8) (idx : Nat) (ws : List (Fin 5)) (overload : Bool) (s : State) : Out :=
  ok s (adcSample n.val idx ws overload)
def execThrOff (n : Fin 8) (s : State) : Out := ok s (thrOff n.val)
def execMbEnable (m : Agent) (k : Fin 2) (v : Word) (s : State) : Out := okBy m ((⟨10, 0x20 + 4 * k.val, 0, 0, 0, 0⟩ : Reg).addr) v s (mbCtrlWrite k.val v)
def execMbDisable (m : Agent) (k : Fin 2) (v : Word) (s : State) : Out := okBy m ((⟨10, 0x20 + 4 * k.val, 0, 0, 0, 0⟩ : Reg).addr) v s (mbCtrlWrite k.val v)
def execMbDwellEnd (k : Fin 2) (lim : Bool) (s : State) : Out := ok s (mbDwellEnd k.val lim)
def execMbOc (k : Fin 2) (s : State) : Out := ok s (mbOc k.val)
def execMbOpen (k : Fin 2) (s : State) : Out := ok s (mbOpen k.val)
def execAiCntClr (m : Agent) (v : Word) (s : State) : Out := okBy m R.AI_CNT_CLR.addr v s (aiCntClr v)
def execJackMeasure (n : Fin 4) (ohms : Nat) (s : State) : Out := okAny s (jackMeasure n.val ohms)

end Sys2Proof.Machine
end

