-- ==== Sys2Proof/Machine/Aout.lean ====
section
/-!
DEFINITION. Analog outputs, headphones and the express path (11_analog_outputs.md R320 to R336).
Marks (notes/assumptions): DESIGN CHOICE 61, 106; DEDUCED 62.
-/
namespace Sys2Proof.Machine

def Dev.aout (d : Dev) (c : Nat) : Aout := Tbl.getD d.ao.ch c .reset
def Dev.aoutSel (d : Dev) (m : Agent) : Nat := Reg.idx d R.AOUT_SEL m

/-- A channel with AO_STATUS, AO_SOS_CTRL.PEND and STATUS: the shunt is closed at steps 0 and 1, the charge pump runs while a
headphone channel is above step 0 (R325, R329, R336). -/
def Dev.setAout (d : Dev) (c : Nat) (x : Aout) : Dev :=
  let d := { d with ao := { d.ao with ch := Tbl.set d.ao.ch .reset c x } }
  let w := x.span * 256 + b2n x.run * 64 + b2n x.lim * 32 + b2n (decide (x.step ≤ 1)) * 16 + b2n x.up * 8 + x.step
  let d := (d.wr (R.AO_STATUS.of c) (w32 w)).wr (R.AO_SOS_CTRL.of c) (w32 (b2n x.pend.isSome * 2 ^ 31))
  let cp := (List.range 4).any (fun k => (d.aout (8 + k)).step != 0)
  d.wr (statusReg 11) (setBits (setBits (d.rd (statusReg 11)) (16 + c) 1 (b2n (x.step == 4))) 8 1 (b2n cp))

def Dev.aoWant (d : Dev) (c : Nat) : Nat := d.f (F.AO_CFG_SPAN.of c)

/-! ### The sequencer (R326 to R328, R331) -/

/-- Should a channel at its step move up? The mode first, then a span that differs from the applied one, then EN. -/
def Dev.aoUp (d : Dev) (c : Nat) : Bool :=
  let x := d.aout c
  d.fb (F.AO_CFG_EN.of c) && d.ao.force != .down && !(d.ao.force == .hold && decide (1 ≤ x.step)) &&
    !(decide (2 ≤ x.step) && d.aoWant c != x.span)

/-- A channel enters a step: entry to step 1 or 0 applies the span, reaching step 0 or 4 sets SEQ_DONE (R326, R328). -/
def aoEnter (c s : Nat) (up : Bool) (d : Dev) : Dev :=
  let x := d.aout c
  let apply := s ≤ 1 && d.aoWant c != x.span
  let y : Aout := { x with step := s, up := up, track := 0 }
  let y := if s ≤ 2 then { y with y := 0, lim := false, out := 0 } else y
  let y := if apply then { y with span := d.aoWant c } else y
  let y := if s = 4 then { y with run := false, fade := .fadeIn, fadeAt := if x.fade = .fadeOut then 256 - x.fadeAt else 0 } else if s = 0 then { y with run := false } else y
  let d := d.setAout c y
  let d := d.when apply (fun d => d.setF (F.AO_EVT_SPAN_DONE.of c) 1)
  d.when ((s == 0 || s == 4) && x.step != s) (fun d => d.setF (F.AO_EVT_SEQ_DONE.of c) 1)

/-- A channel at rest at step 0 starts up as soon as it is requested. -/
def aoKick (d : Dev) (c : Nat) : Dev :=
  d.when ((d.aout c).step == 0 && d.aoUp c) (aoEnter c 1 true)

/-- The dwell of step 1 or 2 ends (R326, R327); in Shunt a channel stays at step 1 (R331). -/
def aoDwellEnd (c : Nat) (d : Dev) : Dev :=
  let x := d.aout c
  if x.step = 1 then
    if d.aoUp c then aoEnter c 2 true d
    else if d.ao.force = .down ∨ !d.fb (F.AO_CFG_EN.of c) then aoEnter c 0 false d
    else d
  else if x.step = 2 then
    if d.aoUp c then aoEnter c 3 true d else aoEnter c 1 false d
  else d

/-- A write of AO_CFG: EN, and a span that applies at once at step 0 or 1, with SPAN_DONE where it is a new one, or starts or ends a span run (R322, R326, R328). -/
def aoCfgWrite (c : Nat) (v : Word) (d : Dev) : Dev :=
  d.when (d.cap.analog && decide (c < 12)) (fun d =>
    let x := d.aout c
    let was := d.aoWant c
    let v := v &&& (if c < 8 then 0x83000000#32 else 0x80000000#32)
    let d := d.wr (R.AO_CFG.of c) v
    let want := d.aoWant c
    let y : Aout := if x.step ≤ 1 then { x with span := want }
      else if want ≠ x.span then { x with run := true }
      else if was ≠ x.span then { x with run := false }
      else x
    let d := d.when (decide (x.step ≤ 1) && want != x.span) (fun d => d.setF (F.AO_EVT_SPAN_DONE.of c) 1)
    aoKick (d.setAout c y) c)

/-! ### The express path (R332 to R334) -/

def Dev.exRamp (d : Dev) (k : Nat) : ExRamp := Tbl.getD d.ao.ex k .rest
def Dev.setExRamp (d : Dev) (k : Nat) (x : ExRamp) : Dev := { d with ao := { d.ao with ex := Tbl.set d.ao.ex .rest k x } }

/-- The gain multiplier an express path moves to, Q3.29: 0 at EN = 0 and at silence (R111, R332). -/
def Dev.exGain (d : Dev) (k : Nat) : Int :=
  if d.fb (F.EX_CFG_EN.at k) then trimMul (w32 (d.f (F.EX_CFG_GAIN.at k))) else 0

/-- The multiplier at the ramp's present tick: linear over 256 ticks of 8 fs. -/
def Dev.exNow (d : Dev) (k : Nat) : Int :=
  let x := d.exRamp k
  x.g0 + narrow ((d.exGain k - x.g0) * min x.t 256) 8

/-- A write of EX_CFGk: SRC and DST stay while ACT = 1 (R334); a new gain ramps from the present one (R332). -/
def exCfgWrite (k : Nat) (v : Word) (d : Dev) : Dev :=
  d.when d.cap.analog (fun d =>
    let was := d.rd (R.EX_CFG.at k)
    let old := d.exGain k
    let now := d.exNow k
    let act := bit was 30
    let fixed : Word := 0x070F0000#32
    let clash := act && (was ^^^ v) &&& fixed ≠ 0#32
    let v := (if clash then merge v fixed was else v) &&& 0x870FFFFF#32
    let d := d.wr (R.EX_CFG.at k) (v ||| (if act || bit v 31 then 0x40000000#32 else 0#32))
    let d := d.when (d.exGain k != old) (fun d => d.setExRamp k ⟨now, 0⟩)
    d.when clash (fun d => d.evt Ev.AO_CFG))

/-- An express gain ramp ends; after EN = 0 the path no longer contributes. -/
def rampDone (k : Nat) (d : Dev) : Dev :=
  let d := d.setExRamp k ⟨d.exGain k, 256⟩
  d.when (!d.fb (F.EX_CFG_EN.at k)) (fun d => (d.setF (F.EX_CFG_ACT.at k) 0).setExRamp k .rest)

/-- Does path `k` contribute to channel `c`? -/
def Dev.exOn (d : Dev) (c k : Nat) : Bool := d.fb (F.EX_CFG_ACT.at k) && d.f (F.EX_CFG_DST.at k) == c

/-- What path `k` contributes at tick `j` of the eight of a sample: its source's fast path times its gain; 0 while the source's FVALID is 0. -/
def Dev.exPart (d : Dev) (k j : Nat) : Int :=
  let s := d.ain (d.f (F.EX_CFG_SRC.at k))
  let fv := s.fast && d.fb (F.AI_CFG_EN.of (d.f (F.EX_CFG_SRC.at k)))
  if fv then narrow ((s.quick[j]?).getD 0 * d.exNow k) 29 else 0

/-- The fade's factor, of 256 (R333). -/
def Aout.fadeNow (x : Aout) : Nat :=
  match x.fade with
  | .out => 0
  | .fadeIn => min x.fadeAt 256
  | .full => 256
  | .fadeOut => 256 - x.fadeAt

/-- The express sum of channel `c`, faded (R332, R333). -/
def Dev.exSum (d : Dev) (c : Nat) : Int :=
  let x := d.aout c
  let sum := ((List.range 8).filter (d.exOn c)).foldl (fun n k => n + d.exPart k (x.tick % 8)) 0
  narrow (sum * x.fadeNow) 8

/-- `n` ticks of 8 fs pass for channel `c`, its fade and the paths to it. -/
def aoTick (c n : Nat) (d : Dev) : Dev :=
  let x := d.aout c
  let d := d.setAout c { x with tick := min 255 (x.tick + n), fadeAt := min 256 (x.fadeAt + n) }
  ((List.range 8).filter (d.exOn c)).foldl (fun d k => d.setExRamp k { d.exRamp k with t := min 256 ((d.exRamp k).t + n) }) d

/-! ### The slew limiter and the output (R321, R324, R332) -/

/-- The samples of the block being played, as the twin's gate of local outputs passes them (12_twin.md R350). -/
def Dev.aoPlayed (d : Dev) (x : Aout) : List Word := x.play.zipIdx.map (fun e => d.twGate x.blk e.2 e.1)

/-- The interpolated sample at channel `c`'s present tick (R321). -/
def Dev.aoInput (d : Dev) (c : Nat) : Int :=
  let x := d.aout c
  Config.aoInterp ((d.aoPlayed x).take (x.tick / 8 + 1) |>.reverse |>.append x.past.reverse) (x.tick % 8)

def clampStep (s v : Int) : Int := if v > s then s else if v < -s then -s else v

/-- The code passed to the modulator: the limiter's output and the express sum, saturated; a saturated sum that includes an
express contribution counts (R321, R332). -/
def aoOutput (c : Nat) (d : Dev) : Dev :=
  let x := d.aout c
  let has := x.fade ≠ .out ∧ (List.range 8).any (d.exOn c)
  let sum := if has then x.y + d.exSum c else x.y
  let d := d.setAout c { x with out := sat 32 sum }
  d.when (!fits 32 sum) (fun d => ((d.setBit R.AO_CLIP c).bump (R.AO_CLIPCNT.of c)).setF (F.AO_EVT_CLIP.of c) 1)

/-- Step 3 moving down ends at y = 0 once the express fade has ended (R326). -/
def aoLanded (c : Nat) (d : Dev) : Dev :=
  let x := d.aout c
  d.when (x.step == 3 && !x.up && x.y == 0 && x.fade == .out) (aoEnter c 2 false)

/-- One tick of 8 fs: a limiter that is not engaged lets the interpolated sample pass; the express sum is added (R321, R324, R332). -/
def aoPass (c : Nat) (d : Dev) : Dev :=
  let s := d.aout c
  let d := d.when (decide (s.step = 4) && !d.fb (F.AO_SLEW_EN.of c)) (fun d => d.setAout c { s with y := d.aoInput c, lim := false })
  aoTick c 1 (aoOutput c d)

/-- One limiter update, and the RATE + 1 ticks up to the next one (R324, R326). -/
def slewUpdate (c : Nat) (d : Dev) : Dev :=
  let s := d.aout c
  if s.step < 3 then d
  else
    let n := d.f (F.AO_SLEW_RATE.of c) + 1
    let up := d.aoUp c
    let x := d.aoInput c
    let d := if s.step = 4 ∧ !up then
        d.setAout c { s with step := 3, up := false, fade := .fadeOut, fadeAt := 256 - s.fadeNow, track := 0 }
      else d.setAout c { s with up := up }
    let s := d.aout c
    let st : Nat := max 1 (d.f (F.AO_SLEW_STEP.of c)) * 2 ^ 16
    let d := if s.step = 4 ∧ !d.fb (F.AO_SLEW_EN.of c) then d
      else
        let t := if s.step = 3 ∧ !up then 0 else x
        let y := s.y + clampStep st (t - s.y)
        d.setAout c { s with y := y, lim := y != t, track := if s.step = 3 ∧ up ∧ y = t then s.track + n else 0 }
    aoLanded c ((List.range n).foldl (fun d _ => aoPass c d) d)

/-- After 256 tracking ticks at step 3 moving up, step 4 (R326). -/
def seqDone (c : Nat) (d : Dev) : Dev :=
  let x := d.aout c
  d.when (x.step == 3 && d.aoUp c && decide (256 ≤ x.track)) (aoEnter c 4 true)

/-- The express fade of a channel ends (R333); step 3 moving down ends at a limiter update only (R326). -/
def fadeDone (c : Nat) (d : Dev) : Dev :=
  let x := d.aout c
  match x.fade with
  | .fadeIn => d.setAout c { x with fade := .full, fadeAt := 256 }
  | .fadeOut => d.setAout c { x with fade := .out, fadeAt := 256 }
  | _ => d

/-! ### Sections and the queue (R320, R323) -/

/-- A commit takes effect: the staged set goes live; states are kept but for a section that is no longer bypassed. -/
def aoCommit (c : Nat) (d : Dev) : Dev :=
  let x := d.aout c
  let woke (s : Nat) : Bool := (x.live.byp >>> s) % 2 == 1 && (x.staged.byp >>> s) % 2 == 0
  (d.setAout c { x with live := x.staged, pend := none, secs := Tbl.drop x.secs woke }).setF (F.AO_EVT_COMMIT.of c) 1

/-- Commits whose block has come. -/
def aoCommits (b : Nat) (d : Dev) : Dev :=
  (List.range 12).foldl (fun d c =>
    match (d.aout c).pend with
    | some k => if k ≤ b then aoCommit c d else d
    | none => d) d

/-- The eight sections over a block. -/
def aoSections (b : CBank) (secs : Tbl Sec) (xs : List Word) : List (Int × Bool) × Tbl Sec :=
  let r := xs.foldl (fun (a : List (Int × Bool) × Tbl Sec) x =>
    let (y, cl, t) := secsStep b a.2 (wInt x)
    ((y, cl) :: a.1, t)) ([], secs)
  (r.1.reverse, r.2)

/-- The outputs take block `b` at departure `b + 1`; an empty slot plays as zeros (R320, R321). -/
def aoTake (b : Nat) (live : Bool) (d : Dev) : Dev :=
  let d := d.when d.cap.analog (aoCommits b)
  d.when (d.cap.analog && (d.q.get 293).d != 0) (fun d =>
    let r := if live then d.q.takeBlk 293 b else (none, d.q)
    let d := { d with q := r.2 }
    let d := d.when (live && r.1.isNone) (fun d => (d.bump R.AO_UND_CNT).evt Ev.AO_UND)
    (List.range 12).foldl (fun d c =>
      let x := d.aout c
      let xs := match r.1 with
        | some s => Tbl.getD s.ch c (List.replicate 32 0#32)
        | none => List.replicate 32 0#32
      let (ys, secs) := aoSections x.live x.secs xs
      let d := d.setAout c { x with secs := secs, blk := b, play := ys.map (fun y => wOfInt y.1), past := d.aoPlayed x, tick := 0 }
      let d := d.peakF (F.AO_PEAK_MAG.of c) (ys.foldl (fun p y => max p (min y.1.natAbs (2 ^ 31 - 1))) 0)
      let n := (ys.filter (fun y => y.2)).length
      d.when (decide (0 < n)) (fun d =>
        ((d.setBit R.AO_CLIP c).bumpBy (R.AO_CLIPCNT.of c) n).setF (F.AO_EVT_CLIP.of c) 1)) d)

/-- AO_SOS_SEL of a master. -/
def Dev.aoSosSel (d : Dev) (m : Agent) : Word := d.rd (R.AO_SOS_SEL.of m.num)

/-- COEF and SEC step after an access (R336). -/
def aoSosStep (m : Agent) (d : Dev) : Dev :=
  let w := d.aoSosSel m
  d.when (bit w 31) (fun d =>
    d.wr (R.AO_SOS_SEL.of m.num) (if bits w 0 3 < 4 then setBits w 0 3 (bits w 0 3 + 1)
      else setBits (setBits w 0 3 0) 4 3 ((bits w 4 3 + 1) % 8)))

/-- The set that a master's reads return (R336). -/
def Dev.aoReadSet (d : Dev) (m : Agent) : CBank :=
  let x := d.aout (d.aoutSel m)
  if bit (d.aoSosSel m) 8 then x.staged else x.live

def aoSosCoef (m : Agent) (write : Bool) (v : Word) (d : Dev) : Dev :=
  let c := d.aoutSel m
  let w := d.aoSosSel m
  let k := bits w 0 3
  let s := bits w 4 3
  let ok := d.cap.analog && decide (c < 12) && decide (k < 5)
  let d1 :=
    if write then d.when ok (fun d =>
      let x := d.aout c
      d.setAout c { x with staged := { x.staged with coef := Tbl.set x.staged.coef 0#32 (5 * s + k) v } })
    else d.answer (if ok then Tbl.getD (d.aoReadSet m).coef (5 * s + k) 0#32 else 0#32)
  aoSosStep m d1

def aoSosByp (c : Nat) (v : Word) (d : Dev) : Dev :=
  let x := d.aout c
  d.setAout c { x with staged := { x.staged with byp := 0xFF00 + bits v 0 8, ef := bit v 31 } }

/-- A write of AO_SOS_CTRL.COMMIT waits for its block (R323). -/
def aoSosCommit (c : Nat) (v : Word) (d : Dev) : Dev :=
  d.when (d.cap.analog && decide (c < 12) && bit v 0) (fun d => d.setAout c { d.aout c with pend := some d.effBlk })

/-! ### Registers, modes and reset (R331, R336) -/

def aoCntClr (v : Word) (d : Dev) : Dev := d.when (bit v 0) (fun d => d.zeroAll [R.AO_UND_CNT, R.AO_CLIPCNT, R.AO_PEAK])

/-- The reset of the block: shunts close at once; the jack-sense registers stay (R316, R331). -/
def aoReset (d : Dev) : Dev :=
  let mine (k : Nat) : Bool := keyBlk k == 11 && decide (keyOff k < 0x800)
  let d := { d with regs := Tbl.drop d.regs mine, caps := Tbl.drop d.caps mine, stg := Tbl.drop d.stg mine,
                    ao := { d.ao with ch := [], ex := [] } }
  d.onQ (fun q => q.renew 293)

/-- A mode asks for the outputs' steps; channels at rest that may now move do (R331). -/
def aoForce (f : AoForce) (d : Dev) : Dev :=
  (List.range 12).foldl aoKick { d with ao := { d.ao with force := f } }

/-- Every channel is at step 0, or (`one`) at step 1 or below. -/
def Dev.aoDown (d : Dev) (one : Bool) : Bool := (List.range 12).all (fun c => decide ((d.aout c).step ≤ b2n one))

def aoRead (m : Agent) (off : Nat) (d : Dev) : Option Word :=
  if off = 0x004 then some d.aoEvt
  else if off = 0x114 then
    if d.aoutSel m < 12 then some (w32 (b2n (d.aoReadSet m).ef * 2 ^ 31 + (d.aoReadSet m).byp % 256)) else some 0#32
  else none

def aoWrite (m : Agent) (off : Nat) (v : Word) (d : Dev) : Option Dev :=
  let c := d.aoutSel m
  let win (g : Dev → Dev) : Option Dev := some (d.when (decide (c < 12)) g)
  if off = 0x010 then some (aoCntClr v d)
  else if 0x040 ≤ off && off < 0x060 then some (exCfgWrite ((off - 0x040) / 4) v d)
  else if off = 0x100 then win (aoCfgWrite c v)
  else if off = 0x110 then some (aoSosCoef m true v d)
  else if off = 0x114 then win (aoSosByp c v)
  else if off = 0x118 then win (aoSosCommit c v)
  else if off = 0x800 then some (jdCfgWrite v d)
  else none

/-! ### Meanings -/

def execAoEnable (m : Agent) (v : Word) (s : State) : Out := okBy m R.AO_CFG.addr v s (fun d => aoCfgWrite (d.aoutSel m) v d)
def execAoDisable (m : Agent) (v : Word) (s : State) : Out := okBy m R.AO_CFG.addr v s (fun d => aoCfgWrite (d.aoutSel m) v d)
def execAoDwellEnd (c : Fin 12) (s : State) : Out := ok s (aoDwellEnd c.val)
def execSlewUpdate (c : Fin 12) (s : State) : Out := ok s (slewUpdate c.val)
def execSeqDone (c : Fin 12) (s : State) : Out := ok s (seqDone c.val)
def execAoSpanWrite (m : Agent) (v : Word) (s : State) : Out := okBy m R.AO_CFG.addr v s (fun d => aoCfgWrite (d.aoutSel m) v d)
def execAoSosCoefAccess (m : Agent) (write : Bool) (v : Word) (s : State) : Out :=
  okBy m R.AO_SOS_COEF.addr v s (fun d => if write then rsGate m R.AO_SOS_COEF v (aoSosCoef m write v) d else aoSosCoef m write v d) write
def execAoSosCommit (m : Agent) (v : Word) (s : State) : Out := okRs m R.AO_SOS_CTRL v s (fun d => aoSosCommit (d.aoutSel m) v d)
def execExCfgWrite (m : Agent) (k : Fin 8) (v : Word) (s : State) : Out := okRs m (R.EX_CFG.at k.val) v s (exCfgWrite k.val v)
def execExpressRampDone (k : Fin 8) (s : State) : Out := ok s (rampDone k.val)
def execExpressFadeDone (c : Fin 12) (s : State) : Out := ok s (fadeDone c.val)
def execAoCntClr (m : Agent) (v : Word) (s : State) : Out := okBy m R.AO_CNT_CLR.addr v s (aoCntClr v)

end Sys2Proof.Machine
end

