-- ==== Sys2Proof/Machine/Msys.lean ====
section
/-!
DEFINITION. The memory system's stores, self-check and DRAM controller (13_memory.md R367 to R388).
Marks (notes/assumptions): DEDUCED 17, 68.
-/
namespace Sys2Proof.Machine

/-! ### SRAM stores (R367 to R371) -/

/-- The 64-bit words of a store (R367). -/
def storeWords (st : Nat) : Nat := (([32, 16, 5, 2, 4, 2, 1, 2][st]?).getD 1) * 2 ^ 17

/-- A double-bit error found by master `m` in word `w` of store `st` (R368): a node record is silenced and rewritten (03_crosspoint.md R101),
any other word stays uncorrectable (R369). -/
def storeUe (st w m : Nat) (d : Dev) : Dev :=
  let d := ueCount st w m d
  if st = 1 then nodeEcc (w / 2 % 1024) (w / 2 / 1024) d else storeMark st w d

/-- MS_SCRUB as it acts and reads: while the twin is enabled EN is 1 and PERIOD at most 20 (R371). -/
def scrubReg (d : Dev) : Word :=
  if d.fb F.TWN_CFG_EN then w32 (2 ^ 31 + min 20 (bits (d.rd R.MS_SCRUB) 0 5)) else d.rd R.MS_SCRUB

/-- The modes in which the scrubber runs (R371). -/
def Dev.scrubs (d : Dev) : Bool :=
  bit (scrubReg d) 31 && (d.inMode mShunt || d.inMode mMainline || d.inMode mHalt || d.inMode mInspection)

/-- The scrubber reads word `w` of store `st`; `err` is 1 for a single-bit and 2 for a double-bit error. A copy's scrub that
fails is a self-diagnosis fault (12_twin.md R360). -/
def scrubVisit (st w err : Nat) (d : Dev) : Dev :=
  d.when (d.scrubs && decide (st < 8) && decide (w < storeWords st)) (fun d =>
    let d := d.wr R.MS_SCRUB_POS (w32 (st * 2 ^ 28 + w * 65536 / storeWords st))
    let d := d.when (decide (st = 7) && decide (w + 1 = storeWords st)) (fun d => d.onMs (fun x => { x with passes := x.passes + 1 }))
    if err = 1 then storeCe st d
    else if err = 2 ∨ d.ms.bad.contains (st, w) then (storeUe st w 15 d).when d.twCopy (twFault 1)
    else d)

/-- A write of MS_SCRUB: PERIOD is limited to 10 to 24; ignored in twin operation (R371). -/
def scrubWrite (v : Word) (d : Dev) : Dev :=
  d.when (!d.fb F.TWN_CFG_EN) (fun d =>
    d.wr R.MS_SCRUB (w32 (bits v 31 1 * 2 ^ 31 + min 24 (max 10 (bits v 0 5)))))

/-! ### The fabric self-check (R380) -/

def Dev.topSeg (d : Dev) : Option Nat :=
  (List.range 8).foldl (fun m k => if (d.f F.DR_STATUS_VALID >>> k) % 2 = 1 then some k else m) none

/-- What the self-check accesses at a target: the address, the bytes, and whether it writes the pattern first. -/
def Dev.checkArea (d : Dev) (t : Nat) : Option (Nat × Nat × Bool) :=
  if t < 8 then some (0x21FFE000 + 1024 * t, 32, true)
  else if t = 8 then some (0x30000000, 16, false)
  else if t = 9 then some (0x103FFFE0, 32, true)
  else if t = 10 then d.topSeg.map (fun k => (drBase + (k + 1) * d.segBytes - 64, 64, true))
  else none

/-- EN of MS_SCHK as it acts and reads: 1 while the twin is enabled (R380). -/
def Dev.checks (d : Dev) : Bool := d.fb F.MS_SCHK_EN || d.fb F.TWN_CFG_EN

/-- What a check of target `t` meets: whether the fabric answers it as it should, and the core cycles of its longest access. -/
def checkOf (res : List (Bool × Nat)) (t : Nat) : Bool × Nat := (res[t]?).getD (true, 0)

/-- A check of one target (R380): the bursts, a write and the read-back of its pattern, or a read. A read finds the store's uncorrectable words; BLOCK_ID of
block 13 and ENG_ID of engine 0 always answer, and so does the boot ROM (DEDUCED, log 68: the check reaches it whatever MS_REMAP maps). -/
def checkTarget (res : List (Bool × Nat)) (t : Nat) (x : List Nat × List Host.Cell × Dev) : List Nat × List Host.Cell × Dev :=
  let (bad, mem, d) := x
  let good := (checkOf res t).1 && decide ((checkOf res t).2 ≤ 4096)
  match d.checkArea t with
  | none => if t = 10 then x else (if good then bad else bad ++ [t], mem, granted t 13 false d)
  | some (a, n, true) =>
    let pat := (List.range n).map (fun i => Config.selfCheckPattern (a + i))
    let d := drMoved a (2 * n) (granted t 13 false (granted t 13 true d))
    if (checkOf res t).1 && (t != 10 || d.drAns a == .data) then
      let r := bytesPut unitUe 13 a (pat.map some) [] mem (drOver a (pat.map some) d)
      (if good then bad else bad ++ [t], r.2.1, r.2.2)
    else (bad ++ [t], mem, d)
  | some (a, n, false) =>
    let r := readFinds storeUe 13 a n [] (granted t 13 false d)
    (if good && !r.1 then bad else bad ++ [t], mem, r.2)

/-- The self-check after a departure, in target order. `res` says, per target, whether the fabric answers right and in how many core cycles. -/
def selfCheck (res : List (Bool × Nat)) (mem : List Host.Cell) (d : Dev) : List Host.Cell × Dev :=
  if !d.checks then (mem, d)
  else
    let (fails, mem, d) := (List.range 14).foldl (fun x t => checkTarget res t x) ([], mem, d)
    let long := (List.range 14).foldl (fun n t => max n (checkOf res t).2) 0
    let d := d.setF F.MS_SCHK_CYC (min long 0xFFF)
    let d := (d.setB F.MS_SCHK_LAST_OK fails.isEmpty).setB F.STATUS_MS_SCHK_OK fails.isEmpty
    let d := fails.foldl (fun d t => ((d.bump R.MS_SCHK_FAIL_CNT).setF F.MS_SCHK_FAIL_TGT t).evt Ev.MS_SCHK_FAIL) d
    let d := d.onTw (fun t => { t with fab := t.fab + fails.length })
    (mem, d.when (!fails.isEmpty) (twFault 4))

/-- A write of MS_SCHK: a write of EN = 0 is ignored while the twin is enabled (R380). -/
def schkWrite (v : Word) (d : Dev) : Dev := d.when (bit v 31 || !d.fb F.TWN_CFG_EN) (fun d => d.setB F.MS_SCHK_EN (bit v 31))

/-! ### DRAM segments and training (R382, R385, R386) -/

/-- A write of DR_SEG, taken in Shunt only (R382). -/
def drSegSet (use : Nat) (d : Dev) : Dev :=
  d.when d.cap.dram (fun d =>
    let old := d.f F.DR_SEG_USE
    let d := d.setF F.DR_SEG_USE use
    let fresh := (List.range 8).filter (fun k => (use >>> k) % 2 == 1 && (old >>> k) % 2 == 0)
    let keep := (List.range 8).foldl (fun n k => if (use >>> k) % 2 = 1 then n + 2 ^ k else n) 0
    let d := d.setF F.DR_STATUS_VALID (d.f F.DR_STATUS_VALID &&& keep)
    let d := d.onMs (fun x => { x with zeroing := x.zeroing.filter (fun k => (use >>> k) % 2 == 1) ++ fresh })
    d.setB F.DR_STATUS_INIT_BUSY (!d.ms.zeroing.isEmpty))

def drSegWrite (v : Word) (d : Dev) : Dev := d.when (d.inMode mShunt) (drSegSet (bits v 0 8))

def drTraining : Nat := 1
def drReady : Nat := 2
def drSelfRefresh : Nat := 3
def drFail : Nat := 4

/-- The controller has written the next `n` segments to 0, in ascending order: each is valid, and after the last the event sets. It writes while it is
READY (R382). -/
def drInitDone (n : Nat) (mem : List Host.Cell) (d : Dev) : List Host.Cell × Dev :=
  let ks := (List.range 8).filter (fun k => d.ms.zeroing.contains k) |>.take n
  if ks.isEmpty || d.f F.DR_STATUS_STATE != drReady then (mem, d)
  else
    let mem := ks.foldl (fun m k => Memory.clear m (drBase + k * d.segBytes) d.segBytes) mem
    let d := d.setF F.DR_STATUS_VALID (ks.foldl (fun n k => n ||| 2 ^ k) (d.f F.DR_STATUS_VALID))
    let d := d.onMs (fun x => { x with zeroing := x.zeroing.filter (fun k => !ks.contains k) })
    (mem, d.when d.ms.zeroing.isEmpty (fun d => (d.setB F.DR_STATUS_INIT_BUSY false).evt Ev.MS_DR_INIT_DONE))

/-- Training ends: the installed GiB per channel and the values of DR_TRN of each lane (R381, R385). -/
def drTrainDone (gib : Nat) (lanes : List Word) (d : Dev) : Dev :=
  d.when (d.cap.dram && d.f F.DR_STATUS_STATE == drTraining) (fun d =>
    let d := d.wr R.DR_CFG (w32 (7 * gib * 2 ^ 8 + gib % 16))
    let d := (List.range 4).foldl (fun d l => d.wr (R.DR_TRN.at l) ((lanes[l]?).getD 0#32)) d
    let fails := lanes.any (fun w => decide (bits w 16 8 < 16) || decide (bits w 24 8 < 16)) || decide (lanes.length < 4)
    let d := (d.onMs (fun x => { x with drift := [] })).setB F.DR_STATUS_TRAIN_LOST false
    let d := (d.setF F.DR_STATUS_STATE (if fails then drFail else drReady)).evt Ev.MS_DR_TRAIN_DONE
    d.when fails (fun d => d.evt Ev.MS_DR_TRAIN_FAIL))

/-- Is lane `l` lost: a tracked delay is more than a quarter of its window from its centre (R385)? -/
def Dev.laneLost (d : Dev) (l : Nat) : Bool :=
  (List.range 2).any (fun k =>
    decide (bits (d.rd (R.DR_TRN.at l)) (16 + 8 * k) 8 < 4 * (Tbl.getD d.ms.drift (2 * l + k) 0).natAbs))

/-- A drift measurement: each lane's read and write delay move by at most one step; each lane that is lost by it is reported (R385). -/
def dramTrack (steps : List (Int × Int)) (d : Dev) : Dev :=
  d.when (d.f F.DR_STATUS_STATE == drReady) (fun d =>
    let was := (List.range 4).filter d.laneLost
    let step (k : Nat) (s : Int) (t : Tbl Int) : Tbl Int := Tbl.set t 0 k (Tbl.getD t k 0 + max (-1) (min 1 s))
    let d := (List.range 4).foldl (fun d l =>
      let s := (steps[l]?).getD (0, 0)
      d.onMs (fun x => { x with drift := step (2 * l + 1) s.2 (step (2 * l) s.1 x.drift) })) d
    let lost := (List.range 4).filter (fun l => d.laneLost l && !was.contains l)
    lost.foldl (fun d _ => twFault 6 ((d.setB F.DR_STATUS_TRAIN_LOST true).evt Ev.MS_DR_TRAIN_LOST)) d)

/-- A write of DR_CTRL: RETRAIN in Shunt (R385). -/
def drCtrl (v : Word) (d : Dev) : Dev :=
  d.when (bit v 0 && d.cap.dram && d.inMode mShunt && d.f F.DR_STATUS_STATE != 0) (fun d => d.setF F.DR_STATUS_STATE drTraining)

/-! ### The DRAM queue (R383, R384, R387) -/

/-- A burst joins the queue; a read that meets an earlier write queued to its row puts its bank in order (R383). -/
def drEnqueue (q : DReq) (d : Dev) : Dev :=
  let q := { q with seq := d.ms.seq }
  let bank := Config.dramBank q.addr
  let row := Config.dramRow q.addr
  let hit := if q.write || q.refuse then none
    else d.ms.drq.reverse.find? (fun e => e.write && Config.dramBank e.addr == bank && Config.dramRow e.addr == row)
  let d := d.onMs (fun x => { x with drq := x.drq ++ [q], seq := x.seq + 1 })
  match hit with
  | none => d
  | some w =>
    let was := (Tbl.get? d.ms.inord bank).isSome
    let d := d.onMs (fun x => { x with inord := Tbl.put x.inord bank w.seq })
    d.when (!was) (fun d => d.bump R.DR_INORDER_CNT)

/-- The buffer of a real-time port moves to `rd` bursts of read data ready and `used` write slots: RD and WF, and its panic, which rises as one of
them falls below LO (R384). -/
def drLevels (r rd used : Nat) (d : Dev) : Dev :=
  let was := Tbl.getD d.ms.rt r (0, 0)
  let lo := d.f (F.DR_RTP_CFG_LO.at r)
  let hi := max (d.f (F.DR_RTP_CFG_HI.at r)) (lo + 1)
  let on := d.fb (F.DR_RTP_STAT_PANIC.at r)
  let falls (x y : Nat) : Bool := decide (lo ≤ x) && decide (y < lo)
  let now := if falls was.1 rd || falls (256 - was.2) (256 - used) then true else if hi ≤ rd ∧ hi ≤ 256 - used then false else on
  let d := d.onMs (fun x => { x with rt := Tbl.set x.rt (0, 0) r (rd, used) })
  let d := d.wr (R.DR_RTP_STAT.at r) (w32 (b2n now * 2 ^ 31 + (256 - used) * 2 ^ 16 + rd))
  d.when (now && !on) (fun d => (d.bump (R.DR_PANIC_CNT.at r)).evt Ev.MS_DR_PANIC)

/-- A real-time port's units have taken `n` bursts of read data. -/
def drTook (r n : Nat) (d : Dev) : Dev :=
  let x := Tbl.getD d.ms.rt r (0, 0)
  drLevels r (x.1 - n) x.2 d

/-- A real-time burst arrives; a write takes a slot of its port's buffer, and while none is free it is not taken. -/
def drArrive (q : RtReq) (d : Dev) : Dev :=
  let r := q.port.val
  let x := Tbl.getD d.ms.rt r (0, 0)
  let put (write : Bool) (data : List (Option Byte)) : Dev → Dev := drEnqueue ⟨r, q.addr, write, 0, q.feed, 64, data, 0, 0, false, false⟩
  match q.data with
  | none => put false [] d
  | some bs => d.when (decide (x.2 < 256)) (fun d => put true (bs.map some) (drLevels r x.1 (x.2 + 1) d))

/-- A real-time burst has been served: its data is ready, or its slot is free. -/
def drDone (q : DReq) (d : Dev) : Dev :=
  d.when (decide (q.port < 2)) (fun d =>
    let x := Tbl.getD d.ms.rt q.port (0, 0)
    if q.write then drLevels q.port x.1 (x.2 - 1) d else drLevels q.port (min 256 (x.1 + 1)) x.2 d)

/-- The requests that may be served: in a bank in order, the oldest alone (R383); of a master's fabric requests with one ID the oldest, so
that responses return in request order (R374). -/
def Msys.ready (x : Msys) : List DReq :=
  x.drq.filter (fun q =>
    let bank := Config.dramBank q.addr
    let first (p : DReq → Bool) : Bool := (x.drq.find? p).any (fun e => e.seq == q.seq)
    ((Tbl.get? x.inord bank).isNone || first (fun e => Config.dramBank e.addr == bank)) &&
      (q.port != 2 || first (fun e => e.port == 2 && e.master == q.master && e.id == q.id)))

/-- Row hits first, else the oldest (R383). -/
def Msys.pick (x : Msys) (qs : List DReq) : Option DReq :=
  match qs.find? (fun q => Tbl.get? x.rows (Config.dramBank q.addr) == some (Config.dramRow q.addr)) with
  | some q => some q
  | none => qs.head?

/-- The request that is served next (R383, R384): of a panicking port, two in alternation; else one older than 2 us; else by
rotation over the ports. -/
def Dev.drNext (d : Dev) (old : Nat) : Option DReq :=
  let x := d.ms
  let qs := x.ready
  let ofPort (p : Nat) : List DReq := qs.filter (fun q => q.port == p)
  let panics (p : Nat) : Bool := d.fb (F.DR_RTP_STAT_PANIC.at p) && !(ofPort p).isEmpty
  let first := 1 - x.lastRt
  if panics first then (ofPort first).head?
  else if panics x.lastRt then (ofPort x.lastRt).head?
  else
    let aged := (x.drq.take old).filter (fun q => qs.contains q)
    match aged with
    | q :: _ => some q
    | [] =>
      let turn := [(x.lastPort + 1) % 3, (x.lastPort + 2) % 3, x.lastPort]
      match turn.find? (fun p => !(ofPort p).isEmpty) with
      | some p => x.pick (ofPort p)
      | none => none

/-- A DBG_MEM access completes: its result, for as long as the TAP holds the instruction (17_security_debug.md R469). -/
def tapDone (write : Bool) (a : Nat) (data : Word) (d : Dev) : Dev :=
  d.when (d.se.ir == 0x13) (fun d => { d with se := { d.se with
    dr := a % 2 ^ 40 + data.toNat * 2 ^ 40 + b2n write * 2 ^ 72 + b2n d.resp.err * 2 ^ 73 + 2 ^ 74 } })

/-- The answer of a fabric burst at the controller. -/
def drAnswer (q : DReq) (r : Option (List Word)) (d : Dev) : Dev :=
  d.when (q.port == 2) (fun d =>
    let d := match r with
      | some ws => d.answers ws
      | none => d.busError
    d.when q.tap (fun d => tapDone q.write q.addr (if q.write then wordOf q.data else (d.resp.data[0]?).getD 0#32) d))

/-- A request is served: it ends in error, or moves its data. A read that finds an uncorrectable word has the error response, or silences the feed that
its real-time port serves (R381, R382, R387). -/
def drServe (q : DReq) (ecc : List EccHit) (mem : List Host.Cell) (d : Dev) : List Host.Cell × Dev :=
  let d := drDone q d
  if q.refuse then (mem, drAnswer q none d)
  else match d.drAns q.addr with
    | .error => (mem, drAnswer q none d)
    | .invalid => (mem, drAnswer q none ((d.bump R.DR_INVAL_CNT).evt Ev.MS_DR_INVAL))
    | .data =>
      if q.write then (putBytes q.addr q.data mem, drAnswer q (some []) d)
      else
        let r := readFinds unitUe q.master q.addr q.size ecc d
        if r.1 then (mem, drAnswer q none (r.2.when (decide (q.port < 2)) (feedEcc q.feed)))
        else (mem, drAnswer q (some (Memory.rdWords mem q.addr ((q.size + 3) / 4))) r.2)

/-- The request leaves the queue for its bank. -/
def drIssue (q : DReq) (d : Dev) : Dev :=
  let bank := Config.dramBank q.addr
  d.onMs (fun x => { x with
    drq := x.drq.filter (fun e => e.seq != q.seq), rows := if q.refuse then x.rows else Tbl.put x.rows bank (Config.dramRow q.addr),
    inord := if Tbl.get? x.inord bank = some q.seq then Tbl.del x.inord bank else x.inord,
    lastPort := q.port, lastRt := if q.port < 2 then q.port else x.lastRt, bursts := x.bursts + (q.size + 63) / 64 })

/-- The controller serves a request: real-time arrivals join the queue first (R383, R384). A fabric read answers the requester. -/
def dramRequest (r : DramReq) (mem : List Host.Cell) (d : Dev) : List Host.Cell × Dev :=
  if !d.cap.dram then (mem, d)
  else
    let d := r.arrive.foldl (fun d q => drArrive q d) (drTook 1 r.took1 (drTook 0 r.took0 d))
    match d.drNext r.old with
    | none => (mem, d)
    | some q => drServe q r.ecc mem (drIssue q d)

/-- The controller completes every queued request, oldest first, on entry to Siding (R386). -/
def drFlush (mem : List Host.Cell) (d : Dev) : List Host.Cell × Dev :=
  d.ms.drq.foldl (fun x q => drServe q [] x.1 (drIssue q x.2)) (mem, d)

/-- The bursts of the block that ends: DR_BW_LAST (R388). -/
def drBlock (d : Dev) : Dev :=
  (d.wr R.DR_BW_LAST (w32 (d.ms.bursts % 2 ^ 24))).onMs (fun x => { x with bursts := 0 })

/-! ### Self-tests of a copy (12_twin.md R360) -/

/-- The region of the DRAM pattern test that the consist reserves, 1 MiB that ends 4 KiB below its segment's top, while the segment is valid (12_twin.md
R360; 15_consist_boot.md R416). -/
def Dev.patternAt (d : Dev) : Option Nat :=
  (d.cs.test.map (fun k => drBase + (k + 1) * d.segBytes - 4096 - 2 ^ 20)).filter (fun a => d.drAns a == .data)

/-- The DRAM pattern test of a copy: it writes its pattern into the reserved region and reads it back (12_twin.md R360). -/
def dramPatternTest (good : Bool) (mem : List Host.Cell) (d : Dev) : List Host.Cell × Dev :=
  match d.patternAt with
  | none => (mem, d)
  | some a =>
    if !d.twCopy then (mem, d)
    else
      let mem := Memory.wrBytes mem a ((List.range (2 ^ 20)).map (fun i => Config.selfCheckPattern (a + i)))
      (mem, (drMoved a (2 ^ 21) d).when (!good) (fun d => twFault 6 (d.onTw (fun t => { t with pat := t.pat + 1 }))))

/-- The built-in test ends on an idle engine. -/
def builtInTest (e : Nat) (good : Bool) (d : Dev) : Dev :=
  d.when (d.twCopy && decide (e < d.cap.engines) && !(d.vf.get e).run) (fun d =>
    let m := 2 ^ e
    let d := d.onTw (fun t => { t with tested := t.tested ||| m,
                                       passed := if good then t.passed ||| m else t.passed &&& (0xFFFF - m) })
    d.when (!good) (twFault Config.builtInCause))

/-! ### Registers (R388) -/

/-- A write of MS_CNT_CLR. -/
def msCntClr (v : Word) (d : Dev) : Dev :=
  d.when (bit v 0) (fun d => ((d.zeroAll [R.MS_SCHK_FAIL_CNT, R.MS_UE_CNT, R.MS_UE_INFO, R.TG_WAIT_PEAK, R.DR_INORDER_CNT,
    R.DR_CE_CNT, R.DR_UE_CNT, R.DR_INVAL_CNT]).zeroAll ((List.range 8).map R.MS_CE_CNT.at ++ (List.range 2).map R.DR_PANIC_CNT.at)).onMs
      (fun x => { x with reqs := [] }))

def Dev.tgtSel (d : Dev) (m : Agent) : Nat := Reg.idx d R.TGT_SEL m

def msStatus (d : Dev) : Word :=
  let locked := d.ms.locks.foldl (fun n e => n ||| 2 ^ e.1) 0
  w32 (locked % 2 ^ 14 * 2 ^ 16 + b2n d.cap.dram * 8 + d.f F.STATUS_MS_SCHK_OK * 4 + b2n d.scrubs * 2 + d.f F.MS_REMAP_SWAP)

def msRead (m : Agent) (off : Nat) (d : Dev) : Option Word :=
  let t := d.tgtSel m
  if off = 0x00C then some (msStatus d)
  else if off = 0x01C then some (scrubReg d)
  else if off = 0x024 then some (d.rd R.MS_SCHK ||| w32 (b2n d.checks * 2 ^ 31))
  else if off = 0x104 then some (match Tbl.get? d.ms.locks t with
    | some x => w32 (2 ^ 31 + x % 16)
    | none => 0#32)
  else if off = 0x10C then some (if t < 14 then w32 (min (Tbl.getD d.ms.reqs t 0) (2 ^ 32 - 1)) else 0#32)
  else if 0x200 ≤ off && off ≤ 0x25C && !d.cap.dram then some 0#32
  else none

/-- The low bound of MS_LOCK_TO, MS_AGE and DR_TRACK acts where they are used. A write of MS_REMAP: agents 4 to 7 and 31 (R379). -/
def remapWrite (m : Agent) (v : Word) (d : Dev) : Dev :=
  let k := m.num
  d.when ((decide (4 ≤ k) && decide (k ≤ 7)) || k == 31) (fun d => d.setF F.MS_REMAP_SWAP (bits v 0 1))

def msWrite (m : Agent) (off : Nat) (v : Word) (d : Dev) : Option Dev :=
  if off = 0x010 then some (remapWrite m v d)
  else if off = 0x01C then some (scrubWrite v d)
  else if off = 0x024 then some (schkWrite v d)
  else if off = 0x034 then some (msCntClr v d)
  else if 0x200 ≤ off && off ≤ 0x25C && !d.cap.dram then some d
  else if off = 0x208 then some (drCtrl v d)
  else if off = 0x20C then some (drSegWrite v d)
  else none

/-! ### Meanings -/

def execScrubVisit (st addr err : Nat) (s : State) : Out := ok s (scrubVisit st addr err)
def execSelfCheck (res : List (Bool × Nat)) (s : State) : Out := okM s (selfCheck res)
def execDrSegWrite (m : Agent) (v : Word) (s : State) : Out := okBy m R.DR_SEG.addr v s (drSegWrite v)
def execDrInitDone (n : Nat) (s : State) : Out := okM s (drInitDone n)
def execDrTrainDone (gib : Nat) (lanes : List Word) (s : State) : Out := ok s (drTrainDone gib lanes)
def execDramTrack (steps : List (Int × Int)) (s : State) : Out := ok s (dramTrack steps)
def execRetrain (m : Agent) (v : Word) (s : State) : Out := okBy m R.DR_CTRL.addr v s (drCtrl v)
def execDramRequest (r : DramReq) (s : State) : Out := okM s (dramRequest r)
def execMsRemapWrite (m : Agent) (v : Word) (s : State) : Out := okBy m R.MS_REMAP.addr v s (remapWrite m v)
def execMsCntClr (m : Agent) (v : Word) (s : State) : Out := okBy m R.MS_CNT_CLR.addr v s (msCntClr v)
def execDramPatternTest (good : Bool) (s : State) : Out := okM s (dramPatternTest good)
def execBuiltInTest (e : Fin 16) (good : Bool) (s : State) : Out := ok s (builtInTest e.val good)

end Sys2Proof.Machine
end

