-- ==== Sys2Proof/Machine/Time.lean ====
section
/-!
DEFINITION. The time unit: instances and servos, domains, media clocks, pulses and captures (09_time_references.md R261
to R277, R290). A command's `cyc` is the core cycle in which it happens; the core clock runs at 1 GHz (01_architecture.md
R42).
Marks (notes/assumptions): DESIGN CHOICE 7, 50, 55, 57, 84; DEDUCED 52, 53, 54.
-/
namespace Sys2Proof.Machine

def Dev.onTu (d : Dev) (g : TimeUnit → TimeUnit) : Dev := { d with tu := g d.tu }
def Dev.ti (d : Dev) (i : Nat) : Ti := Tbl.getD d.tu.ti i .reset
def Dev.mc (d : Dev) (m : Nat) : Mc := Tbl.getD d.tu.mc m .reset
def Dev.setMcX (d : Dev) (m : Nat) (x : Mc) : Dev := d.onTu (fun u => { u with mc := Tbl.set u.mc .reset m x })
def Dev.tp (d : Dev) (k : Nat) : Pulse := Tbl.getD d.tu.tp k .off
def Dev.setTp (d : Dev) (k : Nat) (x : Pulse) : Dev := d.onTu (fun u => { u with tp := Tbl.set u.tp .off k x })
def Dev.tc (d : Dev) (c : Nat) : CapIn := Tbl.getD d.tu.tc c .reset
def Dev.setTc (d : Dev) (c : Nat) (x : CapIn) : Dev := d.onTu (fun u => { u with tc := Tbl.set u.tc .reset c x })

/-- The latest core cycle that a command has named: a write without a cycle of its own acts in it. -/
def Dev.tick (d : Dev) (cyc : Nat) : Dev := { d with now := max d.now cyc }

def Dev.tiSel (d : Dev) (m : Agent) : Nat := Reg.idx d R.TI_SEL m

/-! ### Instances (R266 to R271) -/

/-- The time of an instance at a core cycle, in 2^-48 ns: the clock times `1 + f 2^-48` (R266). -/
def Ti.time (x : Ti) (cyc : Nat) : Int := x.t + ((cyc - x.cyc : Nat) : Int) * (2 ^ 48 + x.f)
def Ti.sync (x : Ti) (cyc : Nat) : Ti := { x with t := x.time cyc, cyc := max x.cyc cyc }

/-- Whole nanoseconds; seconds have 48 bits. -/
def Ti.ns (x : Ti) (cyc : Nat) : Nat := ((x.time cyc / 2 ^ 48) % (2 ^ 48 * 10 ^ 9)).toNat
def Ti.tenth (x : Ti) (cyc : Nat) : Nat := ((x.time cyc * 10 / 2 ^ 48) % 10).toNat

/-- The instance with its registers TI_FREQ, TI_BIAS and TI_STATUS.BIASED. -/
def Dev.setTi (d : Dev) (i : Nat) (x : Ti) : Dev :=
  let d := d.onTu (fun u => { u with ti := Tbl.set u.ti .reset i x })
  let d := (d.wr (R.TI_FREQ_LO.of i) (wOfInt x.f)).wr (R.TI_FREQ_HI.of i) (wOfInt (x.f / 2 ^ 32))
  (d.wr (R.TI_BIAS.of i) (wOfInt x.b)).setB (F.TI_STATUS_BIASED.of i) (x.b != 0)

def tiFree : Nat := 0
def tiAcq : Nat := 1
def tiLocked : Nat := 2
def tiHold : Nat := 3

/-- An instance enters a state (R269). -/
def tiState (i st : Nat) (d : Dev) : Dev :=
  let was := d.f (F.TI_STATUS_STATE.of i)
  let d := d.setF (F.TI_STATUS_STATE.of i) st
  let d := if st = tiLocked then d.setBit (statusReg 8) i else d.clrBit (statusReg 8) i
  d.when (was != st) (fun d => (d.evt Ev.TU_TI_STATE).setTi i { d.ti i with good := 0, bad := 0 })

/-- `v` limited to plus or minus `b`. -/
def lim (b : Nat) (v : Int) : Int := if v > b then b else if v < -(b : Int) then -(b : Int) else v

/-- FLIM times 2^48 / 10^9 (R267). -/
def Dev.freqLim (d : Dev) (i : Nat) : Nat := max 1 (d.f (F.TI_FLIM_FLIM.of i)) * 2 ^ 48 / 10 ^ 9

/-- One run of the servo on the error `e` in 0.1 ns (R267). -/
def servo (i : Nat) (e : Int) (cyc : Nat) (d : Dev) : Dev :=
  let x := (d.ti i).sync cyc
  let b := d.freqLim i
  let i0 := x.i - e * d.f (F.TI_KI_KI.of i) / 2 ^ 12
  let i1 := lim b i0
  let f0 := i1 - e * d.f (F.TI_KP_KP.of i) / 2 ^ 4
  let f1 := lim b f0
  let beyond := i0 != i1 || f0 != f1
  let d := (d.setTi i { x with i := i1, f := f1, ep := e }).setB (F.TI_STATUS_FLIM.of i) beyond
  d.when beyond (fun d => d.evt Ev.TU_FLIM)

/-- The first `start + j period` after `t`. -/
def Pulse.nextAfter (x : Pulse) (t : Nat) : Option Nat :=
  if t < x.start then some x.start
  else if x.period = 0 then none
  else some (x.start + ((t - x.start) / x.period + 1) * x.period)

/-- A pulse output after a step of its instance from `t0` to `t` (R276). -/
def pulseStep (k t0 t : Nat) (d : Dev) : Dev :=
  let x := d.tp k
  if !x.armed then d
  else
    let due := if x.high then x.next + x.width else x.next
    let skip := decide (t0 < t) && decide (due ≤ t)
    let d := match x.nextAfter t with
      | some n => d.setTp k { x with next := n, high := false }
      | none => d.setTp k { x with armed := false, high := false }
    d.when skip (fun d => d.evt Ev.TU_TP_SKIP)

/-- The instance time steps by `-e` (R268). -/
def stepTime (i : Nat) (e : Int) (cyc : Nat) (d : Dev) : Dev :=
  let x := (d.ti i).sync cyc
  let y := { x with t := x.t - e * 2 ^ 48 / 10, ep := e, good := 0, bad := 0 }
  let d := (((d.setTi i y).bump (R.TI_STEP_CNT.of i)).evt Ev.TU_STEP)
  let d := (List.range 8).foldl (fun d k =>
    d.when (d.f (F.TP_CTRL_TI.at k) == i) (pulseStep k (x.ns cyc) (y.ns cyc))) d
  tiState i tiAcq d

/-- The instance follows its shadow domain (R270). -/
def tiSwitch (i : Nat) (d : Dev) : Dev :=
  let x := d.ti i
  let ctl := d.rd (R.TI_CTRL.of i)
  let tag := d.rd (R.TI_TAG.of i)
  let d := d.wr (R.TI_CTRL.of i) (setBits (setBits ctl 8 8 (bits ctl 0 8)) 0 8 (bits ctl 8 8))
  let d := d.wr (R.TI_TAG.of i) (setBits (setBits tag 8 8 (bits tag 0 8)) 0 8 (bits tag 8 8))
  let d := d.setTi i { x with b := x.es - x.ep, tag := some (bits tag 8 8) }
  ((d.setF (F.TI_STATUS_SHADOW_OK.of i) 0).bump (R.TI_SWITCH_CNT.of i)).evt Ev.TU_SWITCH

/-- HOLD: f is held at I (R269). -/
def tiHoldEnter (i cyc : Nat) (d : Dev) : Dev :=
  let x := (d.ti i).sync cyc
  tiState i tiHold (d.setTi i { x with f := x.i })

/-- The state after a primary write that ran the servo (R269): `good` says whether |e'| was within LOCK_THR. -/
def lockCount (i : Nat) (good : Bool) (d : Dev) : Dev :=
  let st := d.f (F.TI_STATUS_STATE.of i)
  let x := d.ti i
  if st = tiFree ∨ st = tiHold then tiState i tiAcq d
  else
    let y := if good then { x with good := x.good + 1, bad := 0 } else { x with good := 0, bad := x.bad + 1 }
    let d := d.setTi i y
    if st = tiAcq ∧ y.good ≥ 8 then tiState i tiLocked d
    else if st = tiLocked ∧ y.bad ≥ 4 then tiState i tiAcq d
    else d

/-- The bias as a primary write `dt` core cycles after the one before leaves it: cleared, slewed toward 0, or held (R271). -/
def Dev.biasNow (d : Dev) (i : Nat) (x : Ti) (dt : Nat) : Int :=
  let slew := 10 * d.f (F.TI_SLEW_SLEW.of i) * dt / 10 ^ 9
  if x.clr then 0
  else if d.fb (F.TI_CTRL_BIAS.of i) then (if x.b < 0 then x.b + min x.b.natAbs slew else x.b - min x.b.natAbs slew)
  else x.b

/-- A write of TI_OFSP: the bias moves; a new tag switches domains, else the step or the servo (R267 to R271). -/
def tiPrimary (i : Nat) (v : Word) (cyc : Nat) (d : Dev) : Dev :=
  d.when (d.fb (F.TI_CTRL_EN.of i)) (fun d =>
    let x := d.ti i
    let tagP := d.f (F.TI_TAG_TAGP.of i)
    let b := d.biasNow i x (cyc - x.last.getD cyc)
    let d := d.setTi i { x with tag := some tagP, last := some cyc, b := b, clr := false }
    if x.tag.isSome && x.tag != some tagP then
      if d.fb (F.TI_STATUS_SHADOW_OK.of i) then tiSwitch i d else tiHoldEnter i cyc d
    else
      let e := wInt v - b
      let thr := d.f (F.TI_STEP_THR_STEP_THR.of i)
      if e.natAbs > thr ∧ d.fb (F.TI_CTRL_STEPEN.of i) then stepTime i e cyc d
      else
        let e := lim thr e
        lockCount i (decide (e.natAbs ≤ d.f (F.TI_LOCK_THR_LOCK_THR.of i))) (servo i e cyc d))

/-- A write of TI_OFSS: the shadow is valid (R270). -/
def tiShadow (i : Nat) (v : Word) (d : Dev) : Dev :=
  (d.setTi i { d.ti i with es := wInt v, lastS := some d.now }).setF (F.TI_STATUS_SHADOW_OK.of i) 1

/-- Has TI_TIMEOUT passed at core cycle `cyc` since the write of core cycle `last`? It is counted in ticks of 1 ms, so up to one less of them
lies between (R269). -/
def Dev.tiOver (d : Dev) (i : Nat) (last : Option Nat) (cyc : Nat) : Bool :=
  match last with
  | some c => decide ((max 1 (d.f (F.TI_TIMEOUT_TIMEOUT.of i)) - 1) * 10 ^ 6 ≤ cyc - c)
  | none => true

/-- No primary write within TI_TIMEOUT (R269, R270). -/
def tiTimeout (i cyc : Nat) (d : Dev) : Dev :=
  d.when (d.fb (F.TI_CTRL_EN.of i) && d.tiOver i (d.ti i).last cyc) (fun d =>
    if d.fb (F.TI_STATUS_SHADOW_OK.of i) then tiSwitch i d else tiHoldEnter i cyc d)

/-- No shadow write within TI_TIMEOUT (R270). -/
def shTimeout (i cyc : Nat) (d : Dev) : Dev :=
  d.when (d.tiOver i (d.ti i).lastS cyc) (fun d => d.setF (F.TI_STATUS_SHADOW_OK.of i) 0)

/-- A write of TI_CTRL: EN = 0 is FREE with f = 0; CLR_BIAS waits for the next primary write (R269, R271). -/
def tiCtrlWrite (i : Nat) (v : Word) (d : Dev) : Dev :=
  let d := d.wr (R.TI_CTRL.of i) (v &&& 0xE000FFFF#32)
  let d := d.when (bit v 28) (fun d => d.setTi i { d.ti i with clr := true })
  d.when (!bit v 31) (fun d => tiState i tiFree (d.setTi i { (d.ti i).sync d.now with f := 0 }))

/-- A read of TI_TNS captures the whole time for the master (R266). -/
def tiCapture (i : Nat) (m : Agent) (cyc : Nat) (d : Dev) : Dev :=
  let x := d.ti i
  let ns := x.ns cyc
  let sec := ns / 10 ^ 9
  let d := d.setHold R.TI_TSEC_LO m (w32 sec)
  let d := d.setHold R.TI_TSEC_HI m (w32 (sec / 2 ^ 32 + x.tenth cyc * 65536))
  d.answer (w32 (ns % 10 ^ 9))

/-- A read of TI_TNS; beyond the instances it captures 0 (R266; 00_scope.md R511). -/
def timeRead (m : Agent) (cyc : Nat) (d : Dev) : Dev :=
  if d.tiSel m < 4 then tiCapture (d.tiSel m) m cyc d
  else ((d.setHold R.TI_TSEC_LO m 0#32).setHold R.TI_TSEC_HI m 0#32).answer 0#32

/-! ### Media clocks (R272 to R275) -/

/-- The sample rate of a media clock: MCK1 runs at a base rate of the other family (R9, R272). -/
def Dev.mcRate (d : Dev) (m : Nat) : Nat :=
  if m = 0 then d.rate else (if d.fs < 2 then 44100 else 48000) * (if d.fb (F.MC_CFG_DOUBLE.at 1) then 2 else 1)

/-- The phase of the PTP media reference, in 1/256 sample. -/
def Dev.nu (d : Dev) (m cyc : Nat) : Int :=
  let x := d.ti (d.f (F.MC_CFG_TI.at m))
  (x.time cyc % (2 ^ 96 * 10 ^ 9)) * (d.mcRate m : Int) * 256 / (2 ^ 48 * 10 ^ 9)

/-- A media clock with its MC_BIAS registers. -/
def Dev.setMc (d : Dev) (m : Nat) (x : Mc) : Dev :=
  let v := unsgn 64 (x.beta / 16)
  (d.setMcX m x).wr64 (R.MC_BIAS_LO.at m) (R.MC_BIAS_HI.at m) v

def mcAligned (m : Nat) (b : Bool) (d : Dev) : Dev :=
  let d := d.setB (F.MC_STATUS_ALIGNED.at m) b
  if b then d.setBit (statusReg 8) (4 + m) else d.clrBit (statusReg 8) (4 + m)

/-- An error in 1/256 sample lies within MC_STEP_THR (R274). -/
def Dev.mcWithin (d : Dev) (m : Nat) (e : Int) : Bool :=
  e.natAbs * 10 ^ 9 ≤ d.f (F.MC_STEP_THR_STEP_THR.at m) * 256 * d.mcRate m

/-- The media clock refuses an error into its bias (R274). -/
def mcRefuse (m : Nat) (e : Int) (d : Dev) : Dev :=
  let x := d.mc m
  let d := (d.setMc m { x with beta := x.beta + e }).wr (R.MC_PHERR.at m) 0#32
  let d := ((mcAligned m false d).setF (F.MC_STATUS_BIASED.at m) 1).setF (F.MC_STATUS_SLEWING.at m) 0
  (d.bump (R.MC_REFUSE_CNT.at m)).evt Ev.TU_STEP_REF

/-- Does channel `m` follow its PTP media reference, ACQUIRE or LOCKED? -/
def Dev.mcFollows (d : Dev) (m : Nat) : Bool :=
  let st := d.f (F.RC_STATUS_STATE.of m)
  (st == 1 || st == 2) && d.fb (F.RC_STATUS_CUR_VALID.of m) && d.f (F.RC_STATUS_CUR.of m) == m

/-- The counter of a media clock is loaded (R273): from PTP, at the first multiple of 32, or from 0. MCK0's is the sample
index, so the next departure is of the block in which it starts. -/
def mcLoad (cyc : Nat) (d : Dev) (m : Nat) : Dev :=
  let ptp := d.fb (F.MC_CFG_PTP.at m) && d.f (F.TI_STATUS_STATE.of (d.f (F.MC_CFG_TI.at m))) == tiLocked
  let n := if ptp then ((d.nu m cyc + 8191) / 8192).toNat * 32 else 0
  let d := d.setMc m { d.mc m with n := n, beta := if ptp then 0 else (d.mc m).beta, realign := false }
  let d := mcAligned m ptp (d.when ptp (fun d => d.setF (F.MC_STATUS_BIASED.at m) 0))
  if m = 0 then { d with nextDep := n / 32 } else d

/-- A write of MC_CTRL (R275). -/
def mcRealign (m : Nat) (v : Word) (d : Dev) : Dev :=
  d.when (bit v 0) (fun d =>
    if d.inMode mShunt then d.setMc m { d.mc m with realign := true } else d.evt Ev.TU_REALIGN_IGN)

/-- A REALIGN that waits acts at a block boundary of media clock `m`, where its counter is `n0` (R275). -/
def realignApply (m n0 : Nat) (d : Dev) : Dev :=
  let x := d.mc m
  d.when x.realign (fun d =>
    let exact := (n0 : Int) * 256 - x.beta
    let n := (exact + 128) / 256
    let d := d.setMc m ⟨n.toNat, 0, false⟩
    let d := (mcAligned m true d).setF (F.MC_STATUS_BIASED.at m) 0
    let d := d.wr (R.MC_PHERR.at m) (wOfInt (n * 256 - exact))
    if m = 0 then { d with nextDep := n.toNat / 32 } else d)

/-- The tick of a media clock whose counter is `n`, in 1/256 sample (R272, R274). MCK1 has had a block boundary since the tick before where its
counter has passed a multiple of 32 (R275); MCK0's boundaries are the departures. -/
def mcTick (m n cyc : Nat) (d : Dev) : Dev :=
  if m = 1 ∧ (d.mc 1).realign ∧ (d.mc 1).n / 32 < n / 8192 then realignApply 1 (n / 8192 * 32) d
  else
    let d := d.setMc m { d.mc m with n := n / 256 }
    d.when (d.fb (F.MC_CFG_PTP.at m)) (fun d =>
      let e := (n : Int) - d.nu m cyc - (d.mc m).beta
      let d := d.wr (R.MC_PHERR.at m) (wOfInt e)
      if !d.mcFollows m then d
      else if d.mcWithin m e then d.when (e == 0) (fun d => d.setF (F.MC_STATUS_SLEWING.at m) 0)
      else mcRefuse m e d)

/-! ### Pulses and captures (R276, R277) -/

/-- A write of TP_CTRL: setting EN arms the output from its registers, clearing it makes the output inactive. -/
def tpWrite (k : Nat) (v : Word) (cyc : Nat) (d : Dev) : Dev :=
  let was := d.fb (F.TP_CTRL_EN.at k)
  let d := d.wr (R.TP_CTRL.at k) (v &&& 0x80000103#32)
  if !bit v 31 then d.setTp k .off
  else if was then d
  else
    let p := d.f (F.TP_PERIOD_P.at k)
    let w := max 1 (d.f (F.TP_WIDTH_W.at k))
    let s : Nat := pair (d.rd (R.TP_START_SEC_LO.at k)) (d.rd (R.TP_START_SEC_HI.at k)) * 10 ^ 9 + (d.rd (R.TP_START_NS.at k)).toNat
    let x := d.ti (bits v 0 2)
    let t := x.ns cyc
    let past := decide ((s : Int) * 2 ^ 48 < x.time cyc)
    let late (d : Dev) : Dev := d.evt Ev.TU_TP_LATE
    if p ≠ 0 ∧ p ≤ w then late (d.setTp k .off)
    else if !past then d.setTp k ⟨true, s, p, w, s, false⟩
    else if p = 0 then late (d.setTp k .off)
    else late (d.setTp k ⟨true, s, p, w, s + ((t + 1000 - s + p - 1) / p) * p, false⟩)

/-- The edge that is due: active at the rising edge, inactive W later (R276). -/
def pulseEdge (k cyc : Nat) (d : Dev) : Dev :=
  let x := d.tp k
  let due := if x.high then x.next + x.width else x.next
  let t := (d.ti (d.f (F.TP_CTRL_TI.at k))).ns cyc
  d.when (x.armed && decide (due ≤ t + 1)) (fun d =>
    if !x.high then d.setTp k { x with high := true }
    else if x.period = 0 then d.setTp k { x with high := false, armed := false }
    else d.setTp k { x with high := false, next := x.next + x.period })

/-- The level of TPO[k]: active (POL 0 = high) while a pulse runs. -/
def Dev.tpo (d : Dev) (k : Nat) : Bool := (d.tp k).high != d.fb (F.TP_CTRL_POL.at k)

/-- An edge on TCAP[c], at sample index `n` in 1/256 sample; `width` is that of the shorter pulse it begins or ends, in ns: under 4 ns the pulse is
ignored, both its edges with it (R277). -/
def captureEdge (c : Nat) (rising : Bool) (n cyc width : Nat) (d : Dev) : Dev :=
  let x := d.tc c
  let sel := d.f (F.TC_CFG_EDGE.at c)
  let want := if sel = 0 then rising else if sel = 1 then !rising else true
  let near := match x.last with
    | some l => decide (cyc < l + 100)
    | none => false
  d.when (d.fb (F.TC_CFG_EN.at c) && want && !near && decide (4 ≤ width)) (fun d =>
    let e : CapEnt := ⟨!rising, (d.ti (d.f (F.TC_CFG_TI.at c))).ns cyc, n⟩
    if x.q.length < 16 then d.setTc c ⟨x.q ++ [e], some cyc⟩
    else ((d.setTc c { x with last := some cyc }).bump (R.TC_OVF_CNT.at c)).evt Ev.TU_TC_OVF)

/-- A read of TC_W0 pops an entry into the master's holding registers (R277). -/
def capturePop (c : Nat) (m : Agent) (d : Dev) : Dev :=
  let put (w1 w2 w3 : Word) (d : Dev) : Dev :=
    ((d.setHold (R.TC_W1.at c) m w1).setHold (R.TC_W2.at c) m w2).setHold (R.TC_W3.at c) m w3
  match (d.tc c).q with
  | [] => (put 0#32 0#32 0#32 d).answer 0#32
  | e :: rest =>
    let sec := e.ns / 10 ^ 9
    let d := put (w32 sec) (w32 (sec / 2 ^ 32)) (w32 (e.idx % 2 ^ 32)) (d.setTc c { d.tc c with q := rest })
    d.answer (w32 (2 ^ 31 + b2n e.falling * 2 ^ 30 + e.ns % 10 ^ 9))

/-! ### The rest -/

def tuCntClr (v : Word) (d : Dev) : Dev :=
  d.when (bit v 0) (fun d => d.zeroAll ([R.TI_STEP_CNT, R.TI_SWITCH_CNT] ++ (List.range 2).map R.MC_REFUSE_CNT.at ++
    (List.range 4).map R.TC_OVF_CNT.at))

/-- Station firmware takes the clockClass and clockAccuracy of an Announce in an instance's primary domain (R261, R279). -/
def ptpMessage (pm : PtpMsg) (d : Dev) : Dev :=
  match pm.announce with
  | none => d
  | some (cls, acc) => (List.range 4).foldl (fun d i =>
      d.when (d.tu.ptp.any (fun c => c.port == pm.port.val && c.inst == i) && d.f (F.TI_CTRL_DOMP.of i) == pm.domain)
        (fun d => d.setTi i { d.ti i with cls := cls, acc := acc })) d

/-- Leaving Siding: every instance starts FREE, and the media clocks load (R273, R289). -/
def tuWake (cyc : Nat) (d : Dev) : Dev :=
  let d := (List.range 4).foldl (fun d i =>
    (tiState i tiFree (d.setTi i { (d.ti i).sync cyc with f := 0, last := none, lastS := none, tag := none })).setF (F.TI_STATUS_SHADOW_OK.of i) 0) d
  (List.range 2).foldl (mcLoad cyc) d

/-- Registers of the block whose read is more than their value. -/
def tuRead (m : Agent) (off : Nat) (d : Dev) : Option Word :=
  if off = 0x140 then some (d.hold R.TI_TSEC_LO m)
  else if off = 0x144 then some (d.hold R.TI_TSEC_HI m)
  else if 0x600 ≤ off && off < 0x680 then
    let c := (off - 0x600) / 0x20
    let o := (off - 0x600) % 0x20
    if o = 0x08 then some (d.hold (R.TC_W1.at c) m)
    else if o = 0x0C then some (d.hold (R.TC_W2.at c) m)
    else if o = 0x10 then some (d.hold (R.TC_W3.at c) m)
    else none
  else none

/-- Registers of the block whose write is more than its masks. -/
def tuWrite (m : Agent) (off : Nat) (v : Word) (d : Dev) : Option Dev :=
  let i := d.tiSel m
  let win (g : Dev → Dev) : Option Dev := some (d.when (decide (i < 4)) g)
  if off = 0x010 then some (tuCntClr v d)
  else if off = 0x100 then win (tiCtrlWrite i v)
  else if off = 0x108 then win (tiPrimary i v d.now)
  else if off = 0x10C then win (tiShadow i v)
  else if off = 0x308 || off = 0x348 then some (mcRealign ((off - 0x308) / 0x40) v d)
  else if 0x200 ≤ off && off < 0x260 && off % 0x20 = 0 then
    let p := (off - 0x200) / 0x20
    some (d.wr (R.TU_PCFG.at p) (v &&& (if p = 2 then 0x303#32 else 0x103#32)))
  else if off = 0x300 then some (d.wr (R.MC_CFG.at 0) (v &&& 0x103#32))
  else if 0x400 ≤ off && off < 0x500 && off % 0x20 = 0 then some (tpWrite ((off - 0x400) / 0x20) v d.now d)
  else none

/-- The instance a master selects, where the part has it. -/
def onTi (m : Agent) (g : Nat → Dev → Dev) (d : Dev) : Dev := d.when (decide (d.tiSel m < 4)) (g (d.tiSel m))

/-! ### Meanings -/

def execPtpMessage (pm : PtpMsg) (s : State) : Out := ok s (ptpMessage pm)
def execTiOfsp (m : Agent) (v : Word) (cyc : Nat) (s : State) : Out :=
  okBy m R.TI_OFSP.addr v s (fun d => onTi m (fun i => tiPrimary i v cyc) (d.tick cyc))
def execTiOfss (m : Agent) (v : Word) (s : State) : Out := okBy m R.TI_OFSS.addr v s (onTi m (fun i => tiShadow i v))
def execPrimaryTimeout (i : Fin 4) (cyc : Nat) (s : State) : Out := ok s (fun d => tiTimeout i.val cyc (d.tick cyc))
def execShadowTimeout (i : Fin 4) (cyc : Nat) (s : State) : Out := ok s (fun d => shTimeout i.val cyc (d.tick cyc))
def execClrBias (m : Agent) (v : Word) (s : State) : Out := okBy m R.TI_CTRL.addr v s (onTi m (fun i => tiCtrlWrite i v))
def execTimeCaptureRead (m : Agent) (cyc : Nat) (s : State) : Out :=
  okBy m R.TI_TNS.addr 0#32 s (fun d => timeRead m cyc (d.tick cyc)) false
def execMediaClockTick (mck : Fin 2) (n cyc : Nat) (s : State) : Out := ok s (fun d => mcTick mck.val n cyc (d.tick cyc))
def execRealign (m : Agent) (mck : Fin 2) (v : Word) (s : State) : Out := okBy m ((R.MC_CTRL.at mck.val).addr) v s (mcRealign mck.val v)
def execPulseArm (m : Agent) (k : Fin 8) (v : Word) (cyc : Nat) (s : State) : Out :=
  okBy m ((R.TP_CTRL.at k.val).addr) v s (fun d => tpWrite k.val v cyc (d.tick cyc))
def execPulseEdge (k : Fin 8) (cyc : Nat) (s : State) : Out := ok s (fun d => pulseEdge k.val cyc (d.tick cyc))
def execCaptureEdge (c : Fin 4) (rising : Bool) (n cyc width : Nat) (s : State) : Out :=
  ok s (fun d => captureEdge c.val rising n cyc width (d.tick cyc))
def execCapturePop (m : Agent) (c : Fin 4) (s : State) : Out := okBy m ((R.TC_W0.at c.val).addr) 0#32 s (capturePop c.val m) false
def execTuCntClr (m : Agent) (v : Word) (s : State) : Out := okBy m R.TU_CNT_CLR.addr v s (tuCntClr v)

end Sys2Proof.Machine
end

