-- ==== Sys2Proof/Machine/Refs.lean ====
section
/-!
DEFINITION. The reference unit: qualification, selection, holdover and switching (09_time_references.md R278 to R291).
Marks (notes/assumptions): DEDUCED 54, 56, 113; DESIGN CHOICE 55, 57, 103.
-/
namespace Sys2Proof.Machine

def Dev.rc (d : Dev) (ch : Nat) : RefCh := Tbl.getD d.tu.rc ch .reset
def Dev.setRc (d : Dev) (ch : Nat) (x : RefCh) : Dev := d.onTu (fun u => { u with rc := Tbl.set u.rc .reset ch x })
def Dev.rcSel (d : Dev) (m : Agent) : Nat := Reg.idx d R.RC_SEL m
def riCfg (f : Fld) (ch i : Nat) : Fld := (f.at i).of ch

def rcFreerun : Nat := 0
def rcAcquire : Nat := 1
def rcLocked : Nat := 2
def rcHoldover : Nat := 3
def rcSwitch : Nat := 4

/-! ### Inputs (R278 to R280) -/

/-- An input is no longer qualified (R280). -/
def riDisq (i : Nat) (d : Dev) : Dev :=
  d.when (d.fb (F.RI_STATUS_QUAL.at i)) (fun d =>
    ((d.setF (F.RI_STATUS_QUAL.at i) 0).bump (R.RI_DISQ_CNT.at i)).evt Ev.RU_DISQ)

def Dev.ri (d : Dev) (i : Nat) : RefIn := Tbl.getD d.tu.ri i .reset
def Dev.onRi (d : Dev) (i : Nat) (g : RefIn → RefIn) : Dev := d.onTu (fun u => { u with ri := Tbl.set u.ri .reset i (g (d.ri i)) })

/-- LOSS (1), GLITCH (2) or FREQ (3): hold-off starts, or restarts (R280). -/
def riCause (i c : Nat) (d : Dev) : Dev :=
  let d := d.onRi i (fun x => { x with since := 0 })
  riDisq i ((d.setF (F.RI_STATUS_CAUSE.at i) c).setF (F.RI_STATUS_HOLDOFF.at i) 1)

/-- The tick counts for the hold-off of an input. -/
def riTick (d : Dev) (i : Nat) : Dev :=
  d.when (d.fb (F.RI_STATUS_HOLDOFF.at i)) (fun d => d.onRi i (fun x => { x with since := x.since + 1 }))

/-- The hold-off ends once RU_HOLDOFF ticks have passed without a cause (R280). -/
def holdoffEnd (i : Nat) (d : Dev) : Dev :=
  d.when (decide (d.f F.RU_HOLDOFF_HOLDOFF ≤ (d.ri i).since)) (fun d => d.setF (F.RI_STATUS_HOLDOFF.at i) 0)

/-- The input exists for the unit: a master port makes input 6 absent, input 7 is always there (R278). -/
def Dev.riExists (d : Dev) (i : Nat) : Bool :=
  if i = 6 then !d.fb (F.PT_CFG_MASTER.of (d.f F.RU_TDMSRC_PORT))
  else true

def Dev.riInWindow (d : Dev) (i : Nat) : Bool :=
  decide ((wInt (d.rd (R.RI_FREQ.at i))).natAbs ≤ d.f F.RU_FWIN_FWIN) && d.f (F.RI_STATUS_MULT.at i) != 0

/-- Out of hold-off, present and within RU_FWIN. -/
def Dev.riSound (d : Dev) (i : Nat) : Bool :=
  d.fb (F.RI_STATUS_PRESENT.at i) && d.riInWindow i && !d.fb (F.RI_STATUS_HOLDOFF.at i)

/-- Is media clock `m` of the 44.1 kHz family (R9, R272)? -/
def Dev.mcFam (d : Dev) (m : Nat) : Bool := decide (2 ≤ d.fs) != (m == 1)

/-- The nominal rate of an input is one of the channel's family (R278); input 7 serves both. -/
def Dev.riFamily (d : Dev) (ch i : Nat) : Bool := i == 7 || (d.ri i).fam == d.mcFam ch

/-- Step 1 of a tick: what is measured (R278). Inputs 0 and 1 are of their media clocks' families; input 7 has an error of 0. -/
def riMeasure (ms : List RefMeas) (d : Dev) (i : Nat) : Dev :=
  let q : RefMeas := (ms[i]?).getD ⟨false, false, 0, 0, false⟩
  let d := d.onRi i (fun x => { x with fam := if i < 2 then d.mcFam i else q.fam })
  let pres := if i = 7 then true else q.present && d.riExists i
  let d := (d.setB (F.RI_STATUS_PRESENT.at i) pres).setF (F.RI_STATUS_MULT.at i) (if i = 7 then max 1 q.mult.val else q.mult.val)
  d.wr (R.RI_FREQ.at i) (wOfInt (if i = 7 then 0 else q.freq))

/-- An input that meets all its conditions but for its quality level qualifies (R280). -/
def riQualify (i : Nat) (d : Dev) : Dev :=
  d.when (d.riSound i && !d.fb (F.RI_STATUS_QUAL.at i)) (fun d => (d.setF (F.RI_STATUS_QUAL.at i) 1).evt Ev.RU_QUAL)

/-- Step 2: LOSS, GLITCH and FREQ, each for as long as it lasts, and qualification by the quality level of the tick before (R280, R283). -/
def riCheck (ms : List RefMeas) (d : Dev) (i : Nat) : Dev :=
  let q : RefMeas := (ms[i]?).getD ⟨false, false, 0, 0, false⟩
  if !d.fb (F.RI_STATUS_PRESENT.at i) then riCause i 1 d
  else if i < 7 && q.glitch then riCause i 2 d
  else if !d.riInWindow i then riCause i 3 d
  else d.when (decide (d.f (F.RI_STATUS_QL.at i) < 15)) (riQualify i)

/-- The quality level of R279. -/
def Dev.riQl (d : Dev) (i : Nat) : Nat :=
  if i < 2 then
    let t := d.f (F.MC_CFG_TI.at i)
    let x := d.ti t
    if !d.fb (F.MC_CFG_PTP.at i) || d.f (F.TI_STATUS_STATE.of t) != tiLocked || x.cls == 255 then 15
    else if x.cls = 6 then (if 0x20 ≤ x.acc ∧ x.acc ≤ 0x22 then 1 else 2)
    else if x.cls = 7 then 3
    else if x.cls = 13 then 4
    else if x.cls = 14 ∨ x.cls = 52 ∨ x.cls = 187 then 6
    else if x.cls = 58 ∨ x.cls = 193 then 7
    else if x.cls = 248 then 10
    else 12
  else if i = 4 ∨ i = 5 then
    let g := d.f (F.AR_STATUS_GRADE.at (i - 4))
    if g = 1 then 2 else if g = 2 then 5 else 9
  else if i = 7 then 14
  else 9

/-- Step 3: quality levels, and with them QUALITY and qualification (R279, R280). -/
def riQuality (d : Dev) (i : Nat) : Dev :=
  let q := d.riQl i
  let d := d.when (d.f (F.RI_STATUS_QL.at i) != q) (fun d => (d.setF (F.RI_STATUS_QL.at i) q).evt Ev.RU_QL)
  if q = 15 then
    if d.fb (F.RI_STATUS_QUAL.at i) then riDisq i (d.setF (F.RI_STATUS_CAUSE.at i) 4) else d
  else riQualify i d

/-! ### Selection (R281, R282) -/

/-- The quality level that a channel uses (R279). -/
def Dev.rcQl (d : Dev) (ch i : Nat) : Nat :=
  if d.fb (riCfg F.RI_CFG_QOVR ch i) then d.f (riCfg F.RI_CFG_QL ch i) else d.f (F.RI_STATUS_QL.at i)
def Dev.rcRank (d : Dev) (ch i : Nat) : Nat := d.f (riCfg F.RI_CFG_RANK ch i)

/-- Is the input qualified for an enabled channel, by its family and the quality level the channel uses (R278 to R280)? -/
def Dev.rcQualified (d : Dev) (ch i : Nat) : Bool :=
  d.fb (F.RC_CFG_EN.of ch) && d.riFamily ch i && d.riSound i && decide (d.rcQl ch i < 15)

/-- A candidate of a channel: enabled and qualified (R281). -/
def Dev.candidate (d : Dev) (ch i : Nat) : Bool := d.fb (riCfg F.RI_CFG_EN ch i) && d.rcQualified ch i

/-- The current reference. -/
def Dev.rcCur (d : Dev) (ch : Nat) : Option Nat :=
  if d.fb (F.RC_STATUS_CUR_VALID.of ch) then some (d.f (F.RC_STATUS_CUR.of ch)) else none

/-- Lowest rank, then lowest QL, then (`keep` set) the current reference, then the lowest number (R281). -/
def Dev.rcBest (d : Dev) (ch : Nat) (keep : Bool) : Option Nat :=
  let key (i : Nat) : Nat := (d.rcRank ch i * 16 + d.rcQl ch i) * 16 + (if keep && d.rcCur ch == some i then 0 else i + 1)
  ((List.range 8).filter (d.candidate ch)).foldl (fun b i =>
    match b with
    | none => some i
    | some j => if key i < key j then some i else some j) none

/-! ### Channels (R284 to R287) -/

/-- A channel enters a state. -/
def rcState (ch st : Nat) (d : Dev) : Dev :=
  let was := d.f (F.RC_STATUS_STATE.of ch)
  let d := (d.setF (F.RC_STATUS_STATE.of ch) st).setF (if ch = 0 then F.STATUS_RU_STATE0 else F.STATUS_RU_STATE1) st
  d.when (was != st) (fun d =>
    (d.evt Ev.RU_STATE).when (st == rcFreerun || st == rcHoldover) (fun d => d.evt Ev.RU_HOLDOVER))

/-- The frequency history: the mean over 2^HIST s before the last second, at 1000 samples a second (R285). -/
def Dev.histMean (d : Dev) (ch : Nat) : Int :=
  let n := 2 ^ min (d.f (F.RC_CFG_HIST.of ch)) 10 * 1000
  let xs := ((d.rc ch).hist.drop 1000).take n
  if xs.isEmpty then 0 else xs.foldl (· + ·) 0 / (xs.length : Int)

/-- The output frequency of a state that measures no reference. -/
def rcOutput (ch st : Nat) (d : Dev) : Dev :=
  if st = rcFreerun then d.wr (R.RC_FOFS.of ch) 0#32
  else if st = rcHoldover ∨ (st = rcSwitch ∧ d.fb (F.RC_STATUS_HIST_VALID.of ch)) then
    d.wr (R.RC_FOFS.of ch) (wOfInt (d.histMean ch))
  else d

/-- The channel turns to input `i`: SWITCH (R286). -/
def rcTake (ch i : Nat) (d : Dev) : Dev :=
  let d := (d.setF (F.RC_STATUS_CUR.of ch) i).setF (F.RC_STATUS_CUR_VALID.of ch) 1
  rcOutput ch rcSwitch (rcState ch rcSwitch d)

/-- The channel has no reference: HOLDOVER with a valid history, else FREERUN (R286). -/
def rcLose (ch : Nat) (d : Dev) : Dev :=
  let st := if d.fb (F.RC_STATUS_HIST_VALID.of ch) then rcHoldover else rcFreerun
  rcOutput ch st (rcState ch st (d.setF (F.RC_STATUS_CUR_VALID.of ch) 0))

/-- One RC_CMD write: RESELECT, then FORCE (R281). -/
def rcCommand (ch : Nat) (d : Dev) (w : Nat) : Dev :=
  let d := d.when (w % 2 == 1) (fun d =>
    match d.rcBest ch true with
    | none => d
    | some i => if d.rcCur ch = some i then d else rcTake ch i d)
  d.when (w / 2 % 2 == 1) (fun d =>
    let i := w / 16 % 8
    if !d.candidate ch i then d.evt Ev.RU_FORCE_IGN
    else if d.rcCur ch = some i then d
    else rcTake ch i d)

/-- Step 5: a reference that is no longer qualified is replaced; with none the channel takes the best candidate (R281). -/
def rcSelect (ch : Nat) (d : Dev) : Dev :=
  let stays := match d.rcCur ch with
    | some i => d.rcQualified ch i
    | none => false
  if stays then d
  else match d.rcBest ch false with
    | some i => rcTake ch i d
    | none => if (d.rcCur ch).isSome then rcLose ch d else d

/-- Step 6: a loop error beyond half a sample; the history in LOCKED; the output frequency (R285, R286). -/
def rcMeasure (ch : Nat) (c : ChMeas) (d : Dev) : Dev :=
  let st := d.f (F.RC_STATUS_STATE.of ch)
  let d := d.when (st == rcAcquire || st == rcLocked) (fun d => d.wr (R.RC_FOFS.of ch) (wOfInt c.freq))
  let d := d.when (st == rcLocked) (fun d => d.setRc ch { d.rc ch with hist := (c.freq :: (d.rc ch).hist).take 1025000 })
  let x := d.rc ch
  let d := d.setRc ch { x with
    near := if st == rcAcquire && decide (c.err.natAbs ≤ 16) then x.near + 1 else 0, held := if st == rcLocked then x.held + 1 else 0 }
  d.when (st == rcLocked && decide (c.err.natAbs > 128)) (rcState ch rcAcquire)

/-- ACQUIRE ends after 1 s with the loop error within 1/16 sample (R286). -/
def acquireLock (ch : Nat) (d : Dev) : Dev :=
  d.when (d.f (F.RC_STATUS_STATE.of ch) == rcAcquire && decide (1000 ≤ (d.rc ch).near)) (rcState ch rcLocked)

/-- The history is valid after 2^HIST + 1 s of continuous LOCKED (R285). -/
def histValid (ch : Nat) (d : Dev) : Dev :=
  d.when (d.f (F.RC_STATUS_STATE.of ch) == rcLocked && decide ((2 ^ min (d.f (F.RC_CFG_HIST.of ch)) 10 + 1) * 1000 ≤ (d.rc ch).held))
    (fun d => d.setF (F.RC_STATUS_HIST_VALID.of ch) 1)

/-- The rank conflict flag (R282). -/
def rcConflict (ch : Nat) (d : Dev) : Dev :=
  let flag := match d.rcCur ch with
    | none => false
    | some i => (List.range 8).any (fun j => j != i && d.candidate ch j && d.rcRank ch j == d.rcRank ch i &&
        d.rcQl ch j == d.rcQl ch i &&
        decide ((wInt (d.rd (R.RI_FREQ.at i)) - wInt (d.rd (R.RI_FREQ.at j))).natAbs > d.f (F.RC_CONF_PPB_CONF.of ch)))
  let was := d.fb (F.RC_STATUS_RANK_CONFLICT.of ch)
  (d.setB (F.RC_STATUS_RANK_CONFLICT.of ch) flag).when (flag && !was) (fun d => d.evt Ev.RU_RANK_CONFLICT)

/-- The 1 ms tick of the reference unit, in the order of R283. -/
def refTick (ms : List RefMeas) (cs : List ChMeas) (d : Dev) : Dev :=
  let d := (List.range 8).foldl (riMeasure ms) ((List.range 8).foldl riTick d)
  let d := (List.range 8).foldl (riCheck ms) d
  let d := (List.range 8).foldl riQuality d
  (List.range 2).foldl (fun d ch =>
    let cmds := (d.rc ch).cmds
    let d := cmds.foldl (rcCommand ch) (d.setRc ch { d.rc ch with cmds := [] })
    let d := rcSelect ch d
    rcConflict ch (rcMeasure ch ((cs[ch]?).getD ⟨0, 0⟩) d)) d

/-- A write of RC_CMD waits for the tick (R283). -/
def rcCmdWrite (ch : Nat) (v : Word) (d : Dev) : Dev :=
  d.when (bits v 0 2 != 0) (fun d => d.setRc ch { d.rc ch with cmds := (d.rc ch).cmds ++ [bits v 0 7] })

/-- The end of SWITCH: the offset `phi`, in 1/256 sample, is absorbed, or handed to the media clock (R287). -/
def switchEnd (ch : Nat) (phi : Int) (d : Dev) : Dev :=
  d.when (d.f (F.RC_STATUS_STATE.of ch) == rcSwitch) (fun d =>
    let i := d.f (F.RC_STATUS_CUR.of ch)
    let d := ((d.wr (R.RC_PHASE.of ch) (wOfInt phi)).bump (R.RC_SWITCH_CNT.of ch)).evt Ev.RU_SWITCH
    let near := decide ((wInt (d.rd (R.RI_FREQ.at i)) - wInt (d.rd (R.RC_FOFS.of ch))).natAbs ≤ 100)
    let d := rcState ch (if near then rcLocked else rcAcquire) d
    d.when (decide (i < 2)) (fun d =>
      if d.mcWithin ch phi then
        (d.wr (R.MC_PHERR.at ch) (wOfInt (-phi))).setB (F.MC_STATUS_SLEWING.at ch) (phi != 0)
      else mcRefuse ch (-phi) d))

def ruCntClr (v : Word) (d : Dev) : Dev :=
  d.when (bit v 0) (fun d => d.zeroAll (R.RC_SWITCH_CNT :: (List.range 8).map R.RI_DISQ_CNT.at))

/-- Leaving Siding: every channel starts FREERUN with HIST_VALID = 0 (R289). -/
def ruWake (d : Dev) : Dev :=
  (List.range 2).foldl (fun d ch =>
    let d := (d.setF (F.RC_STATUS_HIST_VALID.of ch) 0).setF (F.RC_STATUS_CUR_VALID.of ch) 0
    rcOutput ch rcFreerun (rcState ch rcFreerun (d.setRc ch .reset))) d

/-- REFST[2:0]: channel 0's STATE (R288). -/
def Dev.refst (d : Dev) : Nat := d.f (F.RC_STATUS_STATE.of 0)

/-- WCOUT `n` where the counter of the media clock it names is `c`, in 1/256 sample: a square wave at the clock's base rate or twice it, rising
where the counter is a multiple of their ratio; low while disabled (R288). -/
def Dev.wcout (d : Dev) (n c : Nat) : Bool :=
  let w := bits (d.rd R.RU_WCOUT) (8 * n) 3
  let m := w / 2 % 2
  let base := if d.mcRate m = 96000 then 48000 else if d.mcRate m = 88200 then 44100 else d.mcRate m
  let period := 256 * d.mcRate m / (base * (if w % 2 = 1 then 2 else 1))
  decide (w / 4 = 1) && decide (c * 2 % (2 * period) < period)

def ruWrite (m : Agent) (off : Nat) (v : Word) (d : Dev) : Option Dev :=
  let ch := d.rcSel m
  if off = 0x020 then some (ruCntClr v d)
  else if off = 0x108 then some (d.when (decide (ch < 2)) (rcCmdWrite ch v))
  else none

/-! ### Meanings -/

def execRefTick (ms : List RefMeas) (cs : List ChMeas) (s : State) : Out := ok s (refTick ms cs)
def execRefInputLoss (i : Fin 8) (s : State) : Out :=
  ok s (fun d => d.when (decide (i.val < 7)) (fun d => riCause i.val 1 (d.setF (F.RI_STATUS_PRESENT.at i.val) 0)))
def execHoldoffExpire (i : Fin 8) (s : State) : Out := ok s (holdoffEnd i.val)
def execReselect (m : Agent) (v : Word) (s : State) : Out :=
  okBy m R.RC_CMD.addr v s (fun d => d.when (decide (d.rcSel m < 2)) (rcCmdWrite (d.rcSel m) v))
def execForce (m : Agent) (v : Word) (s : State) : Out :=
  okBy m R.RC_CMD.addr v s (fun d => d.when (decide (d.rcSel m < 2)) (rcCmdWrite (d.rcSel m) v))
def execSwitchEnd (ch : Fin 2) (phi : Int) (s : State) : Out := ok s (switchEnd ch.val phi)
def execAcquireLock (ch : Fin 2) (s : State) : Out := ok s (acquireLock ch.val)
def execHistValid (ch : Fin 2) (s : State) : Out := ok s (histValid ch.val)
def execRuCntClr (m : Agent) (v : Word) (s : State) : Out := okBy m R.RU_CNT_CLR.addr v s (ruCntClr v)

end Sys2Proof.Machine
end

