-- ==== Sys2Proof/Machine/Mbox.lean ====
section
/-!
DEFINITION. Mailboxes, locks, the resets of one side, GPIO and the QSPI master (14_host_mailboxes.md R395 to R409).
Marks (notes/assumptions): DESIGN CHOICE 7, 105; DEDUCED 69, 104; PRESUMED 101.
-/
namespace Sys2Proof.Machine

def Dev.mbx (d : Dev) (x : Nat) : Mbox := Tbl.getD d.hi.mb x .empty
def Dev.setMbx (d : Dev) (x : Nat) (b : Mbox) : Dev := d.onHi (fun h => { h with mb := Tbl.set h.mb .empty x b })

/-! ### Mailboxes (R396 to R400, R402) -/

/-- MB_CFG of a mailbox (R396). -/
def Dev.mbCfg (d : Dev) (x : Nat) : Word :=
  match x with
  | 0 => 0x104#32
  | 1 => 0x401#32
  | 2 => 0x401#32
  | 3 => 0x204#32
  | 4 => 0x402#32
  | 5 => 0x402#32
  | 6 => 0x304#32
  | 7 => 0x403#32
  | 8 => 0x403#32
  | _ => d.rd (R.MB_CFG.of x)

def Dev.sender (d : Dev) (x : Nat) : Nat := bits (d.mbCfg x) 8 5
def Dev.receiver (d : Dev) (x : Nat) : Nat := bits (d.mbCfg x) 0 5
def Dev.mbSel (d : Dev) (m : Agent) : Nat := Reg.idx d R.MB_SEL m

/-- A signal about mailbox `x` to agent `a` (R399): a Station core's interrupt line, or the host's map. -/
def mbSignal (kind a x : Nat) (map : Reg) (d : Dev) : Dev :=
  if 4 ≤ a ∧ a ≤ 7 then
    let k := a * 4 + kind
    let d := d.onHi (fun h => { h with sigs := Tbl.set h.sigs 0 k (Tbl.getD h.sigs k 0 + 1) })
    d.when (kind == 0 && d.inMode mSiding) (latchWake 4)
  else d.when (decide (1 ≤ a) && decide (a ≤ 3)) (fun d => d.setBit map x)

def mbRefuse (x : Nat) (d : Dev) : Dev := (d.bump (R.MB_REF_CNT.of x)).evt Ev.MBX_REFUSED

/-- A counter that wraps (R402). -/
def Dev.wrapInc (d : Dev) (r : Reg) : Dev := d.wr r (d.rd r + 1#32)

/-- A message placed in an empty mailbox: OCC, MB_POSTED and the full signal in one cycle (R397). -/
def mbPut (x : Nat) (ws : List Word) (d : Dev) : Dev :=
  let d := d.setMbx x { d.mbx x with occ := true, words := ws, tout := false }
  mbSignal 0 (d.receiver x) x R.MB_FULL_MAP (d.wrapInc (R.MB_POSTED.of x))

/-- A doorbell of agent `a` (R397): refused on an occupied mailbox, a bad LEN or an unassigned mailbox. -/
def mbDb (m : Agent) (v : Word) (d : Dev) : Dev :=
  let x := d.mbSel m
  let n := bits v 0 5
  d.when (decide (x < 32)) (fun d =>
    if d.sender x = 0 ∨ d.receiver x = 0 then mbRefuse x d
    else if d.sender x ≠ m.num then d
    else if (d.mbx x).occ ∨ n = 0 ∨ n > 16 then mbRefuse x d
    else mbPut x ((List.range n).map (fun k => d.staged (R.MB_W.at k) m)) d)

/-- A staging write: taken from the sender of the selected mailbox alone (R397). -/
def mbStage (m : Agent) (k : Nat) (v : Word) (d : Dev) : Dev :=
  let x := d.mbSel m
  d.when (decide (x < 32) && d.sender x == m.num) (fun d => d.stage (R.MB_W.at k) m v)

/-- The mailbox empties by an acknowledgement (R398). -/
def mbTake (x : Nat) (d : Dev) : Dev :=
  let d := d.setMbx x { d.mbx x with occ := false, words := [], srst := false, cause := 1 }
  mbSignal 1 (d.sender x) x R.MB_EMPTY_MAP (d.wrapInc (R.MB_READ.of x))

def mbAck (m : Agent) (d : Dev) : Dev :=
  let x := d.mbSel m
  d.when (decide (x < 32) && d.receiver x == m.num && (d.mbx x).occ) (mbTake x)

/-- A message still unread TO ms after its post (R400). -/
def mbTimeout (x : Nat) (d : Dev) : Dev :=
  let b := d.mbx x
  d.when (b.occ && !b.tout && bits (d.mbCfg x) 16 16 != 0) (fun d =>
    mbSignal 3 (d.sender x) x R.MB_TO_MAP (d.setMbx x { b with tout := true }))

/-- Is the occupancy of mailbox `x` in balance (R402)? -/
def Dev.mbOk (d : Dev) (x : Nat) : Bool :=
  d.rd (R.MB_POSTED.of x) - d.rd (R.MB_READ.of x) - d.rd (R.MB_FLUSHED.of x) == w32 (b2n (d.mbx x).occ)

/-- The audit at a 1 ms tick (R402). -/
def mbAudit (d : Dev) : Dev :=
  let bad := (List.range 32).filter (fun x => !d.mbOk x)
  let d := d.setB F.MB_AUD_STATUS_LAST_OK bad.isEmpty
  let d := bad.foldl (fun d x => (d.setBit R.MB_AUD_FMAP x).bumpF F.MB_AUD_STATUS_FAIL_COUNT) d
  d.when (!bad.isEmpty) (fun d => twFault 3 (d.evt Ev.MBX_AUDIT))

/-- A write of MB_CFG: agents 4 to 7, mailboxes 9 to 31, while empty (R396). -/
def mbCfgWrite (m : Agent) (v : Word) (d : Dev) : Dev :=
  let x := d.mbSel m
  d.when (decide (9 ≤ x) && decide (x < 32) && decide (4 ≤ m.num) && decide (m.num ≤ 7) && !(d.mbx x).occ) (fun d =>
    d.wr (R.MB_CFG.of x) (v &&& 0xFFFF1F1F#32))

def mbCntClr (v : Word) (d : Dev) : Dev :=
  d.when (bit v 0) (fun d => (d.zeroAll [R.MB_REF_CNT]).setF F.MB_AUD_STATUS_FAIL_COUNT 0)

/-! ### Locks (R404) -/

def Dev.owner (d : Dev) (k : Nat) : Nat := Tbl.getD d.hi.locks k 0

/-- A read wins a free lock and returns 0; else it returns the owner. -/
def lockRead (m : Agent) (k : Nat) (d : Dev) : Dev :=
  let o := d.owner k
  if o = 0 then (d.onHi (fun h => { h with locks := Tbl.set h.locks 0 k m.num })).answer 0#32 else d.answer (w32 o)

def lockWrite (m : Agent) (k : Nat) (v : Word) (d : Dev) : Dev :=
  if v = 0#32 ∧ d.owner k = m.num then d.onHi (fun h => { h with locks := Tbl.del h.locks k }) else d.evt Ev.MBX_LK_ERR

def lockMap (d : Dev) (n : Nat) : Nat :=
  (List.range 32).foldl (fun w k => if d.owner (32 * n + k) = 0 then w else w + 2 ^ k) 0

/-! ### Resets of one side (R401, R404) -/

/-- The sides of the agents in `as` are reset in one core cycle. -/
def sideReset (as : List Nat) (d : Dev) : Dev :=
  let d := (List.range 32).foldl (fun d x =>
    let b := d.mbx x
    let rx := as.contains (d.receiver x)
    let tx := as.contains (d.sender x)
    if !b.occ then d
    else if rx then
      let d := (d.setMbx x { b with occ := false, words := [], srst := false, cause := 2 }).wrapInc (R.MB_FLUSHED.of x)
      if tx then d else mbSignal 2 (d.sender x) x R.MB_EMPTY_MAP d
    else if tx then d.setMbx x { b with srst := true }
    else d) d
  let d := { d with stg := Tbl.drop d.stg (fun k => keyBlk k == 14 && as.contains (k % 65536)) }
  let mine := (List.range 64).filter (fun k => as.contains (d.owner k))
  let d := mine.foldl (fun d k => d.setBit (R.LK_BRK.at (k / 32)) (k % 32)) d
  d.onHi (fun h => { h with locks := h.locks.filter (fun e => !as.contains e.2) })

/-- A write of HIF_CTRL by the SPI or I2C host (R401). -/
def hifCtrl (m : Agent) (v : Word) (d : Dev) : Dev := d.when (bit v 0 && (m.num == 2 || m.num == 3)) (sideReset [m.num])

/-- A reset of the PCIe function resets its MSI-X table. -/
def msixClear (d : Dev) : Dev := { d with msix := { Msix.reset with sent := d.msix.sent } }

/-- The PCIe side is reset: by link down (0), a hot reset (1) or a function-level reset (2, 3). -/
def pcieReset (kind : Nat) (d : Dev) : Dev :=
  let d := msixClear d
  let d := if kind = 0 then ((d.wr R.STATUS_HIF (setBits (d.rd R.STATUS_HIF) 0 5 0)).evt Ev.HIF_PCIE_LINK) else d.evt Ev.HIF_PCIE_RST
  sideReset [1] d

/-- The link comes up or goes down (R389, R401). -/
def pcieLink (up : Bool) (speed width : Nat) (d : Dev) : Dev :=
  let d := (d.wr R.STATUS_HIF (setBits (d.rd R.STATUS_HIF) 0 5 (if up then b2n up + speed * 2 + width * 8 else 0))).evt Ev.HIF_PCIE_LINK
  d.when (!up) (fun d => sideReset [1] (msixClear d))

/-- A Station core is reset, by its watchdog or a restart (R401); the watchdog is a self-diagnosis fault (12_twin.md R352). -/
def coreReset (k : Nat) (wdog : Bool) (d : Dev) : Dev := (sideReset [4 + k] d).when wdog (twFault 2)

/-! ### GPIO (R409) -/

def gpioEdge (pin : Nat) (rising : Bool) (d : Dev) : Dev :=
  let d := d.wr R.GPIO_IN (setBits (d.rd R.GPIO_IN) pin 1 (b2n rising))
  d.when (!bit (d.rd R.GPIO_OE) pin && bit (d.rd (if rising then R.GPIO_RISE else R.GPIO_FALL)) pin) (fun d =>
    (d.setBit R.GPIO_EVT pin).when (d.inMode mSiding) (latchWake 6))

/-- Pin levels: driven pins show GPIO_OUT. -/
def Dev.gpioIn (d : Dev) : Word :=
  let w := merge (d.rd R.GPIO_IN) (d.rd R.GPIO_OE) (d.rd R.GPIO_OUT)
  match d.hi.vret with
  | some k => w ||| w32 (2 ^ k)
  | none => w

/-! ### QSPI (R395) -/

def qsAgent (m : Agent) : Bool := (decide (4 ≤ m.num) && decide (m.num ≤ 7)) || m.num == 31

def qsCmd (m : Agent) (v : Word) (d : Dev) : Dev :=
  d.when (qsAgent m) (fun d =>
    let d := d.wr R.QS_CMD (v &&& 0x7F1FFFFF#32)
    d.when (bit v 31) (fun d => d.setB F.QS_STAT_BUSY true))

def wordsOf (bs : List Byte) : List Word :=
  (List.range ((bs.length + 3) / 4)).map (fun k =>
    w32 (((bs.drop (4 * k)).take 4).reverse.foldl (fun n b => n * 256 + b.toNat) 0))

/-- The transaction moves what the FIFO of 64 words can take or give, and ends with the last word; until then SCK is held (R395). -/
def qsMove (d : Dev) : Dev :=
  match d.hi.qs with
  | none => d
  | some q =>
    let room := 64 - d.hi.fifo.length
    let n := min q.outs d.hi.fifo.length
    let fifo := (d.hi.fifo ++ q.ins.take room).drop n
    let q := { q with ins := q.ins.drop room, outs := q.outs - n }
    if q.ins = [] ∧ q.outs = 0 then
      ((d.setB F.QS_STAT_BUSY false).onHi (fun h => { h with fifo := fifo, qs := none })).evt
        (if q.good then Ev.HIF_QS_DONE else Ev.HIF_QS_ERR)
    else d.onHi (fun h => { h with fifo := fifo, qs := some q })

/-- The flash has answered: `bs` are the bytes that a read gives, and a write takes as many from the FIFO (R395). -/
def qsDone (bs : List Byte) (good : Bool) (d : Dev) : Dev :=
  let wr := d.fb F.QS_CMD_WRITE
  let n := d.f F.QS_CMD_LEN
  d.when (d.fb F.QS_STAT_BUSY && d.hi.qs.isNone) (fun d =>
    qsMove (d.onHi (fun h => { h with qs := some ⟨if wr then [] else wordsOf (bs.take n), if wr then (n + 3) / 4 else 0, good⟩ })))

/-- The two registers of QS_DATA: a write adds a word while fewer than 64 wait, a read takes the oldest. -/
def qsPush (v : Word) (d : Dev) : Dev := qsMove (d.onHi (fun h => if h.fifo.length < 64 then { h with fifo := h.fifo ++ [v] } else h))
def qsPop (d : Dev) : Dev := qsMove (d.onHi (fun h => { h with fifo := h.fifo.drop 1 }))

/-! ### Registers (R408, R409) -/

def mbStat (b : Mbox) : Word :=
  w32 (b2n b.occ * 2 ^ 31 + b2n b.srst * 2 ^ 30 + b.cause * 2 ^ 28 + b2n b.tout * 2 ^ 27 + b.words.length)

def mbRead (m : Agent) (off : Nat) (d : Dev) : Option Word :=
  let x := d.mbSel m
  let has := decide (x < 32)
  if off = 0x004 then some (mbxEvt d)
  else if off = 0x00C then some (w32 (((List.range 32).filter (fun k => (d.mbx k).occ)).length + d.hi.locks.length * 2 ^ 8))
  else if off = 0x010 then some (w32 ((List.range 32).foldl (fun n k => n + b2n (d.mbx k).occ * 2 ^ k) 0))
  else if off = 0x028 || off = 0x02C then some (w32 (lockMap d ((off - 0x028) / 4)))
  else if off = 0x100 then some (if has then d.mbCfg x else 0#32)
  else if off = 0x104 then some (if has then mbStat (d.mbx x) else 0#32)
  else if 0x108 ≤ off && off ≤ 0x144 then
    some (if has && d.receiver x == m.num then ((d.mbx x).words[(off - 0x108) / 4]?).getD 0#32 else 0#32)
  else none

def mbWrite (m : Agent) (off : Nat) (v : Word) (d : Dev) : Option Dev :=
  if off = 0x038 then some (mbCntClr v d)
  else if off = 0x100 then some (mbCfgWrite m v d)
  else if 0x108 ≤ off && off ≤ 0x144 then some (mbStage m ((off - 0x108) / 4) v d)
  else if off = 0x148 then some (mbDb m v d)
  else if off = 0x14C then some (mbAck m d)
  else if 0x400 ≤ off && off < 0x500 then some (lockWrite m ((off - 0x400) / 4) v d)
  else none

def hifRead (m : Agent) (off : Nat) (d : Dev) : Option Word :=
  if off = 0x004 then some (hifEvt d)
  else if off = 0x018 then some (d.rd R.HIF_SPI_STAT ||| w32 (b2n (d.f F.STATUS_DP_RSTEP == 4) * 2 ^ 7))
  else if off = 0x01C then some (setBits (setBits (d.rd R.HIF_I2C_STAT) 1 1 (b2n d.dark)) 8 7
    (if d.hi.strap then 0x4D else 0x4C))
  else if off = 0x048 then some d.gpioIn
  else if 0x200 ≤ off && off ≤ 0x210 && !qsAgent m then some 0#32
  else if off = 0x20C then some ((d.hi.fifo.head?).getD 0#32)
  else if off = 0x210 then some (setBits (d.rd R.QS_STAT) 0 7 (min 64 d.hi.fifo.length))
  else none

def hifWrite (m : Agent) (off : Nat) (v : Word) (d : Dev) : Option Dev :=
  if off = 0x010 then some (hifCtrl m v d)
  else if 0x200 ≤ off && off ≤ 0x210 && !qsAgent m then some d
  else if off = 0x204 then some (qsCmd m v d)
  else if off = 0x20C then some (qsPush v d)
  else none

/-! ### Meanings -/

def execPcieReset (kind : Fin 4) (s : State) : Out := okOn s (pcieReset kind.val)
def execPcieLink (up : Bool) (speed : Fin 4) (width : Fin 3) (s : State) : Out := okOn s (pcieLink up speed.val width.val)
def execQsCmdGo (m : Agent) (v : Word) (s : State) : Out := okBy m R.QS_CMD.addr v s (qsCmd m v)
def execQsDone (bytes : List Byte) (good : Bool) (s : State) : Out := ok s (qsDone bytes good)
def execMbStageWrite (m : Agent) (k : Fin 16) (v : Word) (s : State) : Out := okOnBy m ((R.MB_W.at k.val).addr) v s (mbStage m k.val v)
def execMbDb (m : Agent) (v : Word) (s : State) : Out := okOnBy m R.MB_DB.addr v s (mbDb m v)
def execMbAck (m : Agent) (v : Word) (s : State) : Out := okOnBy m R.MB_ACK.addr v s (mbAck m)
def execMbTimeout (x : Fin 32) (s : State) : Out := ok s (mbTimeout x.val)
def execSideRst (m : Agent) (v : Word) (s : State) : Out := okOnBy m R.HIF_CTRL.addr v s (hifCtrl m v)
def execStationCoreReset (k : Fin 4) (wdog : Bool) (s : State) : Out := ok s (coreReset k.val wdog)
def execMbAudit (s : State) : Out := ok s mbAudit
def execMbCntClr (m : Agent) (v : Word) (s : State) : Out := okOnBy m R.MB_CNT_CLR.addr v s (mbCntClr v)
def execLockRead (m : Agent) (k : Fin 64) (s : State) : Out := okOnBy m ((R.LOCK.at k.val).addr) 0#32 s (lockRead m k.val) false
def execLockWrite (m : Agent) (k : Fin 64) (v : Word) (s : State) : Out := okOnBy m ((R.LOCK.at k.val).addr) v s (lockWrite m k.val v)
def execGpioEdge (pin : Fin 32) (rising : Bool) (s : State) : Out := okOn s (gpioEdge pin.val rising)

end Sys2Proof.Machine
end

