-- ==== Sys2Proof/Machine/Ptp.lean ====
section
/-!
DEFINITION. PTP messages inside frames, and what a port does to their stamps and fields (09_time_references.md R262 to
R265). The message layout is that of IEEE 1588, which R261 names.
Marks (notes/assumptions): PRESUMED 51.
-/
namespace Sys2Proof.Machine

def byteAt (bs : List Byte) (k : Nat) : Nat := ((bs[k]?).getD 0#8).toNat
def be (bs : List Byte) (k n : Nat) : Nat := (List.range n).foldl (fun v i => v * 256 + byteAt bs (k + i)) 0

/-- The bytes of `v`, `n` of them, highest first. -/
def beBytes (n v : Nat) : List Byte := ((List.range n).map (fun i => BitVec.ofNat 8 (v / 256 ^ i))).reverse

/-- `bs` with `xs` at `k`. -/
def splice (bs : List Byte) (k : Nat) (xs : List Byte) : List Byte := bs.take k ++ xs ++ bs.drop (k + xs.length)

/-- Where a frame's UDP header starts, over IPv4. -/
def udpAt (bs : List Byte) : Option Nat :=
  let e := if be bs 12 2 = 0x8100 then 16 else 12
  if be bs e 2 = 0x0800 ∧ byteAt bs (e + 11) = 17 then some (e + 2 + 4 * (byteAt bs (e + 2) % 16)) else none

/-- Where a frame's PTP message starts, over IEEE 802.3 or UDP over IPv4. -/
def ptpAt (bs : List Byte) : Option Nat :=
  let e := if be bs 12 2 = 0x8100 then 16 else 12
  if be bs e 2 = 0x88F7 then some (e + 2)
  else match udpAt bs with
    | some u => if be bs (u + 2) 2 = 319 ∨ be bs (u + 2) 2 = 320 then some (u + 8) else none
    | none => none

def isPtp (bs : List Byte) : Bool := (ptpAt bs).isSome

/-- The messageType: 0 Sync, 1 Delay_Req, 2 Pdelay_Req, 3 Pdelay_Resp are the event messages. -/
def ptpType (bs : List Byte) : Option Nat := (ptpAt bs).map (fun k => byteAt bs k % 16)
def ptpEvent (bs : List Byte) : Bool := match ptpType bs with | some t => decide (t < 4) | none => false

/-- The stamp of a number of tenths of a nanosecond; seconds have 48 bits. -/
def Stamp.ofTenths (v : Int) : Stamp :=
  let n := (v % (2 ^ 48 * 10 ^ 10 : Nat)).toNat
  ⟨n / 10 % 10 ^ 9, n / 10 ^ 10, n % 10⟩

/-- The ingress stamp of a frame whose raw stamp is `raw`, in tenths of a nanosecond (R262, R263). -/
def Dev.rxStamp (d : Dev) (p : Nat) (bs : List Byte) (raw : Int) : Int :=
  let asym := if ptpType bs = some 0 then sgn 16 (d.rd (R.TU_ASYM.at p)).toNat else 0
  raw - (d.rd (R.TU_ING.at p)).toNat - asym

/-- The egress stamp (R262, R263). -/
def Dev.txStamp (d : Dev) (p : Nat) (bs : List Byte) (raw : Int) : Int :=
  let asym := if ptpType bs = some 1 then sgn 16 (d.rd (R.TU_ASYM.at p)).toNat else 0
  raw + (d.rd (R.TU_EGR.at p)).toNat - asym

/-- The correctionField, in 2^-16 ns, goes up by a number of tenths. -/
def addCorr (k : Nat) (tenths : Int) (bs : List Byte) : List Byte :=
  splice bs (k + 8) (beBytes 8 (unsgn 64 ((be bs (k + 8) 8 : Int) + tenths * 65536 / 10)))

/-- The frame as it leaves port `p` with egress stamp `eg` (R264, R265). `turn` is the turnaround of a Pdelay_Resp, `fwd` the
residence time of an event message that Station firmware forwards as NETM's transparent clock, all in tenths of a nanosecond. -/
def Dev.onStep (d : Dev) (p : Nat) (eg turn : Int) (fwd : Option Int) (bs : List Byte) : List Byte :=
  match ptpAt bs with
  | none => bs
  | some k =>
    let ty := byteAt bs k % 16
    let one := d.fb (F.TU_PCFG_ONESTEP.at p)
    let s := Stamp.ofTenths eg
    let bs' := if one && ty == 0 then addCorr k s.tenth (splice bs (k + 34) (beBytes 6 s.sec ++ beBytes 4 s.ns))
      else if one && ty == 3 then addCorr k turn bs else bs
    let bs' := if one && (ty == 0 || ty == 3) then
        (match udpAt bs with
         | some u => splice bs' (u + 6) [0#8, 0#8]
         | none => bs')
      else bs'
    match fwd with
    | some r => if d.fb (F.TU_PCFG_TC.at 2) && decide (ty < 4) then addCorr k r bs' else bs'
    | none => bs'

end Sys2Proof.Machine
end

