-- ==== Sys2Proof/Machine/Tdm.lean ====
section
/-!
DEFINITION. TDM ports, AES3 receivers and transmitters, and sample-rate conversion (07_tdm_ports.md R206 to R233).
Marks (notes/assumptions): PRESUMED 26; DESIGN CHOICE 42, 44; DEDUCED 43, 45, 98, 111.
-/
namespace Sys2Proof.Machine

def Dev.onTdm (d : Dev) (g : Tdm → Tdm) : Dev := { d with tdm := g d.tdm }
def Dev.port (d : Dev) (k : Nat) : Port := d.tdm.port k
def Dev.setPort (d : Dev) (k : Nat) (p : Port) : Dev := d.onTdm (fun t => t.setPort k p)

/-- The QIDs of an interface (01_architecture.md R38). -/
def rxQ (k : Nat) : Nat := if k < 16 then 256 + k else 272 + k
def txQ (k : Nat) : Nat := 272 + k

/-- TDM ports of the package (R233). -/
def Dev.nPorts (d : Dev) : Nat := if d.cap.tdm16 then 16 else 8
def Dev.portSel (d : Dev) (m : Agent) : Nat := Reg.idx d R.PORT_SEL m

/-- A field of port `k`'s registers. -/
def Dev.pf (d : Dev) (f : Fld) (k : Nat) : Nat := d.f (f.of k)
def Dev.pb (d : Dev) (f : Fld) (k : Nat) : Bool := d.pf f k != 0

/-- An event of a port (`pt`), or of a receiver (`ar`). -/
def ioEvt (pt ar : Option Fld) (k : Nat) (d : Dev) : Dev :=
  if k < 16 then (match pt with
    | some f => d.setF (f.of k) 1
    | none => d)
  else match ar with
    | some f => d.setF (f.at (k - 16)) 1
    | none => d

/-! ### Formats and dividers (R206, R207, R209) -/

def widthOf (code : Nat) : Nat := if code = 0 then 16 else if code = 1 then 24 else 32

def Dev.slots (d : Dev) (k : Nat) : Nat := if k < 16 then d.pf F.PT_FMT_SLOTS k + 1 else 2
def Dev.width (d : Dev) (k : Nat) : Nat := if k < 16 then widthOf (d.pf F.PT_FMT_WIDTH k) else 24

/-- Is the port's format and divider legal (R206, R209)? -/
def Dev.formatOk (d : Dev) (k : Nat) : Bool :=
  let flen := d.pf F.PT_DIV_FLEN k
  let int := d.pf F.PT_DIV_INT k
  let num := d.pf F.PT_DIVF_NUM k
  let den := max 1 (d.pf F.PT_DIVF_DEN k)
  let q := if d.pb F.PT_CFG_DOUBLE k then 2048 else 4096
  decide (32 ≤ flen) && decide (flen ≤ 1024) && decide (d.pf F.PT_FMT_WIDTH k ≠ 3) && decide (d.slots k * d.width k ≤ flen) &&
    decide (d.pf F.PT_FMT_OFS k < flen) && decide (4 ≤ int) && decide (num < den) &&
    decide ((int * den + num) * flen = q * den)

/-- The members of a port's alignment group; none for groups 8 to 15 (R214). -/
def Dev.members (d : Dev) (g : Nat) : List Nat :=
  if g < 8 then (List.range d.nPorts).filter (fun k => d.pf F.PT_CFG_GROUP k == g) else []

/-- The enabled members of its group have its CLK, DOUBLE and MASTER (R214). -/
def Dev.groupOk (d : Dev) (k : Nat) : Bool :=
  ((d.members (d.pf F.PT_CFG_GROUP k)).filter (fun j => j != k && d.pb F.PT_CFG_EN j)).all
    (fun j => bits (d.rd (R.PT_CFG.of j)) 26 3 == bits (d.rd (R.PT_CFG.of k)) 26 3)

/-! ### Converter attachments (R228 to R230) -/

/-- Attachments of an interface: TYPE, INST and DIR of SRC_CFG. -/
def Dev.attsOf (d : Dev) (type inst dir : Nat) : List Nat :=
  (List.range 16).filter (fun a => d.fb (F.SRC_CFG_VALID.at a) && d.f (F.SRC_CFG_TYPE.at a) == type &&
    d.f (F.SRC_CFG_INST.at a) == inst && d.f (F.SRC_CFG_DIR.at a) == dir)

def Dev.ioAtts (d : Dev) (k : Nat) (tx : Bool) : List Nat :=
  if k < 16 then d.attsOf 0 k (b2n tx) else if k < 18 then d.attsOf 1 (k - 16) 0 else d.attsOf 1 (k - 18) 1

/-- An attachment enters a state; every change sets EVT.SRC (R229). The ratio is 0 outside LOCKED. -/
def attState (st : Nat) (d : Dev) (a : Nat) : Dev :=
  if d.f (F.SRC_STAT_STATE.at a) = st then d
  else
    let d := d.setF (F.SRC_STAT_STATE.at a) st
    let d := d.when (decide (st ≠ 2)) (fun d => d.wr (R.SRC_RATIO.at a) 0#32)
    d.evt Ev.TIO_SRC

def Dev.attLocked (d : Dev) (a : Nat) : Bool := decide (d.f (F.SRC_STAT_STATE.at a) = 2)
def Dev.onAtt (d : Dev) (a : Nat) (g : Att → Att) : Dev := d.onTdm (fun t => t.setAtt a (g (t.att a)))

/-- Attachments whose interface starts to run leave IDLE; those whose interface stops return to it. -/
def attsRun (on : Bool) (as : List Nat) (d : Dev) : Dev :=
  if on then (as.filter (fun a => d.f (F.SRC_STAT_STATE.at a) == 0)).foldl (attState 1) d
  else (as.foldl (attState 0) d).onTdm (fun t => as.foldl (fun t a => t.setAtt a .idle) t)

def attRun (on : Bool) (k : Nat) (d : Dev) : Dev := attsRun on (d.ioAtts k false ++ d.ioAtts k true) d

/-- A ramp over a block: sample times `n / 32`, truncated toward minus infinity. -/
def scale32 (n : Nat) (w : Word) : Word := wOfInt (narrow (wInt w * n) 5)


/-- A step of the rate or a loss of its clock: the output fades, and the tracker starts again (R229). -/
def srcRelock (a : Nat) (d : Dev) : Dev :=
  d.when (d.attLocked a) (fun d =>
    ((attState 1 d a).bumpF (F.SRC_STAT_RELOCK.at a)).onAtt a (fun x => { x with ramp := none, fade := some d.nextDep, n := 0 }))

/-- The tracker has measured the ratio: in ACQUIRE the attachment locks, and its first block ramps in; in LOCKED it follows within 1 %, and a
larger step relocks (R229). -/
def srcLocked (a : Nat) (ratio : Word) (d : Dev) : Dev :=
  let st := d.f (F.SRC_STAT_STATE.at a)
  let was := (d.tdm.att a).ratio
  if !d.fb (F.SRC_CFG_VALID.at a) || st = 0 then d
  else if st = 1 then
    ((attState 2 d a).wr (R.SRC_RATIO.at a) ratio).onAtt a (fun x => ⟨ratio.toNat, [], some d.nextDep, none, 0, x.live⟩)
  else if 100 * ((ratio.toNat : Int) - was).natAbs ≤ was then (d.wr (R.SRC_RATIO.at a) ratio).onAtt a (fun x => { x with ratio := ratio.toNat })
  else srcRelock a d

/-- A LOCKED attachment takes one sample of each of its channels. -/
def Att.feed (x : Att) (ws : List Word) : Att :=
  { x with acc := ws.zipIdx.foldl (fun t e => Tbl.put t e.2 (Config.srcStep x.ratio (Tbl.getD t e.2 0) e.1)) x.acc }

def attFeed (a : Nat) (ws : List Word) (d : Dev) : Dev :=
  d.when (d.attLocked a) (fun d => d.onAtt a (fun x => x.feed (ws.take (d.f (F.SRC_CFG_COUNT.at a)))))

/-- What channel `c` of an attachment delivers at `place` (R230): the filter is not stated, so an unknown function of the input so far and the
ratio. -/
def Att.sample (x : Att) (c place : Nat) : Word := Config.srcOut x.ratio (Tbl.getD x.acc c 0) place

/-- Block `b` of a converter into the render path: ramped in after a lock, faded after a relock, zero otherwise (R229). -/
def convBlock (a b : Nat) (d : Dev) : Tbl (List Word) :=
  let x := d.tdm.att a
  let gain (j : Nat) (w : Word) : Word :=
    if x.fade = some b then scale32 (31 - j) w
    else if !d.attLocked a then 0#32
    else if x.ramp = some b then scale32 (j + 1) w else w
  (List.range (d.f (F.SRC_CFG_COUNT.at a))).map (fun c => (c, (List.range 32).map (fun j => gain j (x.sample c j))))

/-- The next sample of channel `c` of a converter out of the render path: the same ramps, over 32 samples at fs (R229). -/
def convOut (a c : Nat) (d : Dev) : Word :=
  let x := d.tdm.att a
  let j := x.n * 2 ^ 28 / max 1 x.ratio
  if !x.live then 0#32
  else if d.attLocked a then (if j < 32 then scale32 (j + 1) (x.sample c x.n) else x.sample c x.n)
  else if x.fade.isSome && decide (j < 32) then scale32 (31 - j) (x.sample c x.n) else 0#32

/-! ### Queues of the interfaces (R214) -/

/-- A block goes to the receive queue, or is discarded and counted (R37, R214). -/
def rxPush (k b : Nat) (ch : Tbl (List Word)) (d : Dev) : Dev :=
  if (d.q.get (rxQ k)).h > 0 then d.onQ (fun q => q.push (rxQ k) ⟨b, ch⟩)
  else ioEvt (some F.PT_EVT_RX_OVR) (some F.AR_EVT_RX_OVR) k (d.when (decide (k < 16)) (fun d => d.bump (R.PT_OVR_CNT.of k)))

/-- A consumer found no slot of its block: zeros, counted (R214). -/
def rxUnderrun (k : Nat) (d : Dev) : Dev :=
  ioEvt (some F.PT_EVT_RX_UND) (some F.AR_EVT_RX_UND) k (d.when (decide (k < 16)) (fun d => d.bump (R.PT_UND_CNT.of k)))

def txUnderrun (k : Nat) (d : Dev) : Dev :=
  if k < 16 then (d.bump (R.PT_UND_CNT.of k)).setF (F.PT_EVT_TX_UND.of k) 1 else d.bumpF (F.AT_STATUS_UND.at (k - 18))

/-- The directions in use. -/
def Dev.rxUse (d : Dev) (k : Nat) : Bool := if k < 16 then d.pb F.PT_CFG_RXEN k else decide (k < 18)
def Dev.txUse (d : Dev) (k : Nat) : Bool := if k < 16 then d.pb F.PT_CFG_TXEN k else decide (18 ≤ k)
def Dev.rxSrc (d : Dev) (k : Nat) : Bool := !(d.ioAtts k false).isEmpty
def Dev.txSrc (d : Dev) (k : Nat) : Bool := !(d.ioAtts k true).isEmpty

/-- The queues of an enabled interface, one for each direction it has: RXEN and TXEN may change while it runs. -/
def makeQueues (k : Nat) (d : Dev) : Dev :=
  let d := d.when (decide (k < 18)) (fun d => d.onQ (fun q => q.create (rxQ k) 4))
  d.when (decide (k < 16) || decide (18 ≤ k)) (fun d => d.onQ (fun q => q.create (txQ k) 4))

def dropQueues (k : Nat) (d : Dev) : Dev :=
  let d := d.when (decide (k < 18)) (fun d => d.onQ (fun q => q.remove (rxQ k)))
  d.when (decide (k < 16) || decide (18 ≤ k)) (fun d => d.onQ (fun q => q.remove (txQ k)))

/-! ### Zero crossing, slot by slot (R212) -/

/-- Does the slot's latest sample cross zero? -/
def crosses (prev last : List Word) (s : Nat) : Bool :=
  match last[s]? with
  | none => false
  | some w => w == 0#32 || (match prev[s]? with
    | some v => bit v 31 != bit w 31
    | none => false)

/-- Slot `s` switches: its mask bit, and its latest received sample is delivered, or becomes zero. -/
def Port.switch (p : Port) (tx : Bool) (s : Nat) : Port :=
  let put (m : Nat) : Nat := if p.want then m ||| 2 ^ s else m - (m &&& 2 ^ s)
  if tx then { p with txOn := put p.txOn }
  else
    let j := p.lastRx % 32
    let v := if p.want then (p.rxLast[s]?).getD 0#32 else 0#32
    { p with rxOn := put p.rxOn,
             rxBuf := if p.rxBlk = p.lastRx / 32 then p.rxBuf.map (fun (e : Nat × List Word) => if e.1 = j then (e.1, e.2.set s v) else e) else p.rxBuf }

/-- Is slot `s` still to switch? -/
def Port.pendingSlot (p : Port) (tx : Bool) (s : Nat) : Bool :=
  let on := ((if tx then p.txOn else p.rxOn) >>> s) % 2 == 1
  on != p.want

/-- The gain of a received sample at index `n`: a rejoin's first block ramps in (R220). -/
def Port.rxGain (p : Port) (n : Nat) (w : Word) : Word := if p.rxRamp = some (n / 32) then scale32 (n % 32 + 1) w else w

/-- The row of the block just received at which slot `s` switches, and whether for want of a crossing, after `zcto` samples. -/
def Port.zcFirst (p : Port) (zcto s : Nat) : Option (Nat × Bool) :=
  (List.range 32).findSome? (fun j => (Tbl.get? p.raw j).bind (fun xs =>
    if crosses (if j = 0 then p.rawTail else Tbl.getD p.raw (j - 1) []) xs s then some (j, false)
    else if zcto ≤ j + 1 then some (j, true) else none))

/-- Slot `s` of the block just received from row `j` on: its data, or zeros. -/
def Port.zcRows (p : Port) (s j : Nat) : Port :=
  let val (i : Nat) : Word := if p.want then p.rxGain (32 * p.rxBlk + i) (((Tbl.getD p.raw i [])[s]?).getD 0#32) else 0#32
  let q := { p with rxBuf := p.rxBuf.map (fun (e : Nat × List Word) => (e.1, if j ≤ e.1 then e.2.set s (val e.1) else e.2)) }
  { q with rxOn := if p.want then p.rxOn ||| 2 ^ s else p.rxOn - (p.rxOn &&& 2 ^ s) }

/-- A stop, or its reversal, that takes effect at the departure of the block just received: the slots switch within that block (R212, R213); and
whether one did so for want of a crossing. -/
def Port.zcBlock (p : Port) (zcto slots : Nat) : Port × Bool :=
  (List.range slots).foldl (fun a s =>
    match (if a.1.pendingSlot false s then a.1.zcFirst zcto s else none) with
    | some (j, t) => (a.1.zcRows s j, a.2 || t)
    | none => a) (p, false)

/-! ### Start and stop (R210 to R213) -/

def Dev.master (d : Dev) (k : Nat) : Bool := if k < 16 then d.pb F.PT_CFG_MASTER k else decide (18 ≤ k)
def Dev.zeroCross (d : Dev) (k : Nat) : Bool := decide (k < 16) && d.pb F.PT_SIL_METHOD k
def Dev.allSlots (d : Dev) (k : Nat) : Nat := 2 ^ d.slots k - 1

/-- A port joins the render path directly only on MCK0 at fs (R208). -/
def Dev.direct (d : Dev) (k : Nat) : Bool :=
  let on (clk dbl : Bool) : Bool := !clk && dbl == (d.fs % 2 == 1)
  if k < 16 then on (d.pb F.PT_CFG_CLK k) (d.pb F.PT_CFG_DOUBLE k)
  else if k < 18 then true
  else on (d.fb (F.AT_CFG_CLK.at (k - 18))) (d.fb (F.AT_CFG_DOUBLE.at (k - 18)))

/-- Transmit data flows from sample index `n` on, unless it does already (R211, R213). -/
def Port.flowFrom (p : Port) (n : Nat) : Port :=
  if p.plan.head?.any Prod.snd then p else { p with plan := ((n, true) :: p.plan).take 4 }

/-- Does transmit data flow at sample index `n`? -/
def Port.flows (p : Port) (n : Nat) : Bool := (p.plan.find? (fun e => decide (e.1 ≤ n))).any Prod.snd

/-- Data is released (R211, R212): from block `rb` on the receive side, from block `tb` on the transmit side; at once for every slot with
method 0, slot by slot with method 1. -/
def release (rb tb k : Nat) (d : Dev) : Dev :=
  let p := d.port k
  let on := if d.zeroCross k then 0 else d.allSlots k
  let d := d.setPort k { p.flowFrom (32 * tb) with st := .run, want := true, fade := none, rxFrom := 32 * rb, rxTurn := 32 * rb,
                                                   txTurn := 32 * tb, rxOn := on, txOn := on }
  attRun true k (ioEvt (some F.PT_EVT_STARTED) none k d)

/-- A receiver that is not locked has no grade (R226). -/
def gradeOff (k : Nat) (d : Dev) : Dev :=
  d.when (decide (16 ≤ k) && decide (k < 18) && decide (d.f (F.AR_STATUS_GRADE.at (k - 16)) ≠ 0)) (fun d =>
    (d.setF (F.AR_STATUS_GRADE.at (k - 16)) 0).setF (F.AR_EVT_GRADE.at (k - 16)) 1)

/-- No frames arrive: PT_PERIOD reads 0 (R233). -/
def noFrames (k : Nat) (d : Dev) : Dev :=
  (d.setPort k { d.port k with pers := [] }).when (decide (k < 16)) (fun d => d.wr (R.PT_PERIOD.of k) 0#32)

/-- An interface at rest: nothing is driven, its attachments are idle. -/
def portRest (k : Nat) (d : Dev) : Dev :=
  gradeOff k (attRun false k (noFrames k (d.setPort k { Port.off with reqs := (d.port k).reqs })))

/-- The port stops driving its pins (R211). -/
def portOff (k : Nat) (d : Dev) : Dev := portRest k (dropQueues k d)

/-- May the port be enabled (R206, R209, R214)? -/
def Dev.portOk (d : Dev) (k : Nat) : Bool := decide (16 ≤ k) || (d.formatOk k && d.groupOk k)

/-- The port is not enabled: EN reads 0. -/
def refuse (k : Nat) (d : Dev) : Dev := (d.setB (F.PT_CFG_EN.of k) false).setF (F.PT_EVT_CFG.of k) 1

/-- A zero-crossing stop or its reversal takes effect at a departure: the received slots that cross within its block switch there. A converter
has taken that block's samples, so that its slots switch from the next frame on. -/
def zcTurn (k : Nat) (p : Port) (d : Dev) : Dev :=
  let r := if d.rxUse k && !d.rxSrc k && p.locked then p.zcBlock (max 1 (d.pf F.PT_SIL_ZCTO k)) (d.slots k) else (p, false)
  (d.setPort k r.1).when r.2 (fun d => d.setF (F.PT_EVT_ZC_TO.of k) 1)

/-- An EN = 1 that takes effect at departure `b`: a start, or the reversal of a stop from its current step (R210, R213). -/
def enableAt (k b : Nat) (d : Dev) : Dev :=
  let p := d.port k
  match p.st with
  | .off =>
    if !d.portOk k then refuse k d
    else
      let d := makeQueues k (d.setPort k { p with st := .start, locked := d.master k, left := false, cnt := 0, since := b })
      if 18 ≤ k then release b b k d else d
  | .stopping =>
    if !p.locked then d.setPort k { p with st := if p.left || p.fade.isSome then .fly else .start, cnt := 0 }
    else if d.zeroCross k then
      let d := zcTurn k { p.flowFrom (32 * b) with st := .run, want := true, rxTurn := 32 * b, txTurn := 32 * b } d
      attRun true k (ioEvt (some F.PT_EVT_STARTED) none k d)
    else release b b k d
  | _ => d

/-- An EN = 0 that takes effect at departure `b` (R211 to R213, R219); before data is released no slot has to switch. -/
def disableAt (k b : Nat) (d : Dev) : Dev :=
  let p := d.port k
  let ending : Port := { p with st := .stopping, cnt := 0, want := false, stop := 32 * b, rxTurn := 32 * b, txTurn := 32 * b, back := none,
                                plan := if d.zeroCross k ∧ p.st ≠ .start then p.plan else ((32 * b, false) :: p.plan).take 4 }
  match p.st with
  | .off | .stopping => d
  | .rateStop => portOff k d
  | .start => if 16 ≤ k then portOff k d
    else d.setPort k { ending with rxOn := if p.locked ∧ !d.zeroCross k then d.allSlots k else 0, txOn := 0 }
  | .fly => if 16 ≤ k then portOff k d else d.setPort k { ending with rxOn := 0 }
  | .run => if 16 ≤ k then portOff k d else if d.zeroCross k then zcTurn k ending d else d.setPort k ending

/-- What a request does at its block before its direction acts: TDM_GCTRL's writes EN, for a legal port (R215). -/
def reqEn (k : Nat) (a : List Bool × Dev) (r : PReq) : List Bool × Dev :=
  if !r.group then (a.1 ++ [r.en], a.2)
  else if a.2.pb F.PT_CFG_EN k = r.en ∧ (r.en ∨ (a.2.port k).st ≠ .rateStop) then a
  else if r.en && !a.2.portOk k then (a.1, refuse k a.2)
  else (a.1 ++ [r.en], a.2.setB (F.PT_CFG_EN.of k) r.en)

/-- The requests whose block has come: the last of them acts (R213); in RATE_STOP an EN = 0 among them ends the stop (R219). A timed start
whose block falls within a Halt waits for its end (16_modes_power.md R446). -/
def portActs (b : Nat) (d : Dev) (k : Nat) : Dev :=
  let p := d.port k
  let isNow (r : PReq) : Bool := decide (r.blk ≤ b) && !(r.timed && d.inMode mHalt)
  let d := d.when (p.reqs.any isNow) (fun d => d.setPort k { p with reqs := p.reqs.filter (fun r => !isNow r) })
  let (ens, d) := (p.reqs.filter isNow).foldl (reqEn k) ([], d)
  let d := d.when (decide (p.st = .rateStop) && ens.contains false) (portOff k)
  match ens.getLast? with
  | none => d
  | some true => enableAt k b d
  | some false => disableAt k b d

def request (k : Nat) (r : PReq) (d : Dev) : Dev :=
  let p := d.port k
  d.setPort k { p with reqs := p.reqs ++ [r] }

/-- EN of a port written: a legal port starts or stops at block `b`; an illegal one is not enabled, and CFG sets
(R206, R209, R214). An EN that is written as it stands asks for nothing, but for the EN = 0 that ends RATE_STOP (R219). -/
def setEn (k b : Nat) (en : Bool) (d : Dev) : Dev :=
  if d.pb F.PT_CFG_EN k = en ∧ (en ∨ (d.port k).st ≠ .rateStop) then d
  else if en && !d.portOk k then refuse k d
  else request k ⟨b, en, false, false⟩ (d.setB (F.PT_CFG_EN.of k) en)

/-- A write of PT_CFG: GROUP, MASTER, CLK and DOUBLE only while OFF (R232), then EN. -/
def ptCfgWrite (m : Agent) (v : Word) (d : Dev) : Dev :=
  let k := d.portSel m
  d.when (decide (k < d.nPorts)) (fun d =>
    let r := R.PT_CFG.of k
    let fixed : Word := 0x1C0F0000#32
    let off := decide ((d.port k).st = .off)
    let d := d.when (!off && decide ((d.rd r ^^^ v) &&& fixed ≠ 0#32)) (fun d => d.setF (F.PT_EVT_CFG.of k) 1)
    let d := d.wr r (merge (d.rd r) (if off then 0x7C0F0000#32 else 0x60000000#32) v)
    setEn k d.effBlk (bit v 31) d)

/-- A write of TDM_GCTRL (R215). -/
def groupCtrl (v : Word) (d : Dev) : Dev :=
  let at' := d.rd64 R.TDM_GAT_LO R.TDM_GAT_HI
  let b := if bit v 31 then max at' d.effBlk else d.effBlk
  let ask (en : Bool) (d : Dev) : Dev := (d.members (bits v 0 3)).foldl (fun d k => request k ⟨b, en, true, bit v 31⟩ d) d
  (d.when (bit v 8) (ask true)).when (bit v 9) (ask false)

/-- A write of AR_CFG or AT_CFG: the other fields, then EN. -/
def aesCfgWrite (k : Nat) (r : Reg) (mask v : Word) (d : Dev) : Dev :=
  let was := bit (d.rd r) 31
  let d := d.wr r (merge (d.rd r) mask v)
  if was = bit v 31 then d else request k ⟨d.effBlk, bit v 31, false, false⟩ d

/-- Has the port completed its start (R211, R212)? -/
def Dev.startDone (d : Dev) (k : Nat) : Bool :=
  let p := d.port k
  decide (p.st = .start) && p.locked && (d.zeroCross k || decide (d.pf F.PT_SIL_PRE k ≤ p.cnt))

/-- The block boundary after the latest frame of a port. -/
def Port.nextBlk (p : Port) : Nat := p.lastRx / 32 + 1

/-- Data is released: by the port, or by its group together at one block boundary, once every member that was not left behind is ready
(R211, R215). -/
def started (k : Nat) (d : Dev) : Dev :=
  let g := d.pf F.PT_CFG_GROUP k
  let ks := if g < 8 then (d.members g).filter (fun j => decide ((d.port j).st = .start)) else [k]
  let rb := ks.foldl (fun n j => max n (d.port j).nextBlk) 0
  d.when (d.startDone k && ks.all d.startDone) (fun d => ks.foldl (fun d j => release rb (d.nextDep - 1) j d) d)

/-- A slave port locks (R210). -/
def portLock (k : Nat) (d : Dev) : Dev :=
  let p := d.port k
  d.when (decide (p.st = .start) && !d.master k && !p.locked) (fun d => d.setPort k { p with locked := true, cnt := 0 })

/-- A member that has not locked 256 blocks after the start is left behind; it joins under R220 (R215). -/
def memberLeft (k : Nat) (d : Dev) : Dev :=
  let p := d.port k
  d.when (decide (p.st = .start) && !p.locked && decide (d.pf F.PT_CFG_GROUP k < 8) && decide (p.since + 256 ≤ d.nextDep))
    (fun d => d.setPort k { p with st := .fly, left := true })

/-- In a stop: do all slots carry zeros at transmit index `n`, so that the PRE further frames count (R211, R212)? -/
def Dev.quiet (d : Dev) (k n : Nat) : Bool :=
  let p := d.port k
  let tx := !d.txUse k || p.txOn == 0 || p.fade.any (fun i => decide (i + 32 ≤ n))
  if d.zeroCross k then (!d.rxUse k || p.rxOn == 0) && tx else tx || decide (p.stop ≤ n)

/-- The stop is complete (R211, R212). -/
def stopped (k : Nat) (d : Dev) : Dev :=
  let p := d.port k
  d.when (decide (p.st = .stopping) && d.quiet k p.lastTx && decide (d.pf F.PT_SIL_PRE k ≤ p.cnt))
    (fun d => ioEvt (some F.PT_EVT_STOPPED) none k (portOff k d))

/-! ### What a frame carries (R206, R207, R212, R218, R220) -/

/-- The sample of slot `s` in the bits of a received frame, from its active FSYNC edge to the end of its last slot: `w` bits, MSB first, from
bit clock `ofs + w * s` on, in bits 31 downward (R206, R207). -/
def slotIn (ofs w s : Nat) (din : List Bool) : Word :=
  w32 ((List.range w).foldl (fun v j => 2 * v + b2n (din.getD (ofs + w * s + j) false)) 0 * 2 ^ (32 - w))

/-- Bit `j` of the slots laid end to end. -/
def slotBit (w j : Nat) (xs : List Word) : Bool := bit (xs.getD (j / w) 0#32) (31 - j % w)

/-- The bits of a sent frame: those of `xs` from bit clock `ofs` on, before them those of the frame before that pass its end, 0 where no slot
lies (R206). -/
def frameBits (flen ofs w : Nat) (prev xs : List Word) : List Bool :=
  (List.range flen).map (fun i =>
    if ofs ≤ i then decide (i - ofs < w * xs.length) && slotBit w (i - ofs) xs
    else decide (i + flen - ofs < w * prev.length) && slotBit w (i + flen - ofs) prev)

/-- What the slots carry at transmit index `n` of the data `p.txLast`. -/
def Dev.txOut (d : Dev) (k n : Nat) (p : Port) : List Word :=
  let gain (w : Word) : Word :=
    match p.fade, p.txRamp with
    | some i, _ => if n < i then w else if n < i + 32 then scale32 (31 - (n - i)) w else 0#32
    | none, some r => if n / 32 < r then 0#32 else if n / 32 = r then scale32 (n % 32 + 1) w else w
    | none, none => w
  let passes := d.txUse k && p.flows n
  let cut (w : Word) : Word := setBits w 0 (32 - d.width k) 0
  p.txLast.zipIdx.map (fun e =>
    if passes && (p.txOn >>> e.2) % 2 == 1 then cut (d.twGate (n / 32) (n % 32) (gain e.1)) else 0#32)

/-- The frame at index `n` goes out. -/
def txSend (k n : Nat) (p : Port) (d : Dev) : Dev :=
  let out := d.txOut k n p
  d.setPort k { p with out := out, dout := if k < 16 then frameBits (d.pf F.PT_DIV_FLEN k) (d.pf F.PT_FMT_OFS k) (d.width k) p.outPrev out else [] }

/-! ### Zero crossing, by command (R212) -/

/-- The samples of a direction since a zero-crossing release or stop began, or `none`: it has not, or the direction is not in use. -/
def Dev.crossing (d : Dev) (k : Nat) (tx : Bool) : Option Nat :=
  let p := d.port k
  let (use, last, turn) := if tx then (d.txUse k, p.lastTx, p.txTurn) else (d.rxUse k, p.lastRx, p.rxTurn)
  if d.zeroCross k ∧ use ∧ p.locked ∧ (p.st = .run ∨ p.st = .stopping) ∧ turn ≤ last then some (last + 1 - turn) else none

def slotSwitch (k : Nat) (tx : Bool) (s : Nat) (d : Dev) : Dev :=
  let p := d.port k
  let hit := if tx then crosses p.txPrev p.txLast s else crosses p.rxPrev p.rxLast s
  d.when ((d.crossing k tx).isSome && decide (s < d.slots k) && p.pendingSlot tx s && hit) (fun d => txSend k p.lastTx (p.switch tx s) d)

/-- The slots that have not switched after ZCTO samples switch, and ZC_TO sets (R212). -/
def zcTimeout (k : Nat) (d : Dev) : Dev :=
  let p := d.port k
  let todo (tx : Bool) : List Nat :=
    if (d.crossing k tx).any (fun n => decide (max 1 (d.pf F.PT_SIL_ZCTO k) ≤ n)) then (List.range (d.slots k)).filter (p.pendingSlot tx) else []
  d.when (todo true != [] || todo false != []) (fun d =>
    let q := (todo false).foldl (fun p s => p.switch false s) p
    let q := (todo true).foldl (fun p s => p.switch true s) q
    (txSend k p.lastTx q d).setF (F.PT_EVT_ZC_TO.of k) 1)

/-! ### Loss and rejoin (R217 to R220) -/

/-- A loss: the port runs on its flywheel (R218); a start looks for frames again, and a stop goes on. A receiver's channel status is no longer
valid (R225). `glitch` says which event: the declaration comes with the glitched frame, or after two frames that are missing. -/
def declareLoss (glitch : Bool) (k : Nat) (d : Dev) : Dev :=
  let p := d.port k
  d.when (p.locked && !d.master k && decide (p.st ≠ .off) && decide (p.st ≠ .rateStop) && decide (p.st ≠ .fly)) (fun d =>
    let from' := p.lastTx + (if glitch then 1 else 3)
    let q : Port := match p.st with
      | .start => { p with cnt := 0 }
      | .run => { p with st := if 16 ≤ k ∧ d.rxSrc k then .start else .fly, fade := some from' }
      | _ => { p with rxOn := 0, fade := some from' }
    let d := d.setPort k { q with locked := false, bad := 0 }
    let d := d.when (decide (k < 16)) (fun d => d.bump (R.PT_LOSS_CNT.of k))
    let d := d.when (decide (16 ≤ k)) (fun d => (gradeOff k (d.setF (F.AR_STATUS_CSVALID.at (k - 16)) 0)).onTdm (fun t =>
      t.setCs k { t.chStat k with cand := [] }))
    let d := d.when (!glitch) (noFrames k)
    ioEvt (some (if glitch then F.PT_EVT_GLITCH else F.PT_EVT_LOSS)) (some F.AR_EVT_LOSS) k d)

/-- The measured rate is off nominal: without a converter the port stops, and a master's clocks with it (R219). -/
def rateOff (k : Nat) (d : Dev) : Dev :=
  let p := d.port k
  d.when (decide (p.st ≠ .off) && decide (p.st ≠ .rateStop)) (fun d =>
    let d := ioEvt (some F.PT_EVT_RATE) (some F.AR_EVT_RATE) k d
    if d.rxSrc k || d.txSrc k then d
    else
      let d := d.setPort k { p with st := .rateStop, locked := false, rxOn := 0, txOn := 0, rxBuf := [], out := [], dout := [] }
      gradeOff k (d.when (d.master k) (noFrames k)))

/-- The port is back in RUN; block `rb` is the first to ramp in, in the transmit direction the next block (R220). -/
def rejoined (rb k : Nat) (d : Dev) : Dev :=
  let p := d.port k
  let tb := p.lastTx / 32 + 1
  let d := d.setPort k { p.flowFrom (32 * tb) with st := .run, locked := true, left := false, want := true, fade := none, back := none,
                                                   rxRamp := some rb, txRamp := some tb, rxOn := d.allSlots k, txOn := d.allSlots k }
  let d := ioEvt (some F.PT_EVT_REJOIN) (some F.AR_EVT_LOCK) k d
  if p.left then attRun true k d else d

/-- Eight good frames in FLYWHEEL: with the flywheel's phase the port rejoins at the next frame; at another it rejoins at the next block
boundary, and the samples from the first of the eight up to there are dropped (R220). -/
def rejoin (k : Nat) (phase : Bool) (d : Dev) : Dev :=
  let p := d.port k
  d.when (decide (p.st = .fly) && p.back.isNone) (fun d =>
    if phase then d.setPort k { p with back := some (p.nextBlk, 32 * p.nextBlk - (p.lastRx - 7)) } else rejoined p.nextBlk k d)

/-- A rejoin whose boundary is the end of block `b`. -/
def rejoinAt (b k : Nat) (d : Dev) : Dev :=
  match (d.port k).back with
  | some (rb, n) =>
    if rb ≤ b + 1 ∧ (d.port k).st = .fly then rejoined rb k (d.when (decide (k < 16)) (fun d => d.bumpBy (R.PT_DROP_CNT.of k) n)) else d
  | none => d

/-! ### Frames (R206, R207, R214 to R220) -/

/-- The block gathered so far goes to its queue, in Mainline (`rel`, R231); a stop with method 0 has discarded its samples (R211). -/
def rxFlush (rel : Bool) (k : Nat) (d : Dev) : Dev :=
  let p := d.port k
  if p.rxBuf = [] then d
  else
    let hush := decide (p.st = .stopping) && !d.zeroCross k && decide (p.stop ≤ 32 * p.rxBlk)
    let ch := (List.range (d.slots k)).map (fun s =>
      (s, (List.range 32).map (fun j => if hush then 0#32 else ((Tbl.getD p.rxBuf j [])[s]?).getD 0#32)))
    let d := d.setPort k { p with rxBuf := [] }
    if rel && d.rxUse k && !d.rxSrc k && d.direct k && decide (p.rxFrom ≤ 32 * p.rxBlk) then rxPush k p.rxBlk ch d else d

/-- A received frame's samples at index `n`: zero in a slot that passes no data; a converter takes them. -/
def rxFrame (k n : Nat) (xs : List Word) (d : Dev) : Dev :=
  let p := d.port k
  let p := if p.rxBlk = n / 32 then p else { p with rxBlk := n / 32, rxBuf := [], raw := [], rawTail := p.rxLast }
  let live := (decide (p.st = .run) || decide (p.st = .stopping)) && p.locked && decide (p.rxFrom ≤ n) &&
    p.rxRamp.all (fun r => decide (r ≤ n / 32))
  let ys := (List.range (d.slots k)).map (fun s =>
    if live && (p.rxOn >>> s) % 2 == 1 then p.rxGain n ((xs[s]?).getD 0#32) else 0#32)
  let keep := decide (p.st = .run) || decide (p.st = .fly) || decide (p.st = .stopping)
  let d := d.setPort k { p with
    rxPrev := p.rxLast, rxLast := xs, lastRx := n, raw := Tbl.put p.raw (n % 32) xs,
    rxBuf := if keep then Tbl.put p.rxBuf (n % 32) ys else [] }
  (d.ioAtts k false).foldl (fun d a => attFeed a ys d) d

/-- The block to send: taken from its queue at its first frame; zeros when the queue lacks it (R214). -/
def txFetch (k b : Nat) (d : Dev) : Dev :=
  let p := d.port k
  if p.txBlk = some b then d
  else
    let due := d.live b && d.txUse k && !d.txSrc k && d.direct k && p.flows (32 * b) &&
      (decide (p.st = .run) || decide (p.st = .fly) || decide (p.st = .stopping))
    let p' := { p with txBlk := some b, txBuf := [] }
    if !due then d.setPort k p'
    else match d.q.takeBlk (txQ k) b with
      | (some s, q) => { d with q := q }.setPort k { p' with txBuf := s.ch }
      | (none, q) => txUnderrun k ({ d with q := q }.setPort k p')

/-- The frame sent at index `n`: a block's samples, or a converter's (R207, R228). -/
def txFrame (k n : Nat) (d : Dev) : Dev :=
  let d := txFetch k (n / 32) d
  let p := d.port k
  let as := d.ioAtts k true
  let data := (List.range (d.slots k)).map (fun s => match as with
    | a :: _ => if s < d.f (F.SRC_CFG_COUNT.at a) then convOut a s d else 0#32
    | [] => ((Tbl.getD p.txBuf s [])[n % 32]?).getD 0#32)
  let d := as.foldl (fun d a => d.onAtt a (fun x => { x with n := x.n + 1 })) d
  txSend k n { p with txPrev := p.txLast, txLast := data, lastTx := n, outPrev := p.out } d

/-- The frame sent with the frame received at index `rx`: 70 samples lie between the two (01_architecture.md R29, R30); before that, zeros. -/
def txWith (k rx : Nat) (d : Dev) : Dev :=
  if 70 ≤ rx then txFrame k (rx - 70) d
  else
    let p := d.port k
    d.setPort k { p with out := [], outPrev := p.out, dout :=
      if k < 16 then frameBits (d.pf F.PT_DIV_FLEN k) (d.pf F.PT_FMT_OFS k) (d.width k) p.out [] else [] }

/-- A frame's counts: of a start, of a stop once every slot is zero. -/
def frameCount (k n : Nat) (d : Dev) : Dev :=
  let p := d.port k
  let c := (decide (p.st = .start) && p.locked) || (decide (p.st = .stopping) && d.quiet k n)
  d.when c (fun d => d.setPort k { p with cnt := p.cnt + 1 })

/-- The sample index that a frame carries in the receive direction: MCK0's, which lies in the block being received and never goes back (R216). -/
def Dev.frameIdx (d : Dev) (k rx : Nat) : Nat := min (32 * d.nextDep + 31) (max (32 * d.nextDep) (max rx (d.port k).lastRx))

/-- What a frame measures: PT_PERIOD and PT_PHASE (R233). -/
def frameMeasure (k : Nat) (fr : TdmFrame) (d : Dev) : Dev :=
  let p := d.port k
  let pers := (fr.period :: p.pers).take 4
  let d := d.setPort k { p with pers := pers }
  (d.wr (R.PT_PERIOD.of k) (w32 (pers.foldl (· + ·) 0 / pers.length % 2 ^ 24))).wr (R.PT_PHASE.of k) (w32 (fr.phase % 2 ^ 16))

/-- TDM_FRAME: a running port counts and carries the frame; a glitch on a locked slave is a loss at once (R217). A slave in RATE_STOP still
measures what comes in; a master there has no frames (R219). -/
def tdmFrame (k : Nat) (fr : TdmFrame) (d : Dev) : Dev :=
  let p := d.port k
  let e := d.frameIdx k fr.rx
  match p.st with
  | .off => d
  | .rateStop => d.when (!d.master k) (fun d => frameMeasure k fr (d.setPort k { p with lastRx := e }))
  | _ =>
    let d := (frameMeasure k fr d).when fr.glitch (declareLoss true k)
    let xs := (List.range (d.slots k)).map (fun s => slotIn (d.pf F.PT_FMT_OFS k) (d.width k) s fr.din)
    frameCount k (e - 70) (txWith k e (rxFrame k e xs d))

/-- The flywheel at departure `b` (R218): an interface that is not locked still writes block `b`, of zeros where no frame came, and its counts
go on; with no frame in the block PT_PERIOD reads 0; a rejoin at the boundary takes place (R220). -/
def flyBlock (b : Nat) (d : Dev) (k : Nat) : Dev :=
  let p := d.port k
  let idle := decide (p.lastRx < 32 * b)
  match p.st with
  | .off => d
  | .rateStop => d.when idle (noFrames k)
  | _ =>
    let d := d.when (idle && !d.master k) (noFrames k)
    let flies := (decide (p.st = .fly) || decide (p.st = .stopping)) && !p.locked
    let n := 32 * b + 31 - 70
    let d := d.when (flies && idle) (fun d =>
      let p := d.port k
      d.setPort k { p with
        lastRx := 32 * b + 31, lastTx := n, rxBlk := b, rxBuf := [(0, [])], raw := [],
        cnt := if p.st = .stopping ∧ d.quiet k n then p.cnt + 32 else p.cnt })
    rejoinAt b k d

/-! ### AES3 (R223 to R227) -/

/-- A receiver locks: its data passes from the next block on (R223). -/
def aesLock (r : Nat) (d : Dev) : Dev :=
  let k := 16 + r
  let p := d.port k
  d.when (decide (p.st = .start)) (fun d =>
    let d := release p.nextBlk p.nextBlk k (d.setPort k { p with locked := true })
    d.setF (F.AR_EVT_LOCK.at r) 1)

/-- A subframe's sample: an errored one is replaced by the channel's previous good sample (R224), an invalid one by 0 with
VMUTE (R223). -/
def aesSample (vmute : Bool) (prev : Word) (raw : Nat) (valid bad : Bool) : Word :=
  if bad then prev else if vmute && valid then 0#32 else w32 (raw % 2 ^ 24 * 2 ^ 8)

def aesRx (r : Nat) (fr : AesFrame) (d : Dev) : Dev :=
  let k := 16 + r
  let p := d.port k
  if p.st = .off ∨ p.st = .rateStop then d
  else
    let errs := b2n fr.ea + b2n fr.eb
    let d := d.wr (R.AR_RATE.at r) (w32 (fr.rate % 2 ^ 22))
    let d := d.setF (F.AR_STATUS_PHASE.at r) fr.phase
    let d := d.when (decide (errs > 0)) (fun d =>
      (d.bumpBy (R.AR_ERR_CNT.at r) errs).setF (F.AR_EVT_BIPH.at r) 1)
    let bad := if errs > 0 then p.bad + 1 else 0
    let d := d.setPort k { p with bad := bad }
    let d := if bad > 8 then declareLoss false k d else d
    let vm := d.fb (F.AR_CFG_VMUTE.at r)
    let last (i : Nat) : Word := (p.rxLast[i]?).getD 0#32
    rxFrame k (d.frameIdx k fr.idx) [aesSample vm (last 0) fr.a fr.va fr.ea, aesSample vm (last 1) fr.b fr.vb fr.eb] d

def aesTx (t : Nat) (fr : AesFrame) (d : Dev) : Dev :=
  let k := 18 + t
  if (d.port k).st = .off then d
  else
    let e := d.frameIdx k fr.idx
    txWith k e (d.setPort k { d.port k with lastRx := e })

def aesFrame (tx : Bool) (r : Nat) (fr : AesFrame) (d : Dev) : Dev := if tx then aesTx r fr d else aesRx r fr d

/-- One step of the AES3 CRCC (generator x^8 + x^4 + x^3 + x^2 + 1, least significant bit first). -/
def crccBit (c : Nat) (b : Bool) : Nat :=
  let x := (c % 2 == 1) != b
  if x then (c / 2) ^^^ 0xB8 else c / 2

/-- The CRCC of bytes 0 to 22, from all ones (R225). -/
def crcc (bs : List Byte) : Byte :=
  BitVec.ofNat 8 ((bs.take 23).foldl (fun c b => (List.range 8).foldl (fun c i => crccBit c (b.toNat.testBit i)) c) 0xFF)

/-- Word `k` of a channel-status block (R233). -/
def csWord (bs : List Byte) (k : Nat) : Word :=
  let y (i : Nat) : Nat := ((bs[4 * k + i]?).getD 0#8).toNat
  w32 (y 0 + y 1 * 2 ^ 8 + y 2 * 2 ^ 16 + y 3 * 2 ^ 24)

/-- An accepted block (R225, R226). -/
def csAccept (r : Nat) (bs : List Byte) (d : Dev) : Dev :=
  let pro := (((bs[0]?).getD 0#8).toNat) % 2 == 1
  let newer := !d.fb (F.AR_STATUS_CSVALID.at r) ||
    (List.range 6).any (fun k => d.rd (R.AR_CS.at2 r k) != csWord bs k)
  let g := ((bs[4]?).getD 0#8).toNat % 4
  let grade := if pro && g != 3 then g else 0
  let d := (List.range 6).foldl (fun d k => d.wr (R.AR_CS.at2 r k) (csWord bs k)) d
  let d := (d.setF (F.AR_STATUS_CSVALID.at r) 1).setB (F.AR_STATUS_PRO.at r) pro
  let d := d.when newer (fun d => d.setF (F.AR_EVT_CS.at r) 1)
  let d := d.when (decide (d.f (F.AR_STATUS_GRADE.at r) ≠ grade)) (fun d => d.setF (F.AR_EVT_GRADE.at r) 1)
  d.setF (F.AR_STATUS_GRADE.at r) grade

/-- A channel-status block of subframe A, or B, arrives at a locked receiver that selects the subframe: professional with a right CRCC, or a
consumer block seen twice (R225). -/
def csBlock (r : Nat) (sub : Bool) (bs : List Byte) (d : Dev) : Dev :=
  let k := 16 + r
  d.when ((d.port k).locked && decide (bs.length = 24) && d.fb (F.AR_CFG_CSCH.at r) == sub) (fun d =>
    let c := d.tdm.chStat k
    let d := d.onTdm (fun t => t.setCs k { c with cand := bs })
    if (((bs[0]?).getD 0#8).toNat) % 2 = 1 then
      if (bs[23]?).getD 0#8 = crcc bs then csAccept r bs d else d.setF (F.AR_EVT_CRC_ERR.at r) 1
    else if c.cand = bs then csAccept r bs d else d)

/-- A read of AR_CS0 captures the block (R232). -/
def arCapture (m : Agent) (r : Nat) (d : Dev) : Dev :=
  let d := (List.range 6).foldl (fun d k => d.setHold (R.AR_CS.at2 r k) m (d.rd (R.AR_CS.at2 r k))) d
  d.answer (d.rd (R.AR_CS.at2 r 0))

/-- Writes of AT_CS0 to AT_CS4 stage; that of AT_CS5 commits all six (R227). -/
def atStage (t k : Nat) (v : Word) (d : Dev) : Dev := d.wr (R.AT_CS.at2 t k) v

def atCommit (t : Nat) (v : Word) (d : Dev) : Dev :=
  let d := d.wr (R.AT_CS.at2 t 5) v
  let bs := (List.range 6).flatMap (fun k => (List.range 4).map (fun i => BitVec.ofNat 8 ((d.rd (R.AT_CS.at2 t k)).toNat >>> (8 * i))))
  let d := d.onTdm (fun x => x.setCs (18 + t) { x.chStat (18 + t) with next := some bs })
  d.setF (F.AT_STATUS_CSPEND.at t) 1

/-- A channel-status block begins: the committed status, with byte 23 computed when CRCC = 1 (R227). -/
def csBegin (t : Nat) (d : Dev) : Dev :=
  let c := d.tdm.chStat (18 + t)
  let bs := c.next.getD c.live
  let sent := if d.fb (F.AT_CFG_CRCC.at t) then bs.take 23 ++ [crcc bs] else bs
  d.when (decide ((d.port (18 + t)).st ≠ .off)) (fun d =>
    (d.onTdm (fun x => x.setCs (18 + t) { c with next := none, live := bs, sent := sent })).setF (F.AT_STATUS_CSPEND.at t) 0)

/-! ### Departures (R210, R229, R231) -/

/-- The EN writes of every interface whose block has come, at departure `b`, counted ones included. -/
def tioRequests (b : Nat) (d : Dev) : Dev := (List.range 20).foldl (portActs b) d

/-- The receive interfaces write block `b`, just received, to their queues, when it departs. -/
def tioFlush (rel : Bool) (d : Dev) : Dev := (List.range 18).foldl (fun d k => rxFlush rel k d) d

/-- The slots of blocks that no transmit interface sends any more at departure `b`, whether it sent them or not (R214): block `b - 2` is
the one being sent (01_architecture.md R29). -/
def tioDrain (b : Nat) (d : Dev) : Dev := d.onQ (fun q => (List.range 20).foldl (fun q k => if k = 16 ∨ k = 17 then q else q.skip (txQ k) (b - 2) 16) q)

/-- The converters deliver block `b` of each running receive interface to its queue, in Mainline (R228); a loss still fades out. -/
def tioConvert (b : Nat) (d : Dev) : Dev :=
  (List.range 18).foldl (fun d k =>
    let p := d.port k
    match d.ioAtts k false with
    | [] => d
    | a :: _ =>
      let on := decide (p.st = .run) || decide (p.st = .fly) || decide (p.st = .stopping) || ((d.tdm.att a).fade == some b && p.st != .off)
      let ch := convBlock a b d
      let ch := if p.st = .stopping ∧ !d.zeroCross k ∧ p.stop ≤ 32 * b then ch.map (fun e => (e.1, e.2.map (fun _ => 0#32))) else ch
      d.when on (rxPush k b ch)) d

/-- The samples of block `b` for a converter out of the render path. -/
def attTake (a : Nat) (ch : Tbl (List Word)) (d : Dev) : Dev :=
  let n := d.f (F.SRC_CFG_COUNT.at a)
  let d := (List.range 32).foldl (fun d j => attFeed a ((List.range n).map (fun c => ((Tbl.getD ch c [])[j]?).getD 0#32)) d) d
  d.onAtt a (fun x => { x with live := true })

/-- The converters of running transmit interfaces take block `b` (R228); with no departure they hold none (R231). -/
def tioConsume (b : Nat) (prev : Bool) (d : Dev) : Dev :=
  (List.range 20).foldl (fun d k =>
    let p := d.port k
    match d.ioAtts k true with
    | [] => d
    | a :: _ =>
      let on := decide (p.st = .run) || decide (p.st = .fly) || (decide (p.st = .stopping) && (!d.zeroCross k || p.txOn != 0))
      if prev && on && p.flows (32 * b) then
        match d.q.takeBlk (txQ k) b with
        | (some s, q) => attTake a s.ch { d with q := q }
        | (none, q) => attTake a [] (txUnderrun k { d with q := q })
      else d.onAtt a (fun x => { x with live := false })) d

/-! ### Registers (R232, R233) -/

def tioCounters : List Reg :=
  [R.PT_LOSS_CNT, R.PT_OVR_CNT, R.PT_UND_CNT, R.PT_DROP_CNT, R.AR_ERR_CNT.at 0, R.AR_ERR_CNT.at 1]

def tioCntClr (v : Word) (d : Dev) : Dev :=
  d.when (bit v 0) (fun d =>
    let d := d.zeroAll tioCounters
    let d := (List.range 2).foldl (fun d t => d.setF (F.AT_STATUS_UND.at t) 0) d
    (List.range 16).foldl (fun d a => d.setF (F.SRC_STAT_RELOCK.at a) 0) d)

/-- Within an eighth of a sample of MCK0 (R221). -/
def aligned (phase : Nat) : Bool := decide ((sgn 16 phase).natAbs ≤ 32)

def ptStatus (d : Dev) (k : Nat) : Word :=
  let p := d.port k
  w32 (b2n (decide (p.st = .run) && d.rxUse k) * 2 ^ 31 + b2n (p.locked && decide (p.st ≠ .off)) * 2 ^ 30 +
    b2n (aligned (d.rd (R.PT_PHASE.of k)).toNat && decide (p.st ≠ .off)) * 2 ^ 29 + p.st.code * 2 ^ 16)

def arStatus (d : Dev) (r : Nat) : Word :=
  let p := d.port (16 + r)
  let w := d.rd (R.AR_STATUS.at r)
  setBits (setBits (setBits w 31 1 (b2n p.locked)) 28 1 (b2n (aligned (bits w 0 16) && p.st != .off))) 16 3 p.st.code

def atStatus (d : Dev) (t : Nat) : Word :=
  setBits (d.rd (R.AT_STATUS.at t)) 31 1 (b2n (decide ((d.port (18 + t)).st ≠ .off)))

/-- RXSRC and TXSRC of PT_CFG. -/
def ptCfg (d : Dev) (k : Nat) : Word :=
  setBits (setBits (d.rd (R.PT_CFG.of k)) 25 1 (b2n (d.rxSrc k))) 24 1 (b2n (d.txSrc k))

/-- EVT with its summary bits (R233). -/
def tioStatus (d : Dev) : Word :=
  let run := (List.range 8).foldl (fun n g => n + (if (d.members g).any (fun k => (d.port k).st == .run) then 2 ^ g else 0)) 0
  w32 (run * 2 ^ 8 + d.nPorts)

def tioRead (m : Agent) (off : Nat) (d : Dev) : Option Word :=
  let k := d.portSel m
  let has := decide (k < d.nPorts)
  if off = 0x004 then some (tioEvt d)
  else if off = 0x00C then some (tioStatus d)
  else if off = 0x100 then some (if has then ptCfg d k else 0#32)
  else if off = 0x114 then some (if has then ptStatus d k else 0#32)
  else if off = 0x200 || off = 0x240 then
    let r := (off - 0x200) / 0x40
    some (setBits (d.rd (R.AR_CFG.at r)) 28 1 (b2n (d.rxSrc (16 + r))))
  else if off = 0x204 || off = 0x244 then some (arStatus d ((off - 0x204) / 0x40))
  else if (0x21C ≤ off && off ≤ 0x22C) || (0x25C ≤ off && off ≤ 0x26C) then some (d.hold ⟨6, off, 0, 0, 0, 0⟩ m)
  else if off = 0x280 || off = 0x2C0 then
    let t := (off - 0x280) / 0x40
    some (setBits (d.rd (R.AT_CFG.at t)) 25 1 (b2n (d.txSrc (18 + t))))
  else if off = 0x284 || off = 0x2C4 then some (atStatus d ((off - 0x284) / 0x40))
  else none

/-- A write that is stored only while the port is OFF (R232). -/
def offOnly (k : Nat) (r : Reg) (mask v : Word) (d : Dev) : Dev :=
  if (d.port k).st = .off then d.wr (r.of k) (v &&& mask) else d.setF (F.PT_EVT_CFG.of k) 1

def tioWrite (m : Agent) (off : Nat) (v : Word) (d : Dev) : Option Dev :=
  let k := d.portSel m
  let win (g : Dev → Dev) : Option Dev := some (d.when (decide (k < d.nPorts)) g)
  if off = 0x010 then some (groupCtrl v d)
  else if off = 0x01C then some (tioCntClr v d)
  else if off = 0x100 then some (ptCfgWrite m v d)
  else if off = 0x104 then win (offOnly k R.PT_FMT 0xE31FFF00#32 v)
  else if off = 0x108 then win (offOnly k R.PT_DIV 0x07FF00FF#32 v)
  else if off = 0x10C then win (offOnly k R.PT_DIVF 0xFFFFFFFF#32 v)
  else if off = 0x110 then win (offOnly k R.PT_SIL 0x8FFFFFFF#32 v)
  else if off = 0x200 || off = 0x240 then
    let r := (off - 0x200) / 0x40
    some (aesCfgWrite (16 + r) (R.AR_CFG.at r) 0xE0000000#32 v d)
  else if off = 0x280 || off = 0x2C0 then
    let t := (off - 0x280) / 0x40
    some (aesCfgWrite (18 + t) (R.AT_CFG.at t) 0xCC000000#32 v d)
  else if 0x288 ≤ off && off ≤ 0x298 then some (atStage 0 ((off - 0x288) / 4) v d)
  else if 0x2C8 ≤ off && off ≤ 0x2D8 then some (atStage 1 ((off - 0x2C8) / 4) v d)
  else if off = 0x29C || off = 0x2DC then some (atCommit ((off - 0x29C) / 0x40) v d)
  else none

/-! ### Meanings -/

def execPortEnable (m : Agent) (v : Word) (s : State) : Out := okBy m R.PT_CFG.addr v s (ptCfgWrite m v)
def execPortDisable (m : Agent) (v : Word) (s : State) : Out := okBy m R.PT_CFG.addr v s (ptCfgWrite m v)
def execTdmFrame (p : Fin 16) (fr : TdmFrame) (s : State) : Out := ok s (tdmFrame p.val fr)
def execPortLock (p : Fin 16) (s : State) : Out := ok s (portLock p.val)
def execStarted (p : Fin 16) (s : State) : Out := ok s (started p.val)
def execSlotZcSwitch (p : Fin 16) (tx : Bool) (slot : Nat) (s : State) : Out := ok s (slotSwitch p.val tx slot)
def execZcTo (p : Fin 16) (s : State) : Out := ok s (zcTimeout p.val)
def execStopped (p : Fin 16) (s : State) : Out := ok s (stopped p.val)
def execLoss (p : Fin 18) (s : State) : Out := ok s (declareLoss false p.val)
def execRate (p : Fin 18) (s : State) : Out := ok s (rateOff p.val)
def execRejoin (p : Fin 18) (phaseChanged : Bool) (s : State) : Out := ok s (rejoin p.val phaseChanged)
def execTdmGroupStart (m : Agent) (v : Word) (s : State) : Out := okBy m R.TDM_GCTRL.addr v s (groupCtrl v)
def execTdmGroupStop (m : Agent) (v : Word) (s : State) : Out := okBy m R.TDM_GCTRL.addr v s (groupCtrl v)
def execGroupMemberLeft (p : Fin 16) (s : State) : Out := ok s (memberLeft p.val)
def execAesRxLock (r : Fin 2) (s : State) : Out := ok s (aesLock r.val)
def execAes3Frame (tx : Bool) (r : Fin 2) (fr : AesFrame) (s : State) : Out := ok s (aesFrame tx r.val fr)
def execChannelStatusBlock (r : Fin 2) (sub : Bool) (bytes : List Byte) (s : State) : Out := ok s (csBlock r.val sub bytes)
def execArCsCaptureRead (m : Agent) (r : Fin 2) (s : State) : Out := okBy m ((R.AR_CS.at r.val).addr) 0#32 s (arCapture m r.val) false
def execAtCsStage (m : Agent) (t : Fin 2) (k : Fin 5) (v : Word) (s : State) : Out := okBy m ((R.AT_CS.at2 t.val k.val).addr) v s (atStage t.val k.val v)
def execAtCs5Commit (m : Agent) (t : Fin 2) (v : Word) (s : State) : Out := okBy m ((R.AT_CS.at2 t.val 5).addr) v s (atCommit t.val v)
def execCsBlockBegin (t : Fin 2) (s : State) : Out := ok s (csBegin t.val)
def execSrcLocked (a : Fin 16) (ratio : Word) (s : State) : Out := ok s (srcLocked a.val ratio)
def execSrcRelock (a : Fin 16) (s : State) : Out := ok s (srcRelock a.val)
def execTioCntClr (m : Agent) (v : Word) (s : State) : Out := okBy m R.TIO_CNT_CLR.addr v s (tioCntClr v)

end Sys2Proof.Machine
end

