-- ==== Sys2Proof/Machine/Net.lean ====
section
/-!
DEFINITION. Network ports: frame descriptors, transmission and reception, gate control, half duplex, stamps, audio
streams and the metadata stream (08_network.md R234 to R260).
Marks (notes/assumptions): DEDUCED 46, 48, 49, 99, 109, 111, 112; DESIGN CHOICE 47, 110; PRESUMED 51, 100.
-/
namespace Sys2Proof.Machine

def Dev.onNet (d : Dev) (g : Net → Net) : Dev := { d with net := g d.net }
def Dev.np (d : Dev) (p : Nat) : NPort := d.net.port p
def Dev.setNp (d : Dev) (p : Nat) (x : NPort) : Dev := d.onNet (fun n => n.setPort p x)

/-- Does the variant have port `p`, and is it enabled (R234, R235)? -/
def Dev.npHas (d : Dev) (p : Nat) : Bool := p != 1 || d.cap.netb
def Dev.npOn (d : Dev) (p : Nat) : Bool := d.npHas p && d.fb (F.NP_CFG_EN.at p)

/-- Agents 4 to 7, the Station cores, own the frame interface (R236). -/
def Agent.isStation (m : Agent) : Bool := decide (4 ≤ m.num) && decide (m.num ≤ 7)

/-! ### Counters (R255) -/

/-- Counter `k` of port `p` goes up by `n` and rolls over; its half-range flag sets when bit 31 rises. -/
def npCount (p k n : Nat) (d : Dev) : Dev :=
  let v := Tbl.getD d.net.cnt (64 * p + k) 0
  let v' := (v + n) % 2 ^ 32
  let d := d.onNet (fun x => { x with cnt := Tbl.set x.cnt 0 (64 * p + k) v' })
  d.when (decide (v < 2 ^ 31) && decide (2 ^ 31 ≤ v')) (fun d =>
    let d := if k < 32 then d.setBit (R.NP_CNT_HALF0.at p) k else d.setBit (R.NP_CNT_HALF1.at p) (k - 32)
    d.setF (F.NP_EVT_CNT_HALF.at p) 1)

/-- The size class of a frame of `n` bytes with its FCS, 0 to 6. -/
def sizeClass (n : Nat) : Nat :=
  if n ≤ 64 then 0 else if n ≤ 127 then 1 else if n ≤ 255 then 2 else if n ≤ 511 then 3 else if n ≤ 1023 then 4
  else if n ≤ 1522 then 5 else 6

/-- The counters of a good frame: `k` is 0 for reception, 24 for transmission; `sz` the first of its size counters. -/
def countFrame (p k sz n : Nat) (dst : List Byte) (vlan ptp : Bool) (d : Dev) : Dev :=
  let cast := if dst.all (· == 0xFF#8) then 4 else if ((dst[0]?).getD 0#8).toNat % 2 = 1 then 3 else 2
  let d := npCount p (k + cast) 1 (npCount p (k + 1) n (npCount p k 1 d))
  let d := d.when vlan (npCount p (k + 5) 1)
  let d := d.when ptp (npCount p (k + 6) 1)
  npCount p (sz + sizeClass n) 1 d

/-- Does a frame carry an IEEE 802.1Q tag? -/
def hasTag (bs : List Byte) : Bool := (bs[12]?).getD 0#8 == 0x81#8 && (bs[13]?).getD 0#8 == 0#8
/-- The source address of a frame. -/
def srcMac (bs : List Byte) : Nat := ((bs.drop 6).take 6).foldl (fun n b => n * 256 + b.toNat) 0

/-! ### Descriptors (R236 to R240) -/

def Dev.descAt (d : Dev) (k : Nat) : Nat := (d.rd R.NB_BASE).toNat + 16 * k
def Dev.bufBytes (d : Dev) : Nat := if d.fb F.NB_CTRL_BUFSZ then 9216 else 1536
/-- The owner of descriptor `k` of the pool: 0 free, 1 hardware, 2 software. -/
def Net.owner (n : Net) (k : Nat) : Nat := Tbl.getD n.own k 0
def Dev.setOwner (d : Dev) (k v : Nat) : Dev := d.onNet (fun n => { n with own := Tbl.set n.own 0 k v })

/-- The port's queues without the descriptors of a destroyed pool; a frame destroyed on NETM takes its collisions with it (R254). -/
def NPort.emptied (x : NPort) : NPort :=
  let head := x.txq.head?.all (fun e => e.idx.isNone)
  { x with txq := x.txq.filter (fun e => e.idx.isNone), coll := if head then x.coll else 0, backoff := if head then x.backoff else none,
           sending := match x.sending with
             | some e => if e.idx.isNone then some e else none
             | none => none,
           done := [], rdy := [], tsr := [], tst := [] }

/-- A write of NB_CTRL: ignored while a port is enabled; it creates the pool and destroys any earlier one (R238). COUNT runs to 4096. -/
def poolCreate (v : Word) (d : Dev) : Dev :=
  d.when (!(List.range 3).any d.npOn) (fun d =>
    let n := min (bits v 0 13) 4096
    let d := d.wr R.NB_CTRL (w32 (bits v 16 1 * 2 ^ 16 + n))
    let d := d.onNet (fun x => { x with free := List.range n, own := [], out := [], ing := [] })
    (List.range 3).foldl (fun d p => d.setNp p (d.np p).emptied) d)

/-- A read of NB_ALLOC (R236, R238). -/
def nbAlloc (m : Agent) (d : Dev) : Dev :=
  if !m.isStation then d.answer 0#32
  else match d.net.free with
    | [] => d.answer 0#32
    | k :: rest => ((d.onNet (fun n => { n with free := rest })).setOwner k 2).answer (w32 (2 ^ 31 + k))

/-- Descriptor `k` goes to the tail of the free list; what it received is forgotten. -/
def Dev.freeDesc (d : Dev) (k : Nat) : Dev :=
  (d.setOwner k 0).onNet (fun n => { n with free := n.free ++ [k], ing := Tbl.del n.ing k })

def badOp (d : Dev) : Dev := d.bumpF F.NB_AUD_STATUS_BADOP

/-- A write of NB_RELEASE (R238). -/
def nbRelease (m : Agent) (v : Word) (d : Dev) : Dev :=
  d.when m.isStation (fun d =>
    let k := bits v 0 12
    if d.net.owner k = 2 then d.freeDesc k else badOp d)

/-- A frame's buffer address and length. -/
def descBuf (mem : Memory) (a : Nat) : Nat × Nat :=
  let w1 := Memory.rd32 mem (a + 4)
  ((Memory.rd32 mem a).toNat + bits w1 0 8 * 2 ^ 32, bits w1 10 14)

/-- The bytes in descriptor `k`'s buffer. -/
def Dev.frameOf (d : Dev) (mem : Memory) (k : Nat) : List Byte :=
  let b := descBuf mem (d.descAt k)
  Memory.rdBytes (d.seen mem) b.1 b.2

/-- The network DMA, master 10, fetches descriptor `k` and its frame: whether the fetch fails, at an uncorrectable word or outside the control SRAM and
DRAM (R237; 13_memory.md R368, R387). -/
def netFetch (k : Nat) (ecc : List EccHit) (mem : Memory) (d : Dev) : Bool × Dev :=
  let b := descBuf mem (d.descAt k)
  let r := unitRead 10 (d.descAt k) 16 ecc d
  let holds (x : Nat) : Bool := d.canFetch x && !inAudio x
  if r.1 then r
  else if !(holds b.1 && holds (b.1 + b.2 - 1)) then (true, fetchMiss b.1 r.2)
  else unitRead 10 b.1 b.2 ecc r.2

/-- The network DMA writes bytes at `a`; no rule gives it another course at an error, which is counted (DEDUCED, log 109). -/
def netPut (a : Nat) (bs : List Byte) (ecc : List EccHit) (mem : Memory) (d : Dev) : Memory × Dev := (unitWrite 10 a bs ecc mem d).2

/-- Do NETA and NETB form a PRP pair (R248)? -/
def Dev.prpPair (d : Dev) : Bool := d.fb (F.NP_CFG_PRP.at 0) && d.fb (F.NP_CFG_PRP.at 1) && d.cap.netb

/-! ### Credits (R253) -/

/-- The gates in force (R251). -/
def Dev.gates (d : Dev) (p : Nat) : Nat :=
  if !d.fb (F.NP_CFG_QBV.at p) then 255
  else match (d.np p).oper[(d.np p).gate]? with
    | some (g, _) => g
    | none => 255

/-- The rate of a media port in Mb/s. -/
def Dev.npRate (d : Dev) (p : Nat) : Nat :=
  match d.f (F.NP_CFG_SPEED.at p) with
  | 0 => 1000
  | 1 => 2500
  | 2 => 5000
  | _ => 10000

/-- The credit of class `t` after `dt` core cycles of 1 ns, in thousandths of a bit: it falls while the class sends and rises while a frame of
it waits; the gate closed freezes it; with the class empty a positive credit is 0 and a negative one rises to 0. -/
def Dev.creditStep (d : Dev) (p t dt : Nat) : Int :=
  let x := d.np p
  let c := Tbl.getD x.credit t 0
  let up : Int := (bits (d.rd (R.NP_CBS.at2 p t)) 0 14 * dt : Nat)
  if !bit (d.rd (R.NP_CBS.at2 p t)) 31 then 0
  else if (d.gates p >>> t) % 2 = 0 then c
  else if x.sending.any (fun e => e.tc == t) then c + up - (d.npRate p * dt : Nat)
  else if x.txq.any (fun e => e.tc == t) then c + up
  else min 0 (c + up)

/-- The credits of media port `p` brought up to the present core cycle, before what changes their course. -/
def credNow (p : Nat) (d : Dev) : Dev :=
  d.when (decide (p < 2)) (fun d =>
    let x := d.np p
    let cs := (List.range 8).foldl (fun (c : Tbl Int) t => Tbl.set c 0 t (d.creditStep p t (d.now - x.credAt))) []
    d.setNp p { x with credit := cs, credAt := d.now })

/-- A frame joins a port's queue. -/
def txAdd (q : Nat) (e : TxEnt) (d : Dev) : Dev :=
  let d := credNow q d
  d.setNp q { d.np q with txq := (d.np q).txq ++ [e] }

/-- A write of NP_TXPOST (R238, R248): the frame waits on its port, or on both media ports when its descriptor says PORT = 3 and the pair runs
PRP: with a sequence number for its trailer, or, a PTP event message, without. -/
def txPost (m : Agent) (p : Nat) (v : Word) (mem : Memory) (d : Dev) : Dev :=
  d.when (m.isStation && d.npHas p) (fun d =>
    let k := bits v 0 12
    if d.net.owner k ≠ 2 then badOp d
    else
      let w1 := Memory.rd32 mem (d.descAt k + 4)
      let ent (seq : Option Nat) : TxEnt := ⟨some k, [], p, bits w1 24 3, seq, false⟩
      let d := d.setOwner k 1
      if !(bits w1 27 2 == 3 && d.prpPair) then txAdd p (ent none) d
      else if ptpEvent (d.frameOf mem k) then txAdd 1 (ent none) (txAdd 0 (ent none) d)
      else
        let s := d.net.prpSeq
        let d := d.onNet (fun n => { n with prpSeq := (s + 1) % 65536 })
        txAdd 1 (ent (some s)) (txAdd 0 (ent (some s)) d))

/-! ### Transmission (R237, R238, R248, R250, R254) -/

/-- A media port picks its next frame in core cycle `cyc` (R250). `guard` names the classes whose frame would overrun its gate: the frame waits and
is counted, once. -/
def txSelect (p guard cyc : Nat) (d : Dev) : Dev :=
  d.when (decide (p < 2) && d.npOn p && (d.np p).sending.isNone) (fun d =>
    let d := credNow p (d.tick cyc)
    let x := d.np p
    let head (t : Nat) : Option TxEnt := x.txq.find? (fun e => e.tc == t)
    let isOpen (t : Nat) : Bool := (d.gates p >>> t) % 2 == 1
    let late (t : Nat) : Bool := (guard >>> t) % 2 == 1
    let ok (t : Nat) : Bool := (head t).isSome && isOpen t && !late t && decide (0 ≤ Tbl.getD x.credit t 0)
    let waits := (List.range 8).filterMap (fun t => if isOpen t && late t then head t else none)
    let fresh := waits.filter (fun e => !e.held)
    let d := d.when (!fresh.isEmpty) (npCount p 39 fresh.length)
    let txq := x.txq.map (fun e => if fresh.contains e then { e with held := true } else e)
    let pick := ((List.range 8).reverse.find? ok).bind head
    match pick with
    | none => d.setNp p { x with txq := txq }
    | some e => d.setNp p { x with sending := some e, txq := txq.erase e })

/-- The frame NETM would send now: none while it defers or backs off (R254). -/
def NPort.current (x : NPort) (p : Nat) : Option TxEnt :=
  if p = 2 then (if x.defer || x.backoff.isSome then none else x.txq.head?) else x.sending

/-- The frame leaves the port. -/
def NPort.gone (x : NPort) (p : Nat) : NPort :=
  if p = 2 then { x with txq := x.txq.tail, coll := 0, backoff := none } else { x with sending := none }

/-- Does the port still have descriptor `k` to send? -/
def NPort.holds (x : NPort) (k : Nat) : Bool := (x.txq ++ x.sending.toList).any (fun e => e.idx == some k)

/-- A stamp for descriptor `k`: queued, or discarded with NOSTAMP when the queue is full (R256). -/
def stampPut (p : Nat) (tx : Bool) (k : Nat) (s : Stamp) (d : Dev) : Bool × Dev :=
  let x := d.np p
  if (if tx then x.tst else x.tsr).length < 64 then
    (true, d.setNp p (if tx then { x with tst := x.tst ++ [(k, s)] } else { x with tsr := x.tsr ++ [(k, s)] }))
  else
    (false, (d.bump ((if tx then R.NP_TSQ_OVF_TX else R.NP_TSQ_OVF_RX).at p)).setF (F.NP_EVT_TSQ_OVF.at p) 1)

/-- Word 1 of the descriptor at `a` with bits set or cleared. -/
def descBits (a : Nat) (vs : List (Nat × Bool)) (mem : Memory) (d : Dev) : Memory × Dev :=
  netPut (a + 4) (wordBytes (vs.foldl (fun w v => setBits w v.1 1 (b2n v.2)) (Memory.rd32 mem (a + 4)))) [] mem d

/-- Port `p` has done with a frame, sent or dropped. Once no other port still has a descriptor's frame, its index enters NP_TXDONE (R238), with ERR = 1
where no port has sent it (R237). -/
def txFinish (p : Nat) (e : TxEnt) (sent : Bool) (mem : Memory) (d : Dev) : Memory × Dev :=
  let d := credNow p d
  let d := (d.setNp p ((d.np p).gone p)).when (!sent) (npCount p 46 1)
  match e.idx with
  | none => (mem, d)
  | some k =>
    let d := d.when sent (fun d => d.onNet (fun n => { n with out := Tbl.set n.out false k true }))
    if (List.range 3).any (fun q => (d.np q).holds k) then (mem, d)
    else
      let good := Tbl.getD d.net.out k false
      let d := (d.setOwner k 2).onNet (fun n => { n with out := Tbl.del n.out k, ing := Tbl.del n.ing k })
      let d := d.setNp e.home { d.np e.home with done := (d.np e.home).done ++ [k] }
      descBits (d.descAt k) [(29, !good)] mem (d.when (!good) (fun d => d.setF (F.NP_EVT_TX_ERR.at e.home) 1))

/-- The longest frame a port carries, with its FCS (R235). -/
def Dev.maxFrame (d : Dev) (p : Nat) : Nat := if p < 2 ∧ d.fb (F.NP_CFG_JUMBO.at p) then 9022 else 1522

/-- The redundancy control trailer of port `p` behind the frame `bs` (R248; IEC 62439-3): sequence number, LAN identifier and size of what follows the
Ethernet header, suffix. -/
def rct (p seq : Nat) (bs : List Byte) : List Byte :=
  let size := bs.length - (if hasTag bs then 18 else 14) + 6
  beBytes 2 seq ++ beBytes 2 ((10 + p) * 4096 + size % 4096) ++ [0x88#8, 0xFB#8]

/-- A frame as posted, without trailer. -/
def Dev.rawOf (d : Dev) (mem : Memory) (e : TxEnt) : List Byte :=
  match e.idx with
  | some k => d.frameOf mem k
  | none => e.bytes

/-- The time of port `p`'s instance in core cycle `cyc` and `sub` tenths, in tenths of a nanosecond (R262). -/
def Dev.rawStamp (d : Dev) (p cyc sub : Nat) : Int :=
  let x := d.ti (d.f (F.TU_PCFG_TI.at p))
  (x.time cyc * 10 + (sub : Int) * (2 ^ 48 + x.f)) / 2 ^ 48

/-- The residence time of the event message in descriptor `k` that leaves port `p` with egress stamp `eg`: between NETM and a media port (R265). -/
def Dev.residence (d : Dev) (p : Nat) (k : Option Nat) (eg : Int) : Option Int :=
  match k.bind (Tbl.get? d.net.ing) with
  | some (q, s) => if (p = 2) ≠ (q = 2) then some (eg - s) else none
  | none => none

/-- The egress stamp of the frame that port `p` sends. -/
def Dev.egress (d : Dev) (p : Nat) (r : TxResult) (raw : List Byte) : Int := d.txStamp p raw (d.rawStamp p r.cyc r.sub.val)

/-- A frame as port `p` sends it: its PTP fields filled in (R264, R265), its trailer behind it (R248). -/
def Dev.wire (d : Dev) (p : Nat) (e : TxEnt) (r : TxResult) (raw : List Byte) : List Byte :=
  let eg := d.egress p r raw
  let bs := match e.idx with
    | some _ => d.onStep p eg (eg - (d.np p).pdelay) (d.residence p e.idx eg) raw
    | none => raw
  match e.seq with
  | some s => bs ++ rct p s bs
  | none => bs

/-- TX_DONE (R238): the frame is sent, and stamped when TS = 1; or it is not sent. -/
def txDone (p : Nat) (r : TxResult) (mem : Memory) (d : Dev) : Memory × Dev :=
  match (d.np p).current p with
  | none => (mem, d)
  | some e =>
    let d := (d.tick r.cyc).when r.underrun (npCount p 40 1)
    let raw := d.rawOf mem e
    let bs := d.wire p e r raw
    let n := bs.length + 4
    let got := match e.idx with
      | some k => netFetch k r.ecc mem d
      | none => (false, d)
    if !d.npOn p then (mem, d)
    else if got.1 then txFinish p e false mem got.2
    else
    let d := got.2
    if !r.ok ∨ !d.fb (F.NP_STATUS_LINK.at p) ∨ raw.length < 60 ∨ n > d.maxFrame p then txFinish p e false mem d
    else
      let d := countFrame p 24 32 n (bs.take 6) (hasTag bs) (isPtp bs) d
      let d := d.when e.seq.isSome (npCount p 47 1)
      let (mem, d) := match e.idx with
        | none => (mem, npCount p 31 1 d)
        | some k =>
          let a := d.descAt k
          if !bit (Memory.rd32 mem (a + 4)) 31 then (mem, d)
          else
            let (kept, d) := stampPut p true k (Stamp.ofTenths (d.egress p r raw)) d
            if kept then (mem, d) else descBits a [(30, true), (31, false)] mem d
      let (mem, d) := txFinish p e true mem d
      (mem, d.setNp p { d.np p with last := bs })

/-- A collision on NETM in half duplex (R254): back-off by a free number of slot times; the 16th, or a late one, drops the
frame. -/
def collision (late : Bool) (mem : Memory) (d : Dev) : Memory × Dev :=
  let x := d.np 2
  match x.current 2 with
  | none => (mem, d)
  | some e =>
    if !(d.npOn 2 && d.fb (F.NP_CFG_HDX.at 2)) then (mem, d)
    else
      let d := npCount 2 41 1 d
      if late then txFinish 2 e false mem ((npCount 2 42 1 d).setF (F.NP_EVT_LATE_COLL.at 2) 1)
      else if x.coll + 1 ≥ 16 then txFinish 2 e false mem ((npCount 2 43 1 d).setF (F.NP_EVT_EXCESS_COLL.at 2) 1)
      else
        let (w, d) := d.fresh
        let n := x.coll + 1
        (mem, d.setNp 2 { d.np 2 with coll := n, backoff := some (w.toNat % 2 ^ min n 10) })

def backoffEnd (d : Dev) : Dev := d.setNp 2 { d.np 2 with backoff := none }

/-- 96 bit times after the carrier ends, NETM stops deferring (R254). -/
def deferEnd (d : Dev) : Dev := d.setNp 2 { d.np 2 with defer := false }

/-! ### Reception (R235, R237, R238, R245, R248, R249, R256) -/

/-- The duplicate table takes an entry: the latest 1024 (R249). -/
def prpAdd (src seq : Nat) (d : Dev) : Dev := d.onNet (fun n => { n with prp := ((src, seq) :: n.prp).take 1024 })

/-- The sequence number and the LAN (0 = A, 1 = B) of the trailer of a frame that a media port received, where it has one (IEC 62439-3). -/
def rctOf (p : Nat) (bs : List Byte) : Option (Nat × Nat) :=
  let k := bs.length - 6
  let lan := be bs (k + 2) 2 / 4096
  let size := bs.length - (if hasTag bs then 18 else 14)
  if p < 2 ∧ 20 ≤ bs.length ∧ be bs (k + 4) 2 = 0x88FB ∧ (lan = 10 ∨ lan = 11) ∧ be bs (k + 2) 2 % 4096 = size % 4096 then
    some (be bs k 2, lan - 10)
  else none

/-- A received frame without its trailer. -/
def rxBody (p : Nat) (bs : List Byte) : List Byte := if (rctOf p bs).isSome then bs.take (bs.length - 6) else bs

/-- The address of port `p`: NETA's on both ports of a pair (R248, R260). -/
def Dev.npMac (d : Dev) (p : Nat) : Nat :=
  let q := if p = 1 ∧ d.fb (F.NP_CFG_PRP.at 1) then 0 else p
  bits (d.rd (R.NP_MAC_HI.at q)) 0 16 * 2 ^ 32 + (d.rd (R.NP_MAC_LO.at q)).toNat

/-- Does a frame have a destination here: a group address, or the port's own? -/
def Dev.destHere (d : Dev) (p : Nat) (bs : List Byte) : Bool := byteAt bs 0 % 2 == 1 || be bs 0 6 == d.npMac p

/-- The counter of the rule that discards a frame as it comes in: a bad frame, one too short or too long, one for nobody here (R235, R255). -/
def Dev.rxFault (d : Dev) (p : Nat) (fr : RxFrame) : Option Nat :=
  let n := fr.bytes.length + 4
  if fr.error.val = 1 then some 17
  else if fr.error.val = 2 then some 20
  else if n < 64 then some 18
  else if n > d.maxFrame p then some 19
  else if !d.destHere p fr.bytes then some 22
  else none

/-- A frame that no rule discards goes into the head free descriptor (R238). -/
def rxStore (p : Nat) (fr : RxFrame) (mem : Memory) (d : Dev) : Memory × Dev :=
  match d.net.free with
  | [] => (mem, (npCount p 21 1 d).evt Ev.NET_NB_EMPTY)
  | k :: rest =>
    let bs := rxBody p fr.bytes
    let a := d.descAt k
    let buf := (descBuf mem a).1
    let d := (d.onNet (fun x => { x with free := rest })).setOwner k 2
    let st := d.rxStamp p bs (d.rawStamp p fr.cyc fr.sub.val)
    let ev := ptpEvent bs
    let due := ev || d.fb (F.NP_CFG_RXTSALL.at p)
    let (kept, d) := if due then stampPut p false k (Stamp.ofTenths st) d else (false, d)
    let d := d.when ev (fun d => d.onNet (fun n => { n with ing := Tbl.put n.ing k (p, st) }))
    let d := d.when (ptpType bs == some 2) (fun d => d.setNp p { d.np p with pdelay := st })
    let hi := bits (Memory.rd32 mem (a + 4)) 0 8
    let w1 := b2n kept * 2 ^ 31 + b2n (due && !kept) * 2 ^ 30 + p * 2 ^ 27 + bs.length * 2 ^ 10 + hi
    let w2 := match rctOf p fr.bytes with
      | some (s, _) => 2 ^ 16 + s
      | none => 0
    let d := (unitRead 10 a 8 fr.ecc d).2
    let (mem, d) := netPut buf bs fr.ecc mem d
    let (mem, d) := netPut (a + 4) (wordBytes (w32 w1) ++ wordBytes (w32 (w2 + b2n (hasTag bs) * 2 ^ 17))) fr.ecc mem d
    let d := countFrame p 0 8 (fr.bytes.length + 4) (bs.take 6) (hasTag bs) (isPtp bs) d
    (mem, d.setNp p { d.np p with rdy := (d.np p).rdy ++ [k] })

/-- An ordinary frame: longer than a buffer or a duplicate it is counted and discarded, else stored (R237, R249). -/
def rxOrdinary (p : Nat) (fr : RxFrame) (mem : Memory) (d : Dev) : Memory × Dev :=
  let bs := rxBody p fr.bytes
  if bs.length > d.bufBytes then (mem, npCount p 19 1 d)
  else match rctOf p fr.bytes with
    | none => rxStore p fr mem d
    | some (s, _) =>
      let key := (srcMac bs, s)
      if d.net.prp.contains key then (mem, npCount p 15 1 d) else rxStore p fr mem (prpAdd key.1 key.2 d)

/-- Carrier on NETM in half duplex: what waits there defers (R254). -/
def rxCarrier (p : Nat) (d : Dev) : Dev :=
  d.when (decide (p = 2) && d.fb (F.NP_CFG_HDX.at 2)) (fun d =>
    let x := d.np 2
    (d.when (!x.txq.isEmpty && !x.defer) (npCount 2 44 1)).setNp 2 { x with defer := true })

/-- A trailer that names the other LAN (R249). -/
def rxWrongLan (p : Nat) (bs : List Byte) (d : Dev) : Dev :=
  d.when ((rctOf p bs).any (fun e => e.2 != p)) (fun d => (npCount p 16 1 d).setF (F.NP_EVT_WRONGLAN.at p) 1)

/-- A read of NP_TXDONE or NP_RXRDY pops an index (R236, R260). -/
def popIdx (m : Agent) (p : Nat) (rx : Bool) (d : Dev) : Dev :=
  if !m.isStation || !d.npHas p then d.answer 0#32
  else
    let x := d.np p
    match (if rx then x.rdy else x.done) with
    | [] => d.answer 0#32
    | k :: rest => (d.setNp p (if rx then { x with rdy := rest } else { x with done := rest })).answer (w32 (2 ^ 31 + k))

/-- A read of NP_TSQR_W0 or NP_TSQT_W0 pops a stamp into the master's holding registers (R256, R260). -/
def tsPop (m : Agent) (p : Nat) (tx : Bool) (d : Dev) : Dev :=
  if !m.isStation || !d.npHas p then d.answer 0#32
  else
    let x := d.np p
    let r := if tx then R.NP_TSQT_W else R.NP_TSQR_W
    let put (w1 w2 w3 : Word) (d : Dev) : Dev :=
      ((d.setHold (r.at2 p 1) m w1).setHold (r.at2 p 2) m w2).setHold (r.at2 p 3) m w3
    match (if tx then x.tst else x.tsr) with
    | [] => (put 0#32 0#32 0#32 d).answer 0#32
    | (k, s) :: rest =>
      let d := d.setNp p (if tx then { x with tst := rest } else { x with tsr := rest })
      (put (w32 (s.ns % 2 ^ 30)) (w32 s.sec) (w32 (s.sec / 2 ^ 32 % 65536 + s.tenth % 16 * 65536)) d).answer (w32 (2 ^ 31 + k))

/-! ### Ports (R234, R235, R249, R251, R252) -/

/-- A write of NP_CFG: an illegal speed leaves the port disabled and sets CFG (R234). -/
def npCfgWrite (p : Nat) (v : Word) (d : Dev) : Dev :=
  let prp := p < 2 && (p != 0 || d.cap.netb)
  let v := if prp then v else setBits v 30 1 0
  let v := if p < 2 then setBits v 27 1 0 else setBits v 26 1 0
  let speed := bits v 28 2
  let bad := if p < 2 then decide (speed > d.cap.netMax) else speed == 3 || (bit v 27 && speed == 0)
  let d := (credNow p d).wr (R.NP_CFG.at p) ((if bad then setBits v 31 1 0 else v) &&& 0xFF000000#32)
  d.when bad (fun d => d.setF (F.NP_EVT_CFG.at p) 1)

/-- The link of a port changes (R249). -/
def linkChange (p : Nat) (up : Bool) (speed : Nat) (d : Dev) : Dev :=
  d.when (d.npHas p) (fun d =>
    let was := d.fb (F.NP_STATUS_LINK.at p)
    let d := (d.setB (F.NP_STATUS_LINK.at p) up).setF (F.NP_STATUS_SPEED.at p) speed
    d.when (was != up) (fun d => d.setF (F.NP_EVT_LINK.at p) 1))

/-- The administrative entry that a master selects. -/
def gclSel (p : Nat) (m : Agent) : Reg := (R.NP_GCL_SEL.at p).of m.num

/-- An access to NP_GCL_ENT steps ENTRY when AINC is set; 256 entries (R252). -/
def gclStep (p : Nat) (m : Agent) (d : Dev) : Dev :=
  let r := gclSel p m
  d.when (bit (d.rd r) 31) (fun d => d.wr r (setBits (d.rd r) 0 8 (bits (d.rd r) 0 8 + 1)))

def gclEntWrite (p : Nat) (m : Agent) (v : Word) (d : Dev) : Dev :=
  let k := bits (d.rd (gclSel p m)) 0 8
  gclStep p m (d.setNp p { d.np p with adm := Tbl.set (d.np p).adm 0#32 k v })

/-- A write of NP_GCL_CTRL: LEN, and GO takes length, cycle and base for the swap (R252); ignored on a port the part lacks. -/
def gclGo (p : Nat) (v : Word) (d : Dev) : Dev :=
  d.when (d.npHas p) (fun d =>
    let d := d.wr (R.NP_GCL_CTRL.at p) (w32 (bits v 0 9))
    d.when (bit v 31) (fun d =>
      d.setNp p { d.np p with pend := some ⟨bits v 0 9, (d.rd (R.NP_GCL_CYCLE.at p)).toNat, (d.rd (R.NP_GCL_BASE_NS.at p)).toNat,
        pair (d.rd (R.NP_GCL_BASE_SEC_LO.at p)) (d.rd (R.NP_GCL_BASE_SEC_HI.at p))⟩ }))

/-- The change time (R252): the administrative list enters operation, or is refused. -/
def gclSwap (p : Nat) (d : Dev) : Dev :=
  let d := credNow p d
  let x := d.np p
  match (if d.npHas p then x.pend else none) with
  | none => d
  | some g =>
    let len := min g.len 256
    let ents := (List.range len).map (fun k =>
      let w := Tbl.getD x.adm k 0#32
      (bits w 24 8, bits w 0 24))
    if g.len = 0 ∨ g.cycle = 0 ∨ ents.any (fun e => e.2 == 0) then
      (d.setNp p { x with pend := none }).setF (F.NP_EVT_GCL_ERR.at p) 1
    else
      (d.setNp p { x with pend := none, oper := ents, cycle := g.cycle, ns := g.ns, sec := g.sec, gate := 0 }).setF
        (F.NP_EVT_GCL_SWAP.at p) 1

/-- The current entry's interval expires: the next one, or the first when the list or the cycle ends (R251). -/
def gclAdvance (p : Nat) (d : Dev) : Dev :=
  let d := credNow p d
  let x := d.np p
  let used := (x.oper.take (x.gate + 1)).foldl (fun n e => n + e.2) 0
  d.when (d.npHas p) <| fun d => d.setNp p { x with gate := if x.gate + 1 ≥ x.oper.length ∨ x.cycle ≤ used then 0 else x.gate + 1 }

/-! ### Streams (R241 to R247) -/

def Dev.strm (d : Dev) (s : Nat) : Stream := d.net.stream s
def Dev.setStrm (d : Dev) (s : Nat) (x : Stream) : Dev := d.onNet (fun n => n.setStream s x)
def Dev.sf (d : Dev) (f : Fld) (s : Nat) : Nat := d.f (f.of s)
def Dev.streamSel (d : Dev) (m : Agent) : Nat := Reg.idx d R.STREAM_SEL m

/-- A stream flag sets, with the stream's bit in ST_FMAP (R260). -/
def stFlag (f : Fld) (s : Nat) (d : Dev) : Dev := (d.setF (f.of s) 1).setBit (R.ST_FMAP.at (s / 32)) (s % 32)

/-- Samples per packet (R242). -/
def packetLen (fs fmt pkt : Nat) : Nat :=
  if fmt ≥ 2 then 8
  else
    let p := if pkt = 0 then 6 else if pkt = 1 then 12 else if pkt = 2 then 16 else 48
    if fs % 2 = 1 then 2 * p else p

def sampleBytes (fmt : Nat) : Nat := if fmt = 0 then 2 else if fmt = 3 then 4 else 3

/-- The ports that carry a stream with this PORT code. -/
def stPorts (code : Nat) : List Nat := if code = 0 then [0] else if code = 1 then [1] else [0, 1]

/-- Does a ST_CFG value keep R242? -/
def Dev.stCfgOk (d : Dev) (v : Word) : Bool :=
  let port := bits v 29 2
  let fmt := bits v 27 2
  let ch := bits v 0 8 + 1
  let p := packetLen d.fs fmt (bits v 25 2)
  let jumbo := fmt == 3 || (fmt == 2 && decide (ch > 60))
  port != 3 && (port == 0 || d.cap.netb) && (decide (fmt ≥ 2) || (decide (ch ≤ 64) && decide (p * ch * sampleBytes fmt ≤ 1440))) &&
    (!jumbo || (stPorts port).all (fun q => d.fb (F.NP_CFG_JUMBO.at q)))

/-- A write of ST_CFG (R241): stored while EN = 0 or when it sets EN, else ignored with the flag CFG. Settings that break R242 leave EN at 0. What
it asks for takes effect at its block. -/
def stCfgWrite (m : Agent) (v : Word) (d : Dev) : Dev :=
  let s := d.streamSel m
  d.when (decide (s < 256)) (fun d =>
    let was := d.sf F.ST_CFG_EN s != 0
    let on := bit v 31
    if was && !on then stFlag F.ST_FLAGS_CFG s d
    else
      let ok := !on || d.stCfgOk v
      let now := on && ok
      let v := v &&& 0x7EE000FF#32
      let d := d.wr (R.ST_CFG.of s) (v ||| (if now then 0x80000000#32 else 0#32))
      let d := d.when (!ok) (stFlag F.ST_FLAGS_CFG s)
      d.when (was || now) (fun d =>
        d.setStrm s { d.strm s with reqs := (d.strm s).reqs ++ [(d.effBlk, if now then some v else none)] }))

/-- Another stream register: stored only while EN = 0 (R241). -/
def stRegWrite (s : Nat) (r : Reg) (mask v : Word) (d : Dev) : Dev :=
  if d.sf F.ST_CFG_EN s = 0 then d.wr (r.of s) (v &&& mask) else stFlag F.ST_FLAGS_CFG s d

/-- The settings a stream runs with (R242). -/
def Stream.fmt (x : Stream) : Nat := bits x.cfg 27 2
def Stream.chans (x : Stream) : Nat := bits x.cfg 0 8 + 1
def Stream.ports (x : Stream) : List Nat := stPorts (bits x.cfg 29 2)
def Stream.len (x : Stream) (fs : Nat) : Nat := packetLen fs x.fmt (bits x.cfg 25 2)

/-- The attachments of a stream. -/
def Dev.stAtts (d : Dev) (s : Nat) : List Nat := if s < 128 then d.attsOf 2 s 0 else d.attsOf 2 (s - 128) 1

/-- A transmit stream with settings `v`, from render index `first` on: its first packet is the first that holds only samples from there (R243). -/
def Stream.begins (x : Stream) (fs first : Nat) (v : Word) : Stream :=
  let y := { x with run := true, cfg := v, next := none }
  let p := y.len fs
  { y with t0 := (first + 64 + p + p - 1) / p * p }

/-- New settings `v` of a stream that runs, at departure `b`: a transmit stream's samples from its next block on have them (R32, R241). -/
def Stream.rewrite (x : Stream) (tx : Bool) (fs : Nat) (v : Word) : Stream :=
  if !tx then x.begins fs 0 v
  else match x.next with
    | some (n, u) => { x.begins fs n u with next := some (x.upTo, v) }
    | none => { x with next := some (x.upTo, v) }

/-- The ST_CFG writes whose block has come, at departure `b` (R241). -/
def streamActs (b : Nat) (d : Dev) (s : Nat) : Dev :=
  let x := d.strm s
  match (x.reqs.filter (fun r => decide (r.1 ≤ b))).getLast? with
  | none => d
  | some (_, want) =>
    let rest := x.reqs.filter (fun r => decide (b < r.1))
    match want with
    | some v =>
      if x.run then d.setStrm s ({ x with reqs := rest }.rewrite (decide (128 ≤ s)) d.fs v)
      else
        let d := d.setStrm s ({ Stream.off with reqs := rest, upTo := 32 * b }.begins d.fs (32 * b) v)
        attsRun true (d.stAtts s) (d.onQ (fun q => q.create s 4))
    | none =>
      let d := d.setStrm s { Stream.off with reqs := rest, sent := x.sent }
      attsRun false (d.stAtts s) (d.onQ (fun q => q.remove s))

/-- The value congruent to `ts` modulo 2^32 that lies nearest to `near` (R245). -/
def extendTs (ts near : Int) : Int := near + sgn 32 (unsgn 32 (ts - near))

/-- A raw sample of a format as Q1.31. -/
def rawSample (fmt v : Nat) : Word := w32 (v % 2 ^ (8 * sampleBytes fmt) * 2 ^ (32 - 8 * sampleBytes fmt))

/-! ### Packets of streams and metadata on the wire (R243, R245, R247, R257) -/

/-- The EtherType's place in a frame. -/
def etherAt (bs : List Byte) : Nat := if hasTag bs then 16 else 12

/-- The destination address and port, and the payload, of a UDP datagram over IPv4. -/
def udpOf (bs : List Byte) : Option (Nat × Nat × List Byte) :=
  (udpAt bs).map (fun u => (be bs (etherAt bs + 18) 4, be bs (u + 2) 2, (bs.drop (u + 8)).take (be bs (u + 4) 2 - 8)))

/-- Is a frame without trailer a packet of receive stream `s` on port `p` (R245)? -/
def Dev.strmOn (d : Dev) (p : Nat) (bs : List Byte) (s : Nat) : Bool :=
  let x := d.strm s
  let vlan := if d.sf F.ST_VLAN_EN s = 0 then !hasTag bs else hasTag bs && be bs 14 2 % 4096 == d.sf F.ST_VLAN_VID s
  x.run && x.ports.contains p && vlan &&
    (match udpOf bs with
     | some (a, q, _) => a == (d.rd (R.ST_ADDR.of s)).toNat && q == d.sf F.ST_UDP_DST s
     | none => false)

/-- The receive streams that a frame is for. -/
def Dev.strmsOf (d : Dev) (p : Nat) (bs : List Byte) : List Nat := (List.range 128).filter (d.strmOn p bs)

/-- What stands before the samples of a packet: 12 bytes of RTP, or the trunk's 16. -/
def headLen (fmt : Nat) : Nat := if fmt < 2 then 12 else 16

/-- The trunk's header is right for `ch` channels (R247). -/
def trunkHead (fmt ch : Nat) (pl : List Byte) : Bool :=
  be pl 0 2 == 0xF9A5 && byteAt pl 2 == 1 && byteAt pl 3 == (if fmt = 3 then 128 else 0) && byteAt pl 4 + 1 == ch

/-- Are the payload type or the trunk's header, the channel count and the length right (R245, R247)? -/
def Stream.fits (x : Stream) (fs pt : Nat) (pl : List Byte) : Bool :=
  pl.length == headLen x.fmt + x.len fs * x.chans * sampleBytes x.fmt &&
    (if x.fmt < 2 then byteAt pl 1 % 128 == pt else trunkHead x.fmt x.chans pl)

/-- The sequence number and the timestamp that a payload carries. -/
def seqOf (fmt : Nat) (pl : List Byte) : Nat := if fmt < 2 then be pl 2 2 else be pl 6 2
def stampOf (fmt : Nat) (pl : List Byte) : Nat := if fmt < 2 then be pl 4 4 else be pl 8 8

/-- The samples of group `i`, channel 0 first, each MSB first. -/
def groupOf (fmt ch i : Nat) (pl : List Byte) : List Word :=
  let w := sampleBytes fmt
  (List.range ch).map (fun c => rawSample fmt (be pl (headLen fmt + (i * ch + c) * w) w))

/-- The extended timestamp of a packet of stream `s` (R245). The RTP timestamps of a stream off the media clock lie near the newest one before. -/
def Dev.stTime (d : Dev) (s now : Nat) (pl : List Byte) : Int :=
  let x := d.strm s
  if 2 ≤ x.fmt then stampOf x.fmt pl
  else extendTs (stampOf x.fmt pl) (if (d.stAtts s).isEmpty ∨ x.seen = [] then (now : Int) - d.sf F.ST_LOFS_LOFS s else x.top)

/-- Where sample `i` of a packet with timestamp `t` goes: to its render index, or, off the media clock, to its place in the jitter buffer
(R245). -/
def Dev.stPlace (d : Dev) (s : Nat) (t : Int) (i : Nat) : Int :=
  if (d.stAtts s).isEmpty then t + (d.sf F.ST_LOFS_LOFS s + i : Nat) else t + i

/-- Has the render block of a place departed, or the converter passed it (R246)? -/
def Dev.stLate (d : Dev) (s : Nat) (k : Int) : Bool :=
  if (d.stAtts s).isEmpty then decide (k < (32 * d.nextDep : Nat)) else (d.strm s).pos.any (fun q => decide (k < (q / 2 ^ 28 : Nat)))

/-- Does a place lie more than LOFS + 64 samples ahead (R246)? -/
def Dev.stEarly (d : Dev) (s now : Nat) (k : Int) : Bool :=
  let ahead := d.sf F.ST_LOFS_LOFS s + 64
  if (d.stAtts s).isEmpty then decide (((now + ahead : Nat) : Int) < k)
  else (d.strm s).pos.any (fun q => decide (((q / 2 ^ 28 + ahead : Nat) : Int) < k))

/-- A packet of receive stream `s`, at sample index `now` (R245, R246, R249): a wrong format or a duplicate is discarded; samples go to their
places unless late or early. The port's counters that the packet moves come with it, and move once for a frame of several streams (R255). -/
def streamRx (p now : Nat) (bs : List Byte) (a : List Nat × Dev) (s : Nat) : List Nat × Dev :=
  let d := a.2
  let x := d.strm s
  let fmt := x.fmt
  let pl := match udpOf bs with
    | some (_, _, pl) => pl
    | none => []
  let seq := seqOf fmt pl
  if !x.fits d.fs (d.sf F.ST_RTP_PT s) pl then (a.1, stFlag F.ST_FLAGS_FMT s d)
  else if x.seen.contains seq then (a.1 ++ [15], d.bump (R.ST_DUP.of s))
  else
    let t := d.stTime s now pl
    let gap := match x.seen.head? with
      | some q => decide ((seq + 65536 - q) % 65536 ≠ 1) && decide ((seq + 65536 - q) % 65536 < 32768)
      | none => false
    let place : List (Int × List Word) := (List.range (x.len d.fs)).map (fun i => (d.stPlace s t i, groupOf fmt x.chans i pl))
    let late := place.any (fun e => d.stLate s e.1)
    let early := place.any (fun e => d.stEarly s now e.1)
    let good := place.filter (fun e => !d.stLate s e.1 && !d.stEarly s now e.1)
    let d := d.setStrm s { x with
      seen := (seq :: x.seen).take 64, buf := good.foldl (fun b e => Tbl.put b e.1.toNat e.2) x.buf,
      top := good.foldl (fun n e => max n (e.1.toNat + 1)) x.top, gotA := x.gotA || p == 0, gotB := x.gotB || p == 1 }
    let d := (d.bump (R.ST_PKT.of s)).wr (R.ST_SEQ.of s) (w32 seq)
    let d := d.when gap (stFlag F.ST_FLAGS_SEQGAP s)
    let d := d.when late (stFlag F.ST_FLAGS_LATE s)
    let d := d.when early (stFlag F.ST_FLAGS_EARLY s)
    (a.1 ++ (if late || early then [7, 23] else [7]), d.when (late || early) (fun d => d.bump (R.ST_LATE.of s)))

/-- A frame of `n` bytes for the receive streams `ss`: counted once, as accepted, or as a duplicate where no stream takes it (R249, R255). -/
def streamFrame (p now n : Nat) (bs : List Byte) (ss : List Nat) (d : Dev) : Dev :=
  let r := ss.foldl (streamRx p now bs) ([], d)
  let d := r.2
  if r.1.contains 7 then
    let d := npCount p 7 1 (countFrame p 0 8 n (bs.take 6) (hasTag bs) false d)
    d.when (r.1.contains 23) (npCount p 23 1)
  else d.when (r.1.contains 15) (npCount p 15 1)

/-- The packets of `len` samples that lack a sample of the places `miss`, by the block that holds their first sample, which begins at `start`
(R246); timestamps lie `lofs` before places. -/
def missPackets (start len lofs : Nat) (miss : List Nat) : Nat :=
  let firsts := (miss.map (fun n => (n - lofs) / len * len + lofs)).eraseDups
  (firsts.filter (fun n => decide (start ≤ n))).length

/-- The places that block `b` takes from stream `s`, and the converter's place after it: 32 samples, or off the media clock as many as the ratio
gives, from LOFS samples behind the newest on (R228, R245). A converter that has not locked takes none. -/
def Dev.stTakes (d : Dev) (b s : Nat) : List Nat × Option Nat :=
  let x := d.strm s
  match d.stAtts s with
  | [] => ((List.range 32).map (· + 32 * b), none)
  | a :: _ =>
    if !d.attLocked a then ([], none)
    else
      let p0 := x.pos.getD ((x.top - d.sf F.ST_LOFS_LOFS s) * 2 ^ 28)
      let p1 := p0 + 32 * (d.tdm.att a).ratio
      ((List.range (p1 / 2 ^ 28 - p0 / 2 ^ 28)).map (· + p0 / 2 ^ 28), some p1)

/-- A receive stream writes block `b` at departure `b` (R246), off the media clock through its converter (R228); one without a ticket discards
it (01_architecture.md R37). -/
def streamBlock (b : Nat) (render : Bool) (d : Dev) (s : Nat) : Dev :=
  let x := d.strm s
  d.when x.run (fun d =>
    let (ix, pos) := d.stTakes b s
    let async := !(d.stAtts s).isEmpty
    let lofs := d.sf F.ST_LOFS_LOFS s
    let miss := ix.filter (fun n => (Tbl.get? x.buf n).isNone)
    let n := missPackets (ix.headD 0) (x.len d.fs) (if async then 0 else lofs) miss
    let row (n : Nat) : List Word := (List.range x.chans).map (fun c => ((Tbl.getD x.buf n [])[c]?).getD 0#32)
    let keep : Nat := match pos with
      | some q => q / 2 ^ 28
      | none => if async then x.top - lofs else 32 * b + 32
    let hurt := !miss.isEmpty
    let d := d.setStrm s { x with buf := x.buf.filter (fun e => decide (keep ≤ e.1)), hurt := hurt, gotA := false, gotB := false, pos := pos }
    let d := d.setB (F.ST_STATUS_RXVALID.of s) (decide (miss.length < ix.length))
    let d := (d.setB (F.ST_STATUS_GOT_A.of s) x.gotA).setB (F.ST_STATUS_GOT_B.of s) x.gotB
    let d := d.when hurt (fun d => stFlag F.ST_FLAGS_UND s (d.bumpBy (R.ST_MISS.of s) n))
    let d := d.when (!hurt && x.hurt) (stFlag F.ST_FLAGS_RECOVER s)
    let (ch, d) := match d.stAtts s with
      | [] => ((List.range x.chans).map (fun c => (c, ix.map (fun n => (row n).getD c 0#32))), d)
      | a :: _ =>
        let d := ix.foldl (fun d n => attFeed a (row n) d) d
        (convBlock a b d, d)
    d.when render (fun d =>
      if (d.q.get s).h > 0 then d.onQ (fun q => q.push s ⟨b, ch⟩) else stFlag F.ST_FLAGS_UND s d))

/-- The rows that a transmit stream's converter makes of the block it has taken, at the stream's rate, and its place after them (R228). Before
its first lock it makes them at fs. -/
def streamConv (a chans p0 : Nat) (d : Dev) : List (List Word) × Nat × Dev :=
  let y := d.tdm.att a
  let p1 := p0 + 32 * (if y.ratio = 0 then 2 ^ 28 else y.ratio)
  let r := (List.range (p1 / 2 ^ 28 - p0 / 2 ^ 28)).foldl (fun (acc : List (List Word) × Dev) _ =>
    let row := (List.range chans).map (fun c => if c < acc.2.f (F.SRC_CFG_COUNT.at a) then convOut a c acc.2 else 0#32)
    (acc.1 ++ [row], acc.2.onAtt a (fun y => { y with n := y.n + 1 }))) ([], d)
  (r.1, p1, r.2)

/-- The hand-over of block `b` to the transmit streams (R244), through their converters (R228): zeros where a queue lacks it. `live` is false
outside Mainline, when zeros are sent without a flag. -/
def streamHand (b : Nat) (live : Bool) (d : Dev) (s : Nat) : Dev :=
  let x := d.strm s
  d.when (decide (128 ≤ s) && x.run && (decide (x.upTo ≤ 32 * b) || x.pos.isSome)) (fun d =>
    let (sl, q) := if live then d.q.takeBlk s b else (none, d.q)
    let ch := match sl with
      | some v => v.ch
      | none => []
    let d := { d with q := q }
    let chans := match x.next with
      | some (_, v) => bits v 0 8 + 1
      | none => x.chans
    let first := if (d.stAtts s).isEmpty then 32 * b else x.upTo
    let (rows, pos, d) := match d.stAtts s with
      | [] => ((List.range 32).map (fun j => (List.range chans).map (fun c => ((Tbl.getD ch c [])[j]?).getD 0#32)), none, d)
      | a :: _ =>
        let d := if live then attTake a ch d else d.onAtt a (fun y => { y with live := false })
        let r := streamConv a chans (x.pos.getD (x.upTo * 2 ^ 28)) d
        (r.1, some r.2.1, r.2.2)
    let d := d.setStrm s { x with
      buf := rows.zipIdx.foldl (fun t e => Tbl.put t (first + e.2) e.1) x.buf, upTo := first + rows.length, pos := pos }
    d.when (live && sl.isNone) (fun d => x.ports.foldl (fun d p => npCount p 45 1 d) (stFlag F.ST_FLAGS_TX_UND s d)))

/-- A sample in a stream's format. -/
def toRaw (fmt : Nat) (w : Word) : Nat := w.toNat >>> (32 - 8 * sampleBytes fmt)

/-- The sequence number of the packet whose first timestamp is `t0` (R243). -/
def Stream.seq (x : Stream) (fs t0 : Nat) : Nat := (if x.fmt < 2 then t0 / x.len fs else t0 / 8) % 65536

/-- The payload of the next packet of transmit stream `s` (R243, R247). -/
def Dev.stPayload (d : Dev) (s : Nat) : List Byte :=
  let x := d.strm s
  let p := x.len d.fs
  let first := x.t0 - 64 - p
  let seq := x.seq d.fs x.t0
  let head := if x.fmt < 2 then
      [0x80#8, BitVec.ofNat 8 (d.sf F.ST_RTP_PT s)] ++ beBytes 2 seq ++ beBytes 4 (x.t0 % 2 ^ 32) ++ beBytes 4 (d.rd (R.ST_SSRC.of s)).toNat
    else
      beBytes 2 0xF9A5 ++ [1#8, if x.fmt = 3 then 0x80#8 else 0#8, BitVec.ofNat 8 (x.chans - 1), 0#8] ++ beBytes 2 seq ++ beBytes 8 x.t0
  head ++ (List.range p).flatMap (fun i =>
    (Tbl.getD x.buf (first + i) (List.replicate x.chans 0#32)).flatMap (fun w => beBytes (sampleBytes x.fmt) (toRaw x.fmt w)))

/-- The frame of the next packet of transmit stream `s`, without a trailer: Ethernet, IPv4 and UDP headers before the payload. Its source is
NET_SMAC + s, counted from stream 0 (R248). -/
def Dev.stFrame (d : Dev) (s : Nat) : List Byte :=
  let x := d.strm s
  let a := (d.rd (R.ST_ADDR.of s)).toNat
  let pl := d.stPayload s
  let free (k : Nat) : Byte := Config.ipByte s x.t0 k
  let dst := if a / 2 ^ 28 = 14 then 0x01005E000000 + a % 2 ^ 23 else Config.streamMac a
  let src := bits (d.rd R.NET_SMAC_HI) 0 16 * 2 ^ 32 + (d.rd R.NET_SMAC_LO).toNat + (s - 128)
  let tag := if d.sf F.ST_VLAN_EN s = 0 then [] else
    beBytes 2 0x8100 ++ beBytes 2 (d.sf F.ST_VLAN_PCP s * 2 ^ 13 + d.sf F.ST_VLAN_VID s)
  let ip := [0x45#8, free 1] ++ beBytes 2 (28 + pl.length) ++ [free 4, free 5, free 6, free 7, free 8, 17#8, free 10, free 11, free 12, free 13,
    free 14, free 15] ++ beBytes 4 a
  let udp := beBytes 2 (d.sf F.ST_UDP_SRC s) ++ beBytes 2 (d.sf F.ST_UDP_DST s) ++ beBytes 2 (8 + pl.length) ++ [free 26, free 27]
  beBytes 6 dst ++ beBytes 6 src ++ tag ++ beBytes 2 0x0800 ++ ip ++ udp ++ pl

/-- New settings hold from the first packet on that would reach into the samples that have them (R241). -/
def Stream.turned (x : Stream) (fs : Nat) : Stream :=
  match x.next with
  | some (n, v) => if n < x.t0 - 64 - x.len fs + x.len fs then x.begins fs n v else x
  | none => x

/-- STREAM_PACKET_TX (R243, R248, R250): the next packet, once its last sample has been handed over, waits on the stream's enabled ports in its
class; every field follows from the index. A unit of a twin that sends no streams only counts on. -/
def streamTx (s : Nat) (d : Dev) : Dev :=
  let x := (d.strm s).turned d.fs
  let d := d.setStrm s x
  let p := x.len d.fs
  let upTo := x.t0 - 64 - p + p
  d.when (decide (128 ≤ s) && x.run && decide (upTo ≤ x.upTo)) (fun d =>
    let bs := d.stFrame s
    let seq := x.seq d.fs x.t0
    let y := { x with t0 := x.t0 + p, buf := x.buf.filter (fun e => decide (upTo ≤ e.1)) }
    if !d.twStreams then d.setStrm s y
    else
      let d := d.setStrm s { y with sent := bs }
      let d := (d.bump (R.ST_PKT.of s)).wr (R.ST_SEQ.of s) (w32 seq)
      let rct := if bits x.cfg 29 2 = 2 ∧ d.prpPair then some seq else none
      (x.ports.filter d.npOn).foldl (fun d q => txAdd q ⟨none, bs, q, bits x.cfg 21 3, rct, false⟩ d) d)

/-! ### The metadata stream (R257, R258) -/

/-- A metadata counter other than MD_PKT changes: EVT.MD. -/
def mdCount (r : Reg) (n : Nat) (d : Dev) : Dev := if n = 0 then d else (d.bumpBy r n).evt Ev.NET_MD

/-- One record on the stream path (R52); a STANDBY posts nothing (12_twin.md R347). -/
def mdRecord (d : Dev) (r : Rec8) : Dev :=
  let o := r.objNo
  if d.twCopy then d else match postKind d o r with
  | .rejected => rejectUpd d 2 o r
  | .noTicket => mdCount R.MD_DROP 1 d
  | .done => enqueueUpd d o r

/-- Is a frame a metadata packet (R257)? -/
def Dev.mdMatch (d : Dev) (bs : List Byte) : Bool :=
  d.fb F.MD_CFG_EN && (match udpOf bs with
    | some (_, q, _) => q == d.f F.MD_CFG_UDP
    | none => false)

/-- MAGIC, VERSION, length and the reserved bytes of a metadata payload are right (R257). -/
def mdGood (pl : List Byte) : Bool :=
  be pl 0 2 == 0xF9D1 && byteAt pl 2 == 1 && decide (1 ≤ byteAt pl 3) && be pl 10 6 == 0 && pl.length == 16 + 32 * byteAt pl 3

/-- Record `i` of a metadata payload. -/
def mdRec (pl : List Byte) (i : Nat) : Rec8 :=
  let w (k : Nat) : Word := w32 (be pl (16 + 32 * i + 4 * k) 4)
  ⟨w 0, w 1, w 2, w 3, w 4, w 5, w 6, w 7⟩

/-- A metadata payload (R258). -/
def mdPacket (pl : List Byte) (d : Dev) : Dev :=
  let seq := be pl 4 4
  let src := be pl 8 2
  let known := (d.net.md.find? (fun e => e.1 == src)).map Prod.snd
  if !mdGood pl ∨ (known.isNone ∧ d.net.md.length ≥ 16) then mdCount R.MD_BAD 1 d
  else
    let ahead := match known with
      | some q => (seq + 2 ^ 32 - q) % 2 ^ 32
      | none => 1
    if ahead = 0 ∨ ahead ≥ 2 ^ 31 then mdCount R.MD_DUP 1 d
    else
      let d := d.onNet (fun n => { n with md := (src, seq) :: n.md.filter (fun e => e.1 != src) })
      let d := mdCount R.MD_GAP (ahead - 1) (d.bump R.MD_PKT)
      ((List.range (byteAt pl 3)).map (mdRec pl)).foldl mdRecord d

/-! ### What a received frame is (R235, R238, R245, R257) -/

/-- A frame comes in on an enabled port: discarded where a rule of reception says so; else a metadata packet, a packet of receive streams, or an
ordinary frame. -/
def receive (p : Nat) (fr : RxFrame) (mem : Memory) (d : Dev) : Memory × Dev :=
  if !d.npOn p then (mem, d)
  else
    let d := rxCarrier p (d.tick fr.cyc)
    match d.rxFault p fr with
    | some k => (mem, npCount p k 1 d)
    | none =>
      let d := rxWrongLan p fr.bytes d
      let bs := rxBody p fr.bytes
      let n := fr.bytes.length + 4
      if d.mdMatch bs then
        (mem, mdPacket ((udpOf bs).getD (0, 0, [])).2.2 (countFrame p 0 8 n (bs.take 6) (hasTag bs) false d))
      else match d.strmsOf p bs with
        | [] => rxOrdinary p fr mem d
        | ss => (mem, streamFrame p fr.now n bs ss d)

/-- A write of MD_CFG: EN = 0 empties the source table (R258). -/
def mdCfgWrite (v : Word) (d : Dev) : Dev :=
  let d := d.wr R.MD_CFG (v &&& 0x8000FFFF#32)
  d.when (!bit v 31) (fun d => d.onNet (fun n => { n with md := [] }))

/-! ### Departures (R239, R240) -/

/-- The descriptor counts at a departure, compared with COUNT (R240). -/
def nbAudit (d : Dev) : Dev :=
  let hw := (d.net.own.filter (fun e => e.2 == 1)).length
  let sw := (d.net.own.filter (fun e => e.2 == 2)).length
  let free := d.net.free.length
  let d := ((d.wr R.NB_CNT_FREE (w32 free)).wr R.NB_CNT_HW (w32 hw)).wr R.NB_CNT_SW (w32 sw)
  d.when (decide (free + hw + sw ≠ d.f F.NB_CTRL_COUNT)) (fun d => twFault 3 ((d.bumpF F.NB_AUD_STATUS_FAIL_COUNT).evt Ev.NET_NB_AUDIT))

/-! ### Registers (R260) -/

def netCounters : List Reg :=
  [R.NB_CNT_FREE, R.NB_CNT_HW, R.NB_CNT_SW, R.ST_PKT, R.ST_MISS, R.ST_LATE, R.ST_DUP, R.MD_PKT, R.MD_BAD, R.MD_DUP, R.MD_GAP,
   R.MD_DROP] ++ (List.range 3).flatMap (fun p => [R.NP_TSQ_OVF_RX.at p, R.NP_TSQ_OVF_TX.at p])

def netCntClr (v : Word) (d : Dev) : Dev :=
  d.when (bit v 0) (fun d => (d.zeroAll netCounters).onNet (fun n => { n with cnt := [] }))

def npStatus (d : Dev) (p : Nat) : Word :=
  let x := d.np p
  let w := d.rd (R.NP_STATUS.at p)
  w32 (bits w 31 1 * 2 ^ 31 + bits w 28 2 * 2 ^ 28 + (if p < 2 then d.cap.netMax else 0) * 2 ^ 26 + x.gate * 2 ^ 16 +
    x.tst.length * 2 ^ 8 + x.tsr.length)

/-- The channels of stream `s` in the consist's map: CRM inputs, or destination channels of the feeds (R241, R260). -/
def Dev.stMap (d : Dev) (s : Nat) : List Nat :=
  if s < 128 then (d.crm.src.filter (fun e => e.2.1 == s)).map Prod.fst
  else (List.range d.crm.nout).flatMap (fun o => ((List.range 4).map (fun k => d.rd ((R.FC_DEST.at k).of o))).filterMap (fun w =>
    if bit w 31 && bits w 24 3 == 2 && 128 + bits w 16 7 == s then some (bits w 0 8) else none))

/-- ST_CHAN: the first channel of the map and their number. -/
def Dev.stChan (d : Dev) (s : Nat) : Word :=
  let cs := (d.stMap s).eraseDups
  match cs with
  | [] => 0#32
  | c :: rest => w32 ((rest.foldl min c) % 2 ^ 10 * 2 ^ 16 + cs.length % 2 ^ 9)

/-- Registers whose value the block computes at the read. -/
def netRead (m : Agent) (off : Nat) (d : Dev) : Option Word :=
  let s := d.streamSel m
  if off = 0x004 then some (netEvt d)
  else if off = 0x00C then some (w32 (b2n ((List.range 3).any d.npOn)))
  else if off = 0x100 then
    some (if s < 256 then setBits (d.rd (R.ST_CFG.of s)) 16 1 (b2n (!(d.stAtts s).isEmpty)) else 0#32)
  else if off = 0x11C then some (if s < 256 then setBits (d.rd (R.ST_STATUS.of s)) 30 1 (b2n (d.strm s).run) else 0#32)
  else if off = 0x134 then some (if s < 256 then d.stChan s else 0#32)
  else if 0x200 ≤ off && off < 0x500 then
    let p := (off - 0x200) / 0x100
    let o := (off - 0x200) % 0x100
    if o = 0x04 then some (npStatus d p)
    else if o = 0x24 then some (d.rd ((R.NP_CNT_SEL.at p).of m.num))
    else if o = 0x28 then
      let k := bits (d.rd ((R.NP_CNT_SEL.at p).of m.num)) 0 6
      some (if k < 48 then w32 (Tbl.getD d.net.cnt (64 * p + k) 0) else 0#32)
    else if (0x44 ≤ o && o ≤ 0x4C) || (0x54 ≤ o && o ≤ 0x5C) then some (if m.isStation then d.hold ⟨7, off, 0, 0, 0, 0⟩ m else 0#32)
    else if o = 0x60 then some (d.rd (R.NP_GCL_CTRL.at p) ||| w32 (b2n (d.np p).pend.isSome * 2 ^ 30))
    else if o = 0x74 then some (d.rd (gclSel p m))
    else if o = 0x78 then some (Tbl.getD (d.np p).adm (bits (d.rd (gclSel p m)) 0 8) 0#32)
    else none
  else none

/-- Registers whose write is more than its masks. -/
def netWrite (m : Agent) (off : Nat) (v : Word) (d : Dev) : Option Dev :=
  let s := d.streamSel m
  let win (g : Dev → Dev) : Option Dev := some (d.when (decide (s < 256)) g)
  if off = 0x018 then some (poolCreate v d)
  else if off = 0x024 then some (nbRelease m v d)
  else if off = 0x038 then some (mdCfgWrite v d)
  else if off = 0x050 then some (netCntClr v d)
  else if off = 0x100 then some (stCfgWrite m v d)
  else if off = 0x104 then win (stRegWrite s R.ST_ADDR 0xFFFFFFFF#32 v)
  else if off = 0x108 then win (stRegWrite s R.ST_UDP 0xFFFFFFFF#32 v)
  else if off = 0x10C then win (stRegWrite s R.ST_VLAN 0x8000EFFF#32 v)
  else if off = 0x110 then win (stRegWrite s R.ST_RTP 0x7F#32 v)
  else if off = 0x114 then win (stRegWrite s R.ST_SSRC 0xFFFFFFFF#32 v)
  else if off = 0x118 then win (stRegWrite s R.ST_LOFS 0x7FFF#32 v)
  else if 0x200 ≤ off && off < 0x500 then
    let p := (off - 0x200) / 0x100
    let o := (off - 0x200) % 0x100
    if o = 0x00 then some (npCfgWrite p v d)
    else if o = 0x10 || o = 0x14 then
      (if o = 0x14 && p == 1 && d.fb (F.NP_CFG_PRP.at 1) then some d else none)
    else if o = 0x24 then some (d.wr ((R.NP_CNT_SEL.at p).of m.num) (w32 (bits v 0 6)))
    else if o = 0x60 then some (gclGo p v d)
    else if o = 0x74 then some (d.wr (gclSel p m) (v &&& 0x800000FF#32))
    else if o = 0x78 then some (gclEntWrite p m v d)
    else if 0x80 ≤ o && o ≤ 0x9C then some ((credNow p d).wr (R.NP_CBS.at2 p ((o - 0x80) / 4)) (v &&& 0x80003FFF#32))
    else none
  else none

/-! ### Meanings -/

def execNbPoolCreate (m : Agent) (v : Word) (s : State) : Out := okBy m R.NB_CTRL.addr v s (poolCreate v)
def execNbAlloc (m : Agent) (s : State) : Out := okBy m R.NB_ALLOC.addr 0#32 s (nbAlloc m) false
def execNbRelease (m : Agent) (v : Word) (s : State) : Out := okBy m R.NB_RELEASE.addr v s (nbRelease m v)
def execNpTxpost (m : Agent) (p : Fin 3) (v : Word) (s : State) : Out := okBy m ((R.NP_TXPOST.at p.val).addr) v s (txPost m p.val v s.mem)
def execNpTxdonePop (m : Agent) (p : Fin 3) (s : State) : Out := okBy m ((R.NP_TXDONE.at p.val).addr) 0#32 s (popIdx m p.val false) false
def execNpRxrdyPop (m : Agent) (p : Fin 3) (s : State) : Out := okBy m ((R.NP_RXRDY.at p.val).addr) 0#32 s (popIdx m p.val true) false
def execStreamEnable (m : Agent) (v : Word) (s : State) : Out := okBy m R.ST_CFG.addr v s (stCfgWrite m v)
def execStreamPacketTx (st : Nat) (s : State) : Out := ok s (streamTx st)
def execPrpEntryExpire (src seq : Nat) (s : State) : Out :=
  ok s (fun d => d.onNet (fun n => { n with prp := n.prp.erase (src, seq) }))
def execNetLinkChange (p : Fin 3) (up : Bool) (speed : Fin 4) (s : State) : Out := ok s (linkChange p.val up speed.val)
def execTxSelect (p : Fin 3) (guard cyc : Nat) (s : State) : Out := ok s (txSelect p.val guard cyc)
def execGclEntryAdvance (p : Fin 3) (s : State) : Out := ok s (gclAdvance p.val)
def execGclGo (m : Agent) (p : Fin 3) (v : Word) (s : State) : Out := okBy m ((R.NP_GCL_CTRL.at p.val).addr) v s (gclGo p.val v)
def execGclSwap (p : Fin 3) (s : State) : Out := ok s (gclSwap p.val)
def execBackoffExpire (s : State) : Out := ok s backoffEnd
def execDeferExpire (s : State) : Out := ok s deferEnd
def execTsQueuePop (m : Agent) (p : Fin 3) (tx : Bool) (s : State) : Out := okBy m (((if tx then R.NP_TSQT_W else R.NP_TSQR_W).at p.val).addr) 0#32 s (tsPop m p.val tx) false
def execMdCfgWrite (m : Agent) (v : Word) (s : State) : Out := okBy m R.MD_CFG.addr v s (mdCfgWrite v)
def execNetCntClr (m : Agent) (v : Word) (s : State) : Out := okBy m R.NET_CNT_CLR.addr v s (netCntClr v)

end Sys2Proof.Machine
end

