-- ==== Sys2Proof/Machine/VirifItem.lean ====
section
/-!
DEFINITION. Running a work item on a Virif engine: start, completion, abort, preemption and resume
(05_virif_engines.md R170 to R174; 06_signal_box.md R186, R190).
Marks (notes/assumptions): DESIGN CHOICE 32; DEDUCED 36, 37.
-/
namespace Sys2Proof.Machine

/-- Is a channel of the context moving data? -/
def Ctx.moving (c : Ctx) : Bool :=
  c.ch.any (fun p => match p.2.act with
    | none => false
    | some t => !t.tick)

def Ctx.anyBusy (c : Ctx) : Bool := c.ch.any (fun p => p.2.act.isSome)

/-- A transfer that waits for a ticket is withdrawn, with no ticket spent; `keep` re-issues it later (R172, R174). -/
def Chan.withdraw (keep : Bool) (x : Chan) : Chan :=
  match x.act with
  | none => x
  | some t => if t.tick then { x with act := none, redo := if keep then some t else none } else x

/-- The engine takes an item with its initial state (R170). -/
def Engine.take (g : Engine) (r : ERun) : Engine :=
  { g with ctx := .start r, run := true, wait := .go, fault := none, next := none }

/-- The engine issues the first bundle of an item dispatched to it while idle (R170). -/
def itemStart (e : Nat) (d : Dev) : Dev :=
  let g := d.eng e
  d.when (g.run && decide (g.wait = .starting)) (·.setEng e { g with wait := .go })

/-- What the engine does after a completion: it takes the item that was to preempt, or resumes its latest saved
context, or goes idle (R171, R172, R190). -/
def afterItem (e cyc : Nat) (d : Dev) : Dev :=
  let g := d.eng e
  match g.next with
  | some r =>
    let d := d.setEng e (g.take r)
    match d.sb.inst r.blk with
    | none => d
    | some i => traceItem i (cyc + 1) 0x04 0 g.saved.length e r.item 0#32 d
  | none =>
    match g.saved with
    | [] => d.setEng e { g with run := false, wait := .go, fault := none }
    | c :: rest =>
      let d := d.setEng e { g with ctx := c, run := true, wait := .restoring, fault := none, saved := rest }
      match d.sb.inst c.run.blk with
      | none => d
      | some i =>
        let d := d.setInst (i.setRun c.run.item { i.run c.run.item with st := .running })
        let d := d.onSb (fun s => s.unplat i.blk c.run.item)
        traceItem i (cyc + 1) 0x07 0 rest.length e c.run.item 0#32 d

/-- A run's report: sticky flags, ENG_RUNS, the signal box's completion, and what follows (R171, R174). -/
def finish (e cause cyc : Nat) (d : Dev) : Dev :=
  let c := (d.eng e).ctx
  let st := R.ENG_STICKY.of e
  let d := d.wr st (d.rd st ||| (c.flags.word &&& 0xF00#32))
  let d := d.bump (R.ENG_RUNS.of e)
  let d := complete c.run.blk c.run.item e cause c.cyc cyc d
  afterItem e cyc d

/-- END's wait is over: status DONE (R171). -/
def itemDone (e cyc : Nat) (d : Dev) : Dev :=
  let g := d.eng e
  d.when (g.run && decide (g.wait = .ending) && g.fault.isNone && !g.ctx.anyBusy) (finish e 0 cyc)

/-- A fault recorded and reported (R174): busy channels have completed, those that wait for a ticket are withdrawn. -/
def abort (e cyc : Nat) (d : Dev) : Dev :=
  let g := d.eng e
  match g.fault with
  | none => d
  | some (cause, pc) =>
    d.when (g.run && !g.ctx.moving) (fun d =>
      let d := d.wr (R.ENG_FAULT.of e) (w32 (2 ^ 31 + cause * 2 ^ 24 + g.ctx.run.item))
      let d := d.wr (R.ENG_FAULT_PC.of e) (w32 pc)
      let d := d.onEng e (fun g => g.onCtx (fun c => { c with
        prot := false, ch := c.ch.map (fun p => (p.1, p.2.withdraw false)) }))
      twFault (if cause = 6 then 5 else 1) |> d.when (cause == 6 || cause == 9) |> finish e cause cyc)

/-- An abort: of the fault that is pending; else the engine meets an uncorrectable error in the bundle it fetches or a
word it loads (`ecc`: the word of its local memories), or an illegal bundle in program memory (R144, R150, R174). -/
def itemAbort (e : Nat) (ecc : Option Nat) (cyc : Nat) (mem : Memory) (d : Dev) : Dev :=
  let pc := (d.eng e).ctx.pc
  let d := d.when (d.issues e) (fun d =>
    match ecc with
    | some w => let w := e * 40960 + w % 40960; (unitUe 2 w unitPort d).setEng e ((d.eng e).fail 9 pc)
    | none =>
      if d.badWord (bundleAddr e pc) then eccFault e (bundleAddr e pc) d
      else if bundleAt mem e pc = .illegal then d.setEng e ((d.eng e).fail 1 pc) else d)
  abort e cyc d

/-- The engine acts on a preemption request at a bundle boundary outside a protected section (R172). -/
def preemptAct (e : Nat) (d : Dev) : Dev :=
  let g := d.eng e
  d.when (d.issues e && g.next.isSome && !g.ctx.prot) (fun d =>
    d.setEng e { g with wait := .saving, ctx := { g.ctx with ch := g.ctx.ch.map (fun p => (p.1, p.2.withdraw true)) } })

/-- The save completes: the item is SAVED at the head of its platform, and the preempting item is taken (R172, R187). -/
def contextSaved (e cyc : Nat) (d : Dev) : Dev :=
  let g := d.eng e
  match g.next with
  | none => d
  | some r =>
    d.when (decide (g.wait = .saving) && !g.ctx.moving && g.fault.isNone) (fun d =>
      let o := g.ctx.run
      let d := d.setEng e { g.take r with saved := g.ctx :: g.saved }
      match d.sb.inst o.blk with
      | none => d
      | some i =>
        let d := d.setInst (i.setRun o.item { i.run o.item with st := .saved })
        let d := d.onSb (fun s => s.setPlat o.plat ((i.blk, o.item) :: s.plat o.plat))
        traceItem i cyc 0x06 0 (g.saved.length + 1) e o.item 0#32 d)

/-- The restore ends: the run goes on, and a withdrawn QPUT is issued again (R172). -/
def contextRestored (e : Nat) (d : Dev) : Dev :=
  let g := d.eng e
  d.when (decide (g.wait = .restoring)) (fun d =>
    let redo := g.ctx.ch.filterMap (fun p => p.2.redo.map (fun t => (p.1, t)))
    redo.foldl (fun d p => startPut e p.1 p.2 d) (d.setEng e { g with wait := .go }))

def execItemStart (e : Fin 16) (s : State) : Out := ok s (itemStart e.val)
def execItemDone (e : Fin 16) (cyc : Nat) (s : State) : Out := ok s (itemDone e.val cyc)
def execItemAbort (e : Fin 16) (ecc : Option Nat) (cyc : Nat) (s : State) : Out := ok s (itemAbort e.val ecc cyc s.mem)
def execPreemptAct (e : Fin 16) (s : State) : Out := ok s (preemptAct e.val)
def execContextSaved (e : Fin 16) (cyc : Nat) (s : State) : Out := ok s (contextSaved e.val cyc)
def execContextRestored (e : Fin 16) (s : State) : Out := ok s (contextRestored e.val)

end Sys2Proof.Machine
end

