-- ==== Sys2Proof/Machine/VirifRows.lean ====
section
/-!
DEFINITION. The meanings of the bundles of a Virif engine: one per operation of R152 to R154 and R157, and of the
transfers (05_virif_engines.md). Engine `e` issues the bundle when it runs and waits for nothing.
Marks (notes/assumptions): DESIGN CHOICE 32.
-/
namespace Sys2Proof.Machine

/-! ### The arithmetic slot (R157) -/

def execVNop (e : Fin 16) (o : Std) (s : State) : Out := okM s (issueStd 0x00 (pure' opNop) e.val o)
def execVMov (e : Fin 16) (o : Std) (s : State) : Out := okM s (issueStd 0x01 (pure' opMov) e.val o)
def execVAdd (e : Fin 16) (o : Std) (s : State) : Out := okM s (issueStd 0x02 (pure' opAdd) e.val o)
def execVSub (e : Fin 16) (o : Std) (s : State) : Out := okM s (issueStd 0x03 (pure' opSub) e.val o)
def execVAdds (e : Fin 16) (o : Std) (s : State) : Out := okM s (issueStd 0x04 (pure' opAdds) e.val o)
def execVSubs (e : Fin 16) (o : Std) (s : State) : Out := okM s (issueStd 0x05 (pure' opSubs) e.val o)
def execVNegs (e : Fin 16) (o : Std) (s : State) : Out := okM s (issueStd 0x06 (pure' opNegs) e.val o)
def execVAbss (e : Fin 16) (o : Std) (s : State) : Out := okM s (issueStd 0x07 (pure' opAbss) e.val o)
def execVAnd (e : Fin 16) (o : Std) (s : State) : Out := okM s (issueStd 0x08 (pure' opAnd) e.val o)
def execVOr (e : Fin 16) (o : Std) (s : State) : Out := okM s (issueStd 0x09 (pure' opOr) e.val o)
def execVXor (e : Fin 16) (o : Std) (s : State) : Out := okM s (issueStd 0x0A (pure' opXor) e.val o)
def execVNot (e : Fin 16) (o : Std) (s : State) : Out := okM s (issueStd 0x0B (pure' opNot) e.val o)
def execVShl (e : Fin 16) (o : Std) (s : State) : Out := okM s (issueStd 0x0C (pure' opShl) e.val o)
def execVShr (e : Fin 16) (o : Std) (s : State) : Out := okM s (issueStd 0x0D (pure' opShr) e.val o)
def execVShrl (e : Fin 16) (o : Std) (s : State) : Out := okM s (issueStd 0x0E (pure' opShrl) e.val o)
def execVMin (e : Fin 16) (o : Std) (s : State) : Out := okM s (issueStd 0x0F (pure' opMin) e.val o)
def execVMax (e : Fin 16) (o : Std) (s : State) : Out := okM s (issueStd 0x10 (pure' opMax) e.val o)
def execVCmp (e : Fin 16) (o : Std) (s : State) : Out := okM s (issueStd 0x11 (pure' opCmp) e.val o)
def execVNsb (e : Fin 16) (o : Std) (s : State) : Out := okM s (issueStd 0x12 (pure' opNsb) e.val o)
def execVMpy (e : Fin 16) (o : Std) (s : State) : Out := okM s (issueStd 0x20 (pure' opMpy) e.val o)
def execVMac (e : Fin 16) (o : Std) (s : State) : Out := okM s (issueStd 0x21 (pure' opMac) e.val o)
def execVMsu (e : Fin 16) (o : Std) (s : State) : Out := okM s (issueStd 0x22 (pure' opMsu) e.val o)
def execVMac2 (e : Fin 16) (o : Std) (s : State) : Out := okM s (issueStd 0x23 (pure' opMac2) e.val o)
def execVAclr (e : Fin 16) (o : Std) (s : State) : Out := okM s (issueStd 0x28 (pure' opAclr) e.val o)
def execVAmov (e : Fin 16) (o : Std) (s : State) : Out := okM s (issueStd 0x29 (pure' opAmov) e.val o)
def execVAadd (e : Fin 16) (o : Std) (s : State) : Out := okM s (issueStd 0x2A (pure' opAadd) e.val o)
def execVAshl (e : Fin 16) (o : Std) (s : State) : Out := okM s (issueStd 0x2B (pure' opAshl) e.val o)
def execVAshr (e : Fin 16) (o : Std) (s : State) : Out := okM s (issueStd 0x2C (pure' opAshr) e.val o)
def execVArd (e : Fin 16) (o : Std) (s : State) : Out := okM s (issueStd 0x2D (pure' opArd) e.val o)
def execVAld (e : Fin 16) (o : Std) (s : State) : Out := okM s (issueStd 0x2E (pure' opAld) e.val o)
def execVTapm (e : Fin 16) (o : Std) (s : State) : Out := okM s (issueStd 0x30 (pure' opTapm) e.val o)
def execVBxv (e : Fin 16) (o : Std) (s : State) : Out := okM s (issueStd 0x31 (pure' opBxv) e.val o)
def execVCmac (e : Fin 16) (o : Std) (s : State) : Out := okM s (issueStd 0x34 (pure' opCmac) e.val o)
def execVBfly (e : Fin 16) (o : Std) (s : State) : Out := okM s (issueStd 0x35 (pure' opBfly) e.val o)
def execVMvc (e : Fin 16) (o : Std) (s : State) : Out := okM s (issueStd 0x38 (pure' opMvc) e.val o)
def execVMcv (e : Fin 16) (o : Std) (s : State) : Out := okM s (issueStd 0x39 (fun d e => opMcv (d.engReg e)) e.val o)

/-! ### Move slots (R152), with the arithmetic slot empty -/

def execLoadWord (e : Fin 16) (y : Bool) (sl other : Slot) (ce : Fin 8) (s : State) : Out :=
  okM s (issueStd 0x00 (pure' opNop) e.val (slotBundle y sl other ce 1))
def execStoreWord (e : Fin 16) (y : Bool) (sl other : Slot) (ce : Fin 8) (s : State) : Out :=
  okM s (issueStd 0x00 (pure' opNop) e.val (slotBundle y sl other ce 2))
def execLoadPair (e : Fin 16) (y : Bool) (sl other : Slot) (ce : Fin 8) (s : State) : Out :=
  okM s (issueStd 0x00 (pure' opNop) e.val (slotBundle y sl other ce 3))
def execStorePair (e : Fin 16) (y : Bool) (sl other : Slot) (ce : Fin 8) (s : State) : Out :=
  okM s (issueStd 0x00 (pure' opNop) e.val (slotBundle y sl other ce 4))
def execStoreAcc (e : Fin 16) (y : Bool) (sl other : Slot) (ce : Fin 8) (s : State) : Out :=
  okM s (issueStd 0x00 (pure' opNop) e.val (slotBundle y sl other ce 5))
def execRegisterCopy (e : Fin 16) (y : Bool) (sl other : Slot) (ce : Fin 8) (s : State) : Out :=
  okM s (issueStd 0x00 (pure' opNop) e.val (slotBundle y sl other ce 6))

/-! ### Immediate bundles (R153) -/

def execLdi (e : Fin 16) (r : Imm) (s : State) : Out :=
  ok s (issueImm 0x00 (fun c r => c.setD r.reg.val r.imm) e.val r s.mem)
def execLdip (e : Fin 16) (r : Imm) (s : State) : Out :=
  ok s (issueImm 0x01 (fun c r => c.setP (r.reg.val % 16) (bits r.imm 0 15)) e.val r s.mem)
def execLdim (e : Fin 16) (r : Imm) (s : State) : Out :=
  ok s (issueImm 0x02 (fun c r => c.setM (r.reg.val % 16) (bits r.imm 0 16)) e.val r s.mem)
def execLdil (e : Fin 16) (r : Imm) (s : State) : Out :=
  ok s (issueImm 0x03 (fun c r => c.setL (r.reg.val % 16) (bits r.imm 0 15)) e.val r s.mem)
def execAddi (e : Fin 16) (r : Imm) (s : State) : Out :=
  ok s (issueImm 0x04 (fun c r => c.setD r.reg.val (c.dr r.reg.val + r.imm)) e.val r s.mem)
def execAddip (e : Fin 16) (r : Imm) (s : State) : Out :=
  ok s (issueImm 0x05 (fun c r => c.setP (r.reg.val % 16) (upd (c.lr (r.reg.val % 16)) (c.pr (r.reg.val % 16)) (sgn 16 (bits r.imm 0 16)))) e.val r s.mem)
def execMvp (e : Fin 16) (r : Imm) (s : State) : Out :=
  ok s (issueImm 0x06 (fun c r => c.setP (r.reg.val % 16) (bits (c.dr r.reg2.val) 0 15)) e.val r s.mem)
def execMpv (e : Fin 16) (r : Imm) (s : State) : Out :=
  ok s (issueImm 0x07 (fun c r => c.setD r.reg.val (w32 (c.pr (r.reg2.val % 16)))) e.val r s.mem)

/-! ### Control bundles (R154) -/

def execControlNop (e : Fin 16) (c : Ctl) (s : State) : Out :=
  ok s (issueCtl 0x00 (ctlStep id e.val) e.val c s.mem)
def execBra (e : Fin 16) (c : Ctl) (s : State) : Out :=
  ok s (issueCtl 0x01 (ctlBra e.val) e.val c s.mem)
def execCall (e : Fin 16) (c : Ctl) (s : State) : Out :=
  ok s (issueCtl 0x02 (ctlCall e.val) e.val c s.mem)
def execRet (e : Fin 16) (c : Ctl) (s : State) : Out :=
  ok s (issueCtl 0x03 (ctlRet e.val) e.val c s.mem)
def execLoop (e : Fin 16) (c : Ctl) (s : State) : Out :=
  ok s (issueCtl 0x04 (ctlLoop (fun _ c => if c.count.val = 0 then 65536 else c.count.val) e.val) e.val c s.mem)
def execLoopr (e : Fin 16) (c : Ctl) (s : State) : Out :=
  ok s (issueCtl 0x05 (ctlLoop (fun x c => min (bits (x.dr c.reg.val) 0 17) 65536) e.val) e.val c s.mem)
def execEndItem (e : Fin 16) (c : Ctl) (s : State) : Out :=
  ok s (issueCtl 0x06 (ctlEnd e.val) e.val c s.mem)
def execProt (e : Fin 16) (c : Ctl) (s : State) : Out :=
  ok s (issueCtl 0x07 (ctlStep (fun c => { c with prot := true }) e.val) e.val c s.mem)
def execUnprot (e : Fin 16) (c : Ctl) (s : State) : Out :=
  ok s (issueCtl 0x08 (ctlStep (fun c => { c with prot := false }) e.val) e.val c s.mem)
def execXgo (e : Fin 16) (c : Ctl) (s : State) : Out :=
  ok s (issueCtl 0x09 (ctlXgo e.val) e.val c s.mem)
def execXwait (e : Fin 16) (c : Ctl) (s : State) : Out :=
  ok s (issueCtl 0x0A (ctlXwait e.val) e.val c s.mem)
def execBrk (e : Fin 16) (c : Ctl) (s : State) : Out :=
  ok s (issueCtl 0x0B (ctlBrk e.val) e.val c s.mem)

/-! ### Transfers (R167 to R169), the protected section's limit (R173) and the counters (R166) -/

def execXferStartAfterWait (e : Fin 16) (c : Fin 4) (s : State) : Out := ok s (xferStart e.val c.val)
def execXferDone (e : Fin 16) (c : Fin 4) (waited : Nat) (ecc : List EccHit) (s : State) : Out :=
  okM s (xferDone e.val c.val waited ecc)
def execXferErr (e : Fin 16) (c : Fin 4) (waited : Nat) (s : State) : Out := ok s (xferErr e.val c.val waited)
def execQputTicketArrive (e : Fin 16) (c : Fin 4) (s : State) : Out := ok s (qputTicket e.val c.val)
def execProtTimeout (e : Fin 16) (s : State) : Out := ok s (protTimeout e.val)
def execEngCntClr (m : Agent) (e : Fin 16) (v : Word) (s : State) : Out := okBy m (engAddr e.val 0x3C) v s (engCntClr e.val v) true 12

end Sys2Proof.Machine
end

