-- ==== Sys2Proof/Machine/Fw.lean ====
section
/-!
DEFINITION. How Station firmware posts replies and events (14_host_mailboxes.md R405, R406).
Marks (notes/assumptions): DESIGN CHOICE 30; DEDUCED 69.
-/
namespace Sys2Proof.Machine

/-- Word 0 of a message (R405). -/
def msgHead (tag status len code : Nat) : Word := w32 (tag % 256 * 2 ^ 24 + status * 2 ^ 21 + len * 2 ^ 16 + code)

def Dev.heldOf (d : Dev) (x : Nat) : List (List Word) := Tbl.getD d.hi.held x []

/-- Firmware posts a message in mailbox `x`, or holds it while the mailbox is full or others wait. -/
def fwPost (x : Nat) (ws : List Word) (d : Dev) : Dev :=
  if (d.mbx x).occ ∨ d.heldOf x ≠ [] then d.onHi (fun h => { h with held := Tbl.set h.held [] x (d.heldOf x ++ [ws]) })
  else mbPut x ws d

/-- The reply to host `h` (0 PCIe, 1 SPI, 2 I2C). -/
def fwReply (h tag status code : Nat) (ws : List Word) (d : Dev) : Dev :=
  fwPost (3 * h + 1) (msgHead tag status ws.length code :: ws) d

/-- An event to every host: at most 32 are held for a mailbox, the rest are counted (R406). -/
def fwEvent (code : Nat) (ws : List Word) (d : Dev) : Dev :=
  (List.range 3).foldl (fun d h =>
    let x := 3 * h + 2
    if (d.heldOf x).length ≥ 32 then d.onHi (fun i => { i with lost := Tbl.set i.lost 0 x (Tbl.getD i.lost x 0 + 1) })
    else fwPost x (msgHead 0 0 ws.length code :: ws) d) d

/-- A held message goes into its empty mailbox; where events were lost, the next one delivered says so (R406). -/
def heldPost (x : Nat) (d : Dev) : Dev :=
  if (d.mbx x).occ then d
  else
    let n := Tbl.getD d.hi.lost x 0
    if n ≠ 0 then mbPut x [msgHead 0 0 1 0x8002, w32 n] (d.onHi (fun h => { h with lost := Tbl.del h.lost x }))
    else match d.heldOf x with
      | [] => d
      | ws :: rest => mbPut x ws (d.onHi (fun h => { h with held := Tbl.set h.held [] x rest }))

def execHeldReplyPost (x : Fin 32) (s : State) : Out := ok s (heldPost x.val)

end Sys2Proof.Machine
end

