-- ==== Sys2Proof/Machine/Modes.lean ====
section
/-!
DEFINITION. Operating modes: requests, transitions, Siding and Depot, wake (16_modes_power.md R440 to R454, R460).
Marks (notes/assumptions): DESIGN CHOICE 7, 79; DEDUCED 20, 76, 77.
-/
namespace Sys2Proof.Machine

/-- Does a transition run (R440)? -/
def Dev.trans (d : Dev) : Bool := d.fb F.STATUS_SYS_TRANS

/-- The mode a request is checked against (R441). -/
def Dev.target (d : Dev) : Nat := if d.trans then d.f F.STATUS_SYS_TARGET else d.mode

/-- Is a boot due, or does a consist load run? -/
def Dev.booting (d : Dev) : Bool := d.md.boot || d.ld.isSome

def reqIgn (d : Dev) : Dev := d.evt Ev.SYS_REQ_IGN

/-- The system factor of every feed takes a new target from block `c` with ramp time `t` (R443, R445), from 0 where `zero`. -/
def sysAim (zero : Bool) (tgt c t : Nat) (d : Dev) : Dev :=
  d.onCce (fun e => { e with aims := e.aims ++ [⟨.sys none, c, tgt, t, zero⟩] })

/-- At the first block `b` that a consist renders, every system factor ramps from 0 over FC_MUTE.RAMP of its feed (04_correction.md
R130). -/
def sysFirst (b : Nat) (d : Dev) : Dev :=
  let d := d.onMd (fun m => { m with fresh := false })
  let ramp (o : Nat) : Nat := max 1 (min 256 (d.f (F.FC_MUTE_RAMP.of o)))
  d.onCce (fun e => { e with aims := e.aims ++ (List.range d.crm.nout).map (fun o => ⟨.sys (some o), b, one30, ramp o, true⟩) })

/-- A transition to mode `m` begins. -/
def transBegin (m step : Nat) (d : Dev) : Dev :=
  ((d.setB F.STATUS_SYS_TRANS true).setF F.STATUS_SYS_TARGET m).setF F.STATUS_SYS_STEP step

/-- STATUS as the mode and a pending resume give it: a pending resume is a transition to Mainline (R442, R445). -/
def transShow (d : Dev) : Dev :=
  if d.md.resume.isSome then transBegin mMainline 0 d
  else ((d.setB F.STATUS_SYS_TRANS false).setF F.STATUS_SYS_TARGET d.mode).setF F.STATUS_SYS_STEP 0

/-- The running transition is over. -/
def transEnd (d : Dev) : Dev := transShow (d.onMd (fun m => { m with leave := none, change := none, back := false }))

/-- The resume that was pending has acted, or is cancelled. -/
def resumeOver (d : Dev) : Dev := (d.setB F.STATUS_SYS_RES_PEND false).onMd (fun m => { m with resume := none })

/-- A pending resume is cancelled (R446), and what the solver solved for it is discarded (02_gain_solver.md R59). -/
def dropResume (d : Dev) : Dev :=
  d.when d.md.resume.isSome (fun d =>
    let d := resumeOver (gsvDiscard 0 d)
    match d.md.change with
    | some (g, _) => transBegin g 0 d
    | none => transShow d)

/-- The unit leaves its pair as if the link had gone down (12_twin.md R358, R364). -/
def twLeave (d : Dev) : Dev :=
  let st := d.twSt
  if st = twActive then twState twSolo d else if d.twCopy then twState twDetached d else d

/-- What mode `m` asks of the analog outputs (11_analog_outputs.md R331). -/
def aoForMode (m : Nat) : Dev → Dev := aoForce (if m = mShunt ∨ m = mInspection then .hold else .free)

/-- MODE changes (R440): the event, what the mode asks of the outputs (11_analog_outputs.md R331), and the end of a pair outside Mainline and
Halt (12_twin.md R364). -/
def modeEnter (m : Nat) (d : Dev) : Dev :=
  let d := transEnd (d.setF F.STATUS_SYS_MODE m)
  let d := (d.evt Ev.SYS_MODE_DONE).when (m == mHalt) (fun d => d.onMd (fun x => { x with halt := d.nextDep }))
  let d := d.when (m != mDepot && m != mSiding) (aoForMode m)
  let d := d.when (m != mMainline && m != mHalt) twLeave
  d.when (m != mDepot && m != mSiding) (fwEvent 0x8010 [w32 m])

/-! ### Requests (R441 to R446) -/

/-- The feed ramp toward mode `goal` with RAMP `t` from block `b` on (R443, R444); RAMP 0 stops at the boundary of `b`. -/
def leaveReq (goal t b : Nat) (d : Dev) : Dev :=
  let d := d.when (decide (t > 0)) (sysAim false 0 b t)
  let d := transBegin goal (if goal = mSiding ∨ goal = mDepot then 1 else 0) d
  d.onMd (fun m => { m with leave := some ⟨goal, b + t, decide (t = 0)⟩, change := none, back := false, ramp := t })

/-- A change of mode at the next block boundary (R442). -/
def changeReq (goal : Nat) (d : Dev) : Dev :=
  (transBegin goal 0 d).onMd (fun m => { m with change := some (goal, d.effBlk) })

/-- May a request for Inspection be granted (17_security_debug.md R475, R476)? -/
def Dev.inspOk (d : Dev) : Bool := d.f F.STATUS_SEC_LC != 2 || d.fb F.STATUS_SEC_UNLOCKED

/-- Is a wake cause that DP_WAKE_EN enables latched (R441)? -/
def Dev.wakePend (d : Dev) : Bool := d.rd R.DP_WAKE_CAUSE &&& d.rd R.DP_WAKE_EN &&& 0xB#32 ≠ 0#32

/-- A resume (R445): pending until its block; too early a block is moved to `B_w + 4`. -/
def resumeReq (t : Nat) (d : Dev) : Dev :=
  let bw := d.effBlk
  let r := d.rd64 R.SYS_RESUME_AT_LO R.SYS_RESUME_AT_HI / 32
  let d := d.when (decide (r < bw + 4)) (fun d => d.evt Ev.SYS_RESUME_LATE)
  let r := max r (bw + 4)
  let d := (d.wr64 R.SYS_RESUME_BLK_LO R.SYS_RESUME_BLK_HI r).setB F.STATUS_SYS_RES_PEND true
  gsvResumeAt r (transBegin mMainline 0 (d.onMd (fun m => { m with resume := some (r, t) })))

/-- A resume reverses a ramp toward Halt or Shunt at once (R446). -/
def reverse (t : Nat) (d : Dev) : Dev := (transEnd (sysAim false one30 d.effBlk (max 1 t) d)).evt Ev.SYS_SEQ_REV

/-- Does a sequenced transition run, and does it run backwards (R447)? -/
def Dev.seqOn (d : Dev) : Bool := d.trans && d.f F.STATUS_SYS_STEP != 0
def Dev.seqBack (d : Dev) : Bool := d.f F.STATUS_SYS_TARGET == d.md.origin

/-- A request while a sequenced transition runs: for the mode it left or for Siding or Depot it gives the direction that the running step's end takes,
the last such request (R307, R447); one for the direction that runs already, and any other, is ignored (R441; DESIGN CHOICE, log 79). -/
def seqReq (goal : Nat) (d : Dev) : Dev :=
  let tgt := d.f F.STATUS_SYS_TARGET
  if goal = d.md.origin then (if d.md.back && d.seqBack then reqIgn d else d.onMd (fun m => { m with back := true }))
  else if !(goal == mSiding || goal == mDepot) || d.wakePend then reqIgn d
  else if d.seqBack then
    if d.md.back || (d.md.aim == mSiding && goal == mDepot) then d.onMd (fun m => { m with back := false, aim := goal }) else reqIgn d
  else if d.md.back && tgt == goal then d.onMd (fun m => { m with back := false })
  else if tgt == mSiding && goal == mDepot then (d.setF F.STATUS_SYS_TARGET mDepot).onMd (fun m => { m with back := false })
  else reqIgn d

/-- A request for Siding or Depot (R441, R447): from Mainline, a ramp that runs toward Halt or Shunt included, step 1 ramps the feeds; from Shunt and
Halt the outputs run down from the request's block on. -/
def sleepReq (goal t : Nat) (d : Dev) : Dev :=
  let cur := d.target
  if d.wakePend then reqIgn d
  else if d.inMode mMainline && (cur == mMainline || cur == mHalt || cur == mShunt) then
    leaveReq goal t d.effBlk (dropResume (d.onMd (fun m => { m with origin := mMainline })))
  else if cur = mShunt ∨ cur = mHalt then
    let d := dropResume (d.onMd (fun m => { m with origin := cur, ramp := t, back := false, leave := none, change := none }))
    transBegin goal 2 (d.onMd (fun m => { m with change := some (goal, d.effBlk) }))
  else if goal = mDepot ∧ cur = mSiding then transBegin mDepot 5 d
  else reqIgn d

/-- A request for mode `goal` while no resume is pending (R441, R442). -/
def modeMove (goal t : Nat) (d : Dev) : Dev :=
  let cur := d.target
  let b := d.effBlk
  if d.seqOn then seqReq goal d
  else if goal = mMainline ∧ d.md.leave.isSome then reverse t d
  else if goal = mHalt then
    if d.inMode mMainline && (cur == mMainline || cur == mHalt || cur == mShunt) then leaveReq mHalt t b d
    else if cur = mShunt then changeReq mHalt d
    else reqIgn d
  else if goal = mMainline then
    if cur = mHalt ∨ (cur = mShunt ∧ d.sb.curOk) then resumeReq t d else reqIgn d
  else if goal = mShunt then
    if d.inMode mMainline && (cur == mMainline || cur == mHalt) then leaveReq mShunt t b d
    else if cur = mHalt ∨ cur = mInspection then changeReq mShunt d
    else reqIgn d
  else if goal = mInspection then
    if cur = mShunt ∧ d.inspOk then changeReq mInspection d else reqIgn d
  else if goal = mSiding ∨ goal = mDepot then sleepReq goal t d
  else reqIgn d

/-- A request while a resume is pending (R445, R446): a later resume replaces it unless its block comes too late, Halt, Shunt, Siding and Depot
cancel it. Shunt in Shunt leaves nothing to run. -/
def modeMoveRes (goal t r : Nat) (d : Dev) : Dev :=
  if goal = mMainline then (if d.effBlk < r then resumeReq t d else reqIgn d)
  else if (goal = mSiding ∨ goal = mDepot) ∧ d.wakePend then reqIgn d
  else if goal = mHalt ∨ goal = mSiding ∨ goal = mDepot then modeMove goal t (dropResume d)
  else if goal = mShunt then
    let d := dropResume d
    if d.target = mShunt then d else modeMove mShunt t d
  else reqIgn d

/-- A mode request (R441): MODE and RAMP of the write. While a boot is due or a consist load runs it is ignored, as SET_MODE is
(15_consist_boot.md R437). -/
def modeReq (v : Word) (d : Dev) : Dev :=
  let goal := bits v 0 3
  let t := min 256 (bits v 8 9)
  if d.booting then reqIgn d
  else match d.md.resume with
    | some (r, _) => modeMoveRes goal t r d
    | none => modeMove goal t d

/-- On the ACTIVE, Halt and resume requests travel in the MODE section (12_twin.md R343, R345). -/
def modeLog (v : Word) (d : Dev) : Dev :=
  d.when (d.twSt == twActive) (fun d =>
    if bits v 0 3 = mHalt then d.onTw (fun t => { t with mlog := some (.halt (bits v 8 9)) })
    else if bits v 0 3 = mMainline then
      let r := max (d.rd64 R.SYS_RESUME_AT_LO R.SYS_RESUME_AT_HI / 32) (d.effBlk + 4)
      d.onTw (fun t => { t with mlog := some (.resume r (bits v 8 9)) })
    else d)

/-- A write of SYS_MODE_REQ by agent `a`; a STANDBY ignores Halt and resume from other agents than its peer (12_twin.md R345). -/
def modeReqBy (a : Agent) (v : Word) (d : Dev) : Dev :=
  let hr := bits v 0 3 == mHalt || bits v 0 3 == mMainline
  if d.twCopy && hr && a.num != 24 then (d.bump R.TWN_WR_IGN_CNT).evt Ev.TWN_WR_IGN
  else modeReq v (modeLog v d)

/-- A write of DP_CTRL: a request for Depot (R460). -/
def dpCtrl (v : Word) (d : Dev) : Dev :=
  d.when (bit v 0) (modeReq (setBits v 0 3 mDepot))

/-! ### Block boundaries (R443 to R445) -/

/-- Rendering stops at the boundary of block `b` (R443, R444; 02_gain_solver.md R59). -/
def stopAt (b : Nat) (hard : Bool) (d : Dev) : Dev :=
  let d := gsvDiscard b (d.wr64 R.SYS_HALT_BLK_LO R.SYS_HALT_BLK_HI b)
  d.when hard (fun d => sysAim false 0 b 0 (d.evt Ev.SYS_HARD_STOP))

/-- Rendering starts again at block `b` with the system factor rising over `t` blocks (R445): what had departed and not begun is in place, and
ramps, swaps and dips move forward by the skipped blocks (03_crosspoint.md R99; 04_correction.md R137). -/
def renderAgain (b t : Nat) (d : Dev) : Dev :=
  let h := d.rd64 R.SYS_HALT_BLK_LO R.SYS_HALT_BLK_HI
  let d := cceDrain (crmDrain d)
  let d := d.when (!d.md.fresh) (fun d => cceShift h (b - h) (crmShift h (b - h) d))
  let d := d.onCrm (fun c => { c with begun := b })
  if d.md.fresh then sysFirst b d else sysAim true one30 b (max 1 t) d

/-- A feed ramp has ended at the boundary of block `b` (R443, R447). -/
def leaveDone (l : Leave) (b : Nat) (d : Dev) : Dev :=
  let sleep := l.goal = mSiding ∨ l.goal = mDepot
  if sleep ∧ d.md.back then (transEnd (sysAim false one30 b (max 1 d.md.ramp) d)).evt Ev.SYS_SEQ_REV
  else
    let d := stopAt b l.hard (d.onMd (fun m => { m with leave := none }))
    if sleep then aoForce .down (d.setF F.STATUS_SYS_STEP 2) else modeEnter l.goal d

/-- The changes of mode that act at the boundary of block `b`: a feed ramp's end, a change that waits, the run-down of a request for Siding or Depot
(R441, R447), a resume. -/
def modeBoundary (b : Nat) (d : Dev) : Dev :=
  let d := match d.md.leave with
    | some l => if l.atBlk ≤ b then leaveDone l b d else d
    | none => d
  let d := match d.md.change with
    | some (goal, k) =>
      if b < k then d
      else if goal = mSiding ∨ goal = mDepot then aoForce .down (d.onMd (fun m => { m with change := none }))
      else modeEnter goal d
    | none => d
  match d.md.resume with
  | some (r, t) =>
    if r ≤ b && d.md.leave.isNone && d.md.change.isNone then renderAgain b t (modeEnter mMainline (resumeOver d)) else d
  | none => d

/-! ### Sequenced transitions (R447 to R450) -/

/-- Step 2 of an entry: ports, streams and converters stop (R447). -/
def ioStop (d : Dev) : Dev :=
  let d := (List.range 20).foldl (fun d k => d.setPort k .off) ((List.range 20).foldl (fun d k => portRest k d) d)
  let d := attsRun false ((List.range 16).filter (fun a => d.f (F.SRC_CFG_TYPE.at a) == 2)) d
  aiSiding (d.onNet (fun n => { n with streams := n.streams.map (fun e => (e.1, Stream.off)) }))

/-- The exit's counterpart: every interface whose EN is 1 starts again (R450). -/
def ioStart (d : Dev) : Dev :=
  let b := d.effBlk
  let ask (on : Bool) (k : Nat) (d : Dev) : Dev := d.when on (fun d => d.setPort k { d.port k with reqs := [⟨b, true, false, false⟩] })
  let d := (List.range 16).foldl (fun d k => ask (d.fb (F.PT_CFG_EN.of k)) k d) d
  let d := (List.range 2).foldl (fun d k =>
    ask (d.fb (F.AT_CFG_EN.at k)) (18 + k) (ask (d.fb (F.AR_CFG_EN.at k)) (16 + k) d)) d
  let d := (List.range 256).foldl (fun d s =>
    d.when (d.fb (F.ST_CFG_EN.of s)) (fun d => d.setStrm s { d.strm s with reqs := [(b, some (d.rd (R.ST_CFG.of s) &&& 0x7EE000FF#32))] })) d
  aiWake d

/-- The pin of SYS_SIDING, which the part drives high with VRET = 1 (R449). -/
def sidingPin (up : Bool) (d : Dev) : Dev :=
  d.onHi (fun h => { h with vret := if up && d.fb F.SYS_SIDING_VRET then some (d.f F.SYS_SIDING_PIN) else none })

/-- Depot is reached: the rails are off (R451). -/
def depotEnter (d : Dev) : Dev := (modeEnter mDepot d).wr R.STATUS_DP 0#32

/-- In Mainline the graph is released again at the next boundary (R450). -/
def seqRender (d : Dev) : Dev :=
  d.when (d.md.origin == mMainline) (fun d => renderAgain d.nextDep d.md.ramp (gsvResumeAt d.nextDep d))

/-- The exit into the mode that Siding was entered from (R450), or back from an entry that has stopped the interfaces. -/
def sidingExit (d : Dev) : Dev :=
  let m := d.md.origin
  let d := if d.inMode mSiding then (modeEnter m d).evt Ev.SYS_WAKE else aoForMode m (transEnd d)
  seqRender (ioStart d)

/-- An entry that is turned back at the end of step 2 has stopped nothing but the outputs and the rendering (R447; DEDUCED, log 79). -/
def turnBack (d : Dev) : Dev := seqRender (aoForMode d.md.origin (transEnd d))

/-- The end of step `k` of an entry. -/
def stepFwd (k : Nat) (d : Dev) : Dev :=
  match k with
  | 2 => (ioStop d).setF F.STATUS_SYS_STEP 3
  | 3 => (d.when (d.f F.DR_STATUS_STATE == drReady) (fun d => d.setF F.DR_STATUS_STATE drSelfRefresh)).setF F.STATUS_SYS_STEP 4
  | 4 =>
    let d := sidingPin true d
    if d.f F.STATUS_SYS_TARGET = mSiding then modeEnter mSiding d else d.setF F.STATUS_SYS_STEP 5
  | 5 => depotEnter d
  | _ => d

/-- The end of step `k` on the way back (R447, R450). -/
def stepBack (k : Nat) (d : Dev) : Dev :=
  match k with
  | 5 => d.setF F.STATUS_SYS_STEP 4
  | 4 => (ruWake (tuWake d.now (sidingPin false d))).setF F.STATUS_SYS_STEP 3
  | 3 => (d.when (d.f F.DR_STATUS_STATE == drSelfRefresh) (fun d =>
      (d.setF F.DR_STATUS_STATE drReady).onMs (fun x => { x with drift := [] }))).setF F.STATUS_SYS_STEP 2
  | 2 => sidingExit d
  | _ => d

/-- A transition that ran backwards at step `k` goes forward again: what the step did on the way in still stands. -/
def turnFwd (k : Nat) (d : Dev) : Dev :=
  if k = 5 then depotEnter d
  else if k = 4 ∧ d.md.aim = mSiding then sidingPin true (if d.inMode mSiding then transEnd d else modeEnter mSiding d)
  else d.setF F.STATUS_SYS_STEP (k + 1)

/-- A step ends: the next one, or a reversal (R307, R447). Step 2 of an entry ends once every output is at step 0. -/
def stepEnd (d : Dev) : Dev :=
  let k := d.f F.STATUS_SYS_STEP
  d.when (d.trans && decide (2 ≤ k) && (d.seqBack || k != 2 || (d.md.change.isNone && (!d.cap.analog || d.aoDown false)))) (fun d =>
    match d.seqBack, d.md.back with
    | true, true => stepBack k d
    | true, false => turnFwd k ((d.evt Ev.SYS_SEQ_REV).setF F.STATUS_SYS_TARGET d.md.aim)
    | false, true =>
      let d := (d.evt Ev.SYS_SEQ_REV).setF F.STATUS_SYS_TARGET d.md.origin
      if k = 2 then turnBack d else stepBack k d
    | false, false => stepFwd k d)

/-- The same with the memory: as step 3 of an entry ends, the DRAM controller has completed every queued request (13_memory.md R386). -/
def stepEndMem (mem : List Host.Cell) (d : Dev) : List Host.Cell × Dev :=
  let rest := d.trans && d.f F.STATUS_SYS_STEP == 3 && !d.seqBack && !d.md.back && d.f F.DR_STATUS_STATE == drReady
  let r := if rest then drFlush mem d else (mem, d)
  (r.1, stepEnd r.2)

/-! ### Wake (R450, R452, R453) -/

/-- Is source `k` enabled (R452)? Jack sources latch only where JD_CFG enables them. -/
def Dev.wakeEn (d : Dev) (k : Nat) : Bool := if k = 0 ∨ k = 1 ∨ k = 3 then bit (d.rd R.DP_WAKE_EN) k else decide (k < 8)

/-- An enabled wake source that is latched starts the exit, reverses an entry (R447), or starts the rails. -/
def wake (k : Nat) (d : Dev) : Dev :=
  d.when (bit (d.rd R.DP_WAKE_CAUSE) k && d.wakeEn k) (fun d =>
    if d.inMode mDepot then d.when (d.f F.STATUS_DP_RSTEP == 0) (fun d => d.setF F.STATUS_DP_RSTEP 1)
    else if d.inMode mSiding && !d.trans then (transBegin d.md.origin 4 (sidingPin false d)).onMd (fun m => { m with back := true })
    else d.when d.seqOn (fun d => d.onMd (fun m => { m with back := true })))

/-- A wake pulse of 1 ms or more (R452). -/
def wakeN (d : Dev) : Dev := latchWake 0 d

/-- The clock has run to the alarm's second, which acts: its event and its wake cause (R452, R460). -/
def rtcAlarm (d : Dev) : Dev :=
  let d := (d.wr R.DP_RTC_HI (d.rd R.DP_ALARM)).setF F.DP_RTC_LO_SUB 0
  (latchWake 3 d).evt Ev.DP_ALARM

/-! ### Meanings -/

def execHaltRequest (m : Agent) (v : Word) (s : State) : Out := okBy m R.SYS_MODE_REQ.addr v s (modeReqBy m v)
def execResumeRequest (m : Agent) (v : Word) (s : State) : Out := okBy m R.SYS_MODE_REQ.addr v s (modeReqBy m v)
def execShuntRequest (m : Agent) (v : Word) (s : State) : Out := okBy m R.SYS_MODE_REQ.addr v s (modeReqBy m v)
def execInspectionRequest (m : Agent) (v : Word) (s : State) : Out := okBy m R.SYS_MODE_REQ.addr v s (modeReqBy m v)
def execSidingRequest (m : Agent) (v : Word) (s : State) : Out := okBy m R.SYS_MODE_REQ.addr v s (modeReqBy m v)
def execWakeN (s : State) : Out := okAny s wakeN
def execRtcAlarm (s : State) : Out := okAny s rtcAlarm
def execWake (src : Nat) (s : State) : Out := okAny s (wake src)
def execJackTypeAccept (n : Fin 4) (s : State) : Out :=
  okAny s (fun d => let r := jackAccept n.val d; r.2.when r.1 (latchWake 2))

end Sys2Proof.Machine
end

