-- ==== Sys2Proof/Machine/Reset.lean ====
section
/-!
DEFINITION. Resets: power-on, cold, warm and of one block; the rails of the Depot wake sequence (16_modes_power.md R451,
R453, R455, R456; 13_memory.md R370; 19_electrical_package.md R496).
Marks (notes/assumptions): DESIGN CHOICE 2, 81, 105; DEDUCED 68, 78, 82, 94.
-/
namespace Sys2Proof.Machine

/-! ### The main domain (R455) -/

/-- A burn that a reset cuts short: some of its bits are burned (17_security_debug.md R464). -/
def burnCut (w : World) : World :=
  let cut (k : Nat) (v : Word) : World :=
    let r := w.dev.fresh
    { w with fuses := Tbl.set w.fuses 0#32 k (fuse w.fuses k ||| (v &&& r.1)), dev := r.2 }
  match w.dev.se.pgm, w.dev.se.burn with
  | some (k, v), _ => cut k v
  | none, some t => cut (t - 1) 0xFFFFFFFF#32
  | none, none => w

/-- The registers of the always-on domain: block 16, the jack pins and the fail count; and the levels of the GPIO pins, which no reset
changes. -/
def onKey (k : Nat) : Bool :=
  keyBlk k == 16 || (keyBlk k == 11 && decide (0x800 ≤ keyOff k)) || k == R.SEC_FAIL.key || k == R.GPIO_IN.key

/-- The registers that satisfy `keep` carried over from `old`. -/
def RegFile.carry (keep : Nat → Bool) (old new : RegFile) : RegFile :=
  (old.filter (fun e => keep e.1)).foldl (fun t e => Tbl.put t e.1 e.2) (Tbl.drop new keep)

/-- The device with the main domain at its reset values and the always-on domain as it was. -/
def mainReset (z : Fuses) (old : Dev) : Dev :=
  let d := Dev.por z old.cap.pkg old.hi.strap old.free
  let d := { d with regs := RegFile.carry onKey old.regs d.regs, now := old.now, msix := { Msix.reset with sent := old.msix.sent },
                    tu := .resetAt old.now, ai := { d.ai with jd := old.ai.jd },
                    se := { d.se with ir := old.se.ir, chain := old.se.chain, resp := old.se.resp, dr := old.se.dr } }
  let d := (List.range 4).foldl jdHeld d
  d.setB F.STATUS_SEC_UNLOCK_DIS (decide (d.f F.SEC_FAIL_COUNT ≥ 8))

/-- DP_RST_CAUSE records a reset of the main domain. -/
def resetCause (bit : Nat) (d : Dev) : Dev := (d.setBit R.DP_RST_CAUSE bit).evt Ev.DP_RESET

/-- A cold reset: every store is cleared, DRAM is lost, a boot follows. -/
def coldReset (cause : Nat) (w : World) : World :=
  let w := burnCut w
  ⟨w.fuses, [], resetCause cause (mainReset w.fuses w.dev)⟩

/-- The registers that a warm reset keeps: the sensed ones, the consist registers, the DRAM's training and segments; of block 1
STATUS (R439, R455; 18_variants_fuses.md R481). -/
def warmKey (k : Nat) : Bool :=
  onKey k || (keyBlk k == 0 && decide (0x400 ≤ keyOff k)) || (keyBlk k == 0 && decide (0x80 ≤ keyOff k) && decide (keyOff k < 0x9C)) ||
    (keyBlk k == 13 && (keyOff k == 0x200 || keyOff k == 0x204 || keyOff k == 0x20C || decide (0x250 ≤ keyOff k))) ||
    [R.STATUS_SEC, R.SEC_DEVID_LO, R.SEC_DEVID_HI, R.HIF_PCI_ID].any (fun r => k == r.key)

/-- A warm reset: the stores and the valid DRAM segments keep their contents; the CRM clears its records (03_crosspoint.md R100). -/
def warmReset (w : World) : World :=
  let w := burnCut w
  let old := w.dev
  let d := mainReset w.fuses old
  let d := { d with regs := RegFile.carry warmKey old.regs d.regs, cap := old.cap, hi := { d.hi with tcm := old.hi.tcm },
                    ms := { d.ms with bad := old.ms.bad.filter (fun e => e.1 != 1), zeroing := old.ms.zeroing } }
  let d := (d.setB F.STATUS_SEC_ATTACH false).setB F.STATUS_SEC_PGM_BUSY false
  { w with dev := resetCause 2 (d.setF F.CFG_STATUS_STATE 0) }

/-- The TAP is reset: it holds IDCODE, and the attach ends with it (17_security_debug.md R469, R470). -/
def tapClear (d : Dev) : Dev :=
  { d with se := { d.se with ir := 1, chain := [], drive := false, resp := 0, dr := 0, heldAttach := false, heldInsp := false } }

/-- The main domain loses its power (R451); a burn that runs is cut short. -/
def mainOff (w : World) : World :=
  let w := burnCut w
  let d := tapClear (mainReset w.fuses w.dev)
  ⟨w.fuses, [], ((d.setF F.STATUS_SYS_MODE mDepot).setF F.STATUS_SYS_TARGET mDepot).wr R.STATUS_DP 0#32⟩

/-- A power-on reset: nothing is kept but the fuses; the strap is sampled (14_host_mailboxes.md R392). -/
def powerOn (strap : Bool) (w : World) : World :=
  let w := burnCut w
  ⟨w.fuses, [], Dev.por w.fuses w.dev.cap.pkg strap w.dev.free⟩

/-- RESET_N has no effect in Depot, nor before the release. -/
def pinReset (w : World) : World := w.when (!w.dev.dark) (coldReset 1)

/-- A rail step of the wake sequence ends; at step 4 the main domain is released, and the fuses are sensed (R453, R481). -/
def railStep (w : World) : World :=
  let d := w.dev
  match d.f F.STATUS_DP_RSTEP with
  | 0 => w.when (!d.inMode mDepot) (·.onDev (·.setF F.STATUS_DP_RSTEP 1))
  | 1 => w.onDev (·.setF F.STATUS_DP_RSTEP 2)
  | 2 => w.onDev (fun d => (d.setF F.STATUS_DP_RSTEP 3).setB F.STATUS_DP_MAIN true)
  | 3 =>
    if d.inMode mDepot then
      let d := resetCause 4 (mainReset w.fuses d)
      { w with dev := (d.setF F.STATUS_DP_RSTEP 4).onMd (fun m => { m with woke := true }) }
    else w.onDev (·.setF F.STATUS_DP_RSTEP 4)
  | _ => w

/-- A watched rail has fallen below its threshold: a cold reset holds the main domain until the rails have stood for D_REL, when a rail step ends
(19_electrical_package.md R496). -/
def railDip (w : World) : World := (coldReset 3 w).onDev (fun d => d.setF F.STATUS_DP_RSTEP 3)

/-- A write of SYS_RST (R455): KEY 0x5A and WARM. -/
def sysRst (v : Word) (w : World) : World := w.when (bits v 8 8 == 0x5A && bit v 0) warmReset

/-! ### One block (R455) -/

/-- The queues that block `n` owns (01_architecture.md R38, R39). -/
def ownQ (n q : Nat) : Bool :=
  match n with
  | 2 => decide (320 ≤ q) && decide (q < 384)
  | 3 => q == 296
  | 4 => q == 294 || q == 295 || q == 301
  | 5 => q == 297
  | 6 => decide (256 ≤ q) && decide (q < 292)
  | 7 => decide (q < 256)
  | 10 => q == 292
  | 11 => q == 293
  | 12 => q == 300
  | 15 => q == 298 || q == 299
  | _ => false

/-- A reset of its owner returns a queue to step 1 (R34); the queue of an interface that is off does not exist (15_consist_boot.md
R418). -/
def renewQs (n : Nat) (d : Dev) : Dev :=
  let ks := (d.q.acc.map Prod.fst).filter (ownQ n)
  d.onQ (fun q => ks.foldl (fun q k => if n = 6 ∨ n = 7 then q.remove k else q.renew k) q)

/-- The correction block is reset: state, banks, swaps and loads are gone, and every factor rises from 0 to its target over the next block
(04_correction.md R130, R137). -/
def cceReset (d : Dev) : Dev :=
  let sys := if d.renders && d.md.leave.isNone then one30 else 0
  let d := d.onCce (fun c => { Cce.reset with dep := c.dep, dith := c.dith })
  (List.range d.crm.nout).foldl (fun d o => d.onFeed o (fun f => f.rises d.nextDep sys)) d

/-- Block `n` is reset; a block that a consist builds keeps what the consist built (R100, R137, R200; 13_memory.md R381: "DRAM kept"). A reset of
block 3 empties the inputs' delay lines too, which R100 does not name (DESIGN CHOICE, log 78). -/
def blkReset (n : Nat) (d : Dev) : Dev :=
  let old := d
  let d := if n = 11 then d else d.resetRegs n
  let d := renewQs n d
  let keep (k : Nat → Bool) (d : Dev) : Dev := { d with regs := RegFile.carry (fun x => keyBlk x == n && k x) old.regs d.regs }
  match n with
  | 2 => d.onSb (fun _ => .reset)
  | 3 => keep (fun k => keyOff k == R.CRM_DIM.off) <|
      (d.onCrm (fun c => { Crm.reset with nin := c.nin, nout := c.nout, src := c.src, lineBlk := c.lineBlk, begun := c.begun })).onMs
        (fun x => { x with bad := x.bad.filter (fun e => e.1 != 1) })
  | 4 => keep (fun k => [R.GSV_LAYOUT_INFO, R.GSV_LAYOUT_TRI, R.GSV_OBJ_INFO].any (fun r => keyOff k == r.off)) <| d.onGsv (fun g => { Gsv.reset with layout := g.layout, next := d.nextDep + 1 })
  | 5 =>
    keep (fun k => [R.CCE_DIM, R.CCE_TAPS, R.CCE_TAPLIM, R.FC_INFO, R.FC_LAYOUT, R.FC_DLYCAP].any (fun r => keyOff k == r.off) ||
        (decide (0x10C ≤ keyOff k) && decide (keyOff k ≤ 0x118)))
      (cceReset d)
  | 6 => d.onTdm (fun _ => .reset)
  | 7 => attsRun false ((List.range 16).filter (fun a => d.fb (F.SRC_CFG_VALID.at a) && d.f (F.SRC_CFG_TYPE.at a) == 2)) (d.onNet (fun _ => .reset))
  | 8 => d.onTu (fun t => { t with ti := (TimeUnit.resetAt d.now).ti, mc := [], tp := [], tc := [] })
  | 9 => d.onTu (fun t => { t with rc := [], ri := [] })
  | 10 => aiReset d
  | 11 => aoReset d
  | 12 => d.onTw (fun _ => .reset)
  | 13 => keep (fun k => keyOff k == 0x200 || keyOff k == 0x204 || keyOff k == 0x20C || decide (0x250 ≤ keyOff k))
      (d.onMs (fun x => { Msys.reset with bad := x.bad, zeroing := x.zeroing }))
  | 14 => d.onHi (fun h => { h with mb := [], locks := [], held := [], lost := [] })
  | 15 => keep (fun k => [R.HIF_PCI_ID, R.GPIO_IN, R.STATUS_HIF].any (fun r => k == r.key))
      (d.onHi (fun h => { h with fifo := [], qs := none, i2cPtr := 0 }))
  | _ => d

/-- Block resets whose block has come; of blocks 2 to 5 outside Shunt, they make it late (R455). -/
def blkResets (b : Nat) (d : Dev) : Dev :=
  let now := d.md.blkrst.filter (fun e => decide (e.2 ≤ b))
  let late := !d.inMode mShunt && now.any (fun e => decide (2 ≤ e.1) && decide (e.1 ≤ 5))
  let d := now.foldl (fun d e => blkReset e.1 d) d
  d.onMd (fun m => { m with blkrst := m.blkrst.filter (fun e => decide (b < e.2)), forced := if late then some b else m.forced })

/-- A write of SYS_BLKRST: bits 2 to 5 are ignored while the twin is enabled outside Shunt and Inspection (R455). -/
def sysBlkrst (v : Word) (d : Dev) : Dev :=
  let held := d.fb F.TWN_CFG_EN && !d.inMode mShunt && !d.inMode mInspection
  let asked := ((List.range 14).map (· + 2)).filter (fun n => bit v n)
  let cut := held && asked.any (fun n => decide (n ≤ 5))
  let go := asked.filter (fun n => !held || decide (6 ≤ n))
  (d.onMd (fun m => { m with blkrst := m.blkrst ++ go.map (fun n => (n, d.effBlk)) })).when cut reqIgn

/-! ### Meanings -/

def execRailStepEnd (s : State) : Out := okAll s railStep
def execPowerOnReset (strap : Bool) (s : State) : Out := okAll s (powerOn strap)
def execResetN (s : State) : Out := okAll s pinReset
def execSysRst (m : Agent) (v : Word) (s : State) : Out := okAllBy m R.SYS_RST.addr v s (sysRst v)
def execSysBlkrst (m : Agent) (v : Word) (s : State) : Out := okBy m R.SYS_BLKRST.addr v s (sysBlkrst v)
def execRailUndervoltage (s : State) : Out := okAll s (fun w => w.when (!w.dev.dark) railDip)

end Sys2Proof.Machine
end

