-- ==== Sys2Proof/Machine/Crypto.lean ====
section
/-!
DEFINITION. The checks of consists and unlocks: CRC-32C (15_consist_boot.md R427), SHA-256 and ECDSA P-256 (R415, R427;
17_security_debug.md R472). The spec names the two standards; their algorithms are PRESUMED from FIPS 180-4 and FIPS 186-4.
Marks (notes/assumptions): PRESUMED 26.
-/
namespace Sys2Proof.Machine

/-! ### CRC-32C -/

def crc32cBit (c : Nat) : Nat := if c % 2 = 1 then (c / 2) ^^^ 0x82F63B78 else c / 2

/-- CRC-32C: reflected, initial value and final XOR 0xFFFF_FFFF (R427). -/
def crc32c (bs : List Byte) : Word :=
  w32 ((bs.foldl (fun c b => (List.range 8).foldl (fun c _ => crc32cBit c) (c ^^^ b.toNat)) 0xFFFFFFFF) ^^^ 0xFFFFFFFF)

/-- The bytes of words, each with its lowest byte first. -/
def leBytes (ws : List Word) : List Byte := ws.flatMap (fun w => (List.range 4).map (byteOf w.toNat))

/-- The bytes of words, each with its highest byte first. -/
def beWords (ws : List Word) : List Byte := ws.flatMap (fun w => (List.range 4).map (fun i => byteOf w.toNat (3 - i)))

/-! ### SHA-256 -/

def shaK : List Word :=
  [0x428A2F98#32, 0x71374491#32, 0xB5C0FBCF#32, 0xE9B5DBA5#32] ++ [0x3956C25B#32, 0x59F111F1#32, 0x923F82A4#32, 0xAB1C5ED5#32] ++
  [0xD807AA98#32, 0x12835B01#32, 0x243185BE#32, 0x550C7DC3#32] ++ [0x72BE5D74#32, 0x80DEB1FE#32, 0x9BDC06A7#32, 0xC19BF174#32] ++
  [0xE49B69C1#32, 0xEFBE4786#32, 0x0FC19DC6#32, 0x240CA1CC#32] ++ [0x2DE92C6F#32, 0x4A7484AA#32, 0x5CB0A9DC#32, 0x76F988DA#32] ++
  [0x983E5152#32, 0xA831C66D#32, 0xB00327C8#32, 0xBF597FC7#32] ++ [0xC6E00BF3#32, 0xD5A79147#32, 0x06CA6351#32, 0x14292967#32] ++
  [0x27B70A85#32, 0x2E1B2138#32, 0x4D2C6DFC#32, 0x53380D13#32] ++ [0x650A7354#32, 0x766A0ABB#32, 0x81C2C92E#32, 0x92722C85#32] ++
  [0xA2BFE8A1#32, 0xA81A664B#32, 0xC24B8B70#32, 0xC76C51A3#32] ++ [0xD192E819#32, 0xD6990624#32, 0xF40E3585#32, 0x106AA070#32] ++
  [0x19A4C116#32, 0x1E376C08#32, 0x2748774C#32, 0x34B0BCB5#32] ++ [0x391C0CB3#32, 0x4ED8AA4A#32, 0x5B9CCA4F#32, 0x682E6FF3#32] ++
  [0x748F82EE#32, 0x78A5636F#32, 0x84C87814#32, 0x8CC70208#32] ++ [0x90BEFFFA#32, 0xA4506CEB#32, 0xBEF9A3F7#32, 0xC67178F2#32]

def shaInit : List Word :=
  [0x6A09E667#32, 0xBB67AE85#32, 0x3C6EF372#32, 0xA54FF53A#32, 0x510E527F#32, 0x9B05688C#32, 0x1F83D9AB#32, 0x5BE0CD19#32]

def nth (l : List Word) (k : Nat) : Word := (l[k]?).getD 0#32

/-- The message schedule, latest word first. -/
def shaSched (ws : List Word) : List Word :=
  (List.range 48).foldl (fun l _ =>
    let a := nth l 14
    let b := nth l 1
    let s0 := a.rotateRight 7 ^^^ a.rotateRight 18 ^^^ (a >>> 3)
    let s1 := b.rotateRight 17 ^^^ b.rotateRight 19 ^^^ (b >>> 10)
    (nth l 15 + s0 + nth l 6 + s1) :: l) ws.reverse

def shaRound (h : List Word) (kw : Word × Word) : List Word :=
  let a := nth h 0
  let e := nth h 4
  let s1 := e.rotateRight 6 ^^^ e.rotateRight 11 ^^^ e.rotateRight 25
  let ch := (e &&& nth h 5) ^^^ (~~~e &&& nth h 6)
  let t1 := nth h 7 + s1 + ch + kw.1 + kw.2
  let s0 := a.rotateRight 2 ^^^ a.rotateRight 13 ^^^ a.rotateRight 22
  let maj := (a &&& nth h 1) ^^^ (a &&& nth h 2) ^^^ (nth h 1 &&& nth h 2)
  [t1 + s0 + maj, a, nth h 1, nth h 2, nth h 3 + t1, e, nth h 5, nth h 6]

def shaBlock (h ws : List Word) : List Word :=
  let r := (shaK.zip (shaSched ws).reverse).foldl shaRound h
  (h.zip r).map (fun p => p.1 + p.2)

def shaPad (bs : List Byte) : List Byte :=
  bs ++ [0x80#8] ++ List.replicate ((119 - bs.length % 64) % 64) 0#8 ++ beBytes 8 (8 * bs.length)

/-- The 64-byte blocks of a padded message. -/
def blocks64 (bs : List Byte) : (fuel : Nat) → List (List Byte)
  | 0 => []
  | n + 1 => bs.take 64 :: blocks64 (bs.drop 64) n

def sha256 (bs : List Byte) : List Byte :=
  let m := shaPad bs
  beWords ((blocks64 m (m.length / 64)).foldl (fun h b =>
    shaBlock h ((List.range 16).map (fun i => w32 (be b (4 * i) 4)))) shaInit)

/-! ### ECDSA P-256 -/

def p256 : Nat := 0xFFFFFFFF00000001000000000000000000000000FFFFFFFFFFFFFFFFFFFFFFFF
def n256 : Nat := 0xFFFFFFFF00000000FFFFFFFFFFFFFFFFBCE6FAADA7179E84F3B9CAC2FC632551
def b256 : Nat := 0x5AC635D8AA3A93E7B3EBBD55769886BC651D06B0CC53B0F63BCE3C3E27D2604B
def gx256 : Nat := 0x6B17D1F2E12C4247F8BCE6E563A440F277037D812DEB33A0F4A13945D898C296
def gy256 : Nat := 0x4FE342E2FE1A7F9B8EE7EB4A7C0F9E162BCE33576B315ECECBB6406837BF51F5

def topBits (k : Nat) : List Bool := (List.range 256).map (fun i => (k >>> (255 - i)) % 2 == 1)

def modPow (m b k : Nat) : Nat := (topBits k).foldl (fun a t => let s := a * a % m; if t then s * b % m else s) 1

/-- A point in Jacobian coordinates; `z = 0` is the point at infinity. -/
structure JPoint where
  x : Nat
  y : Nat
  z : Nat
  deriving DecidableEq, Repr

def subP (a b : Nat) : Nat := (a + p256 - b % p256) % p256

def JPoint.dbl (q : JPoint) : JPoint :=
  let d := q.z * q.z % p256
  let g := q.y * q.y % p256
  let b := q.x * g % p256
  let a := 3 * subP q.x d * (q.x + d) % p256
  let x := subP (a * a % p256) (8 * b)
  ⟨x, subP (a * subP (4 * b) x % p256) (8 * g * g), 2 * q.y * q.z % p256⟩

def JPoint.add (a b : JPoint) : JPoint :=
  if a.z = 0 then b
  else if b.z = 0 then a
  else
    let za := a.z * a.z % p256
    let zb := b.z * b.z % p256
    let u := a.x * zb % p256
    let s := a.y * zb * b.z % p256
    let h := subP (b.x * za % p256) u
    let r := subP (b.y * za * a.z % p256) s
    if h = 0 then if r = 0 then a.dbl else ⟨1, 1, 0⟩
    else
      let hh := h * h % p256
      let v := u * hh % p256
      let x := subP (r * r % p256) (h * hh + 2 * v)
      ⟨x, subP (r * subP v x % p256) (s * h * hh), a.z * b.z * h % p256⟩

def JPoint.mul (k : Nat) (q : JPoint) : JPoint :=
  (topBits k).foldl (fun a t => let d := a.dbl; if t then d.add q else d) ⟨1, 1, 0⟩

/-- Is `(r, s)` a signature over the hash `e` by the key `(x, y)`? -/
def ecdsaOk (x y r s e : Nat) : Bool :=
  let on := decide (x < p256) && decide (y < p256) && y * y % p256 == (x * x * x + (p256 - 3) * x + b256) % p256
  let w := modPow n256 s (n256 - 2)
  let q := (JPoint.mul (e * w % n256) ⟨gx256, gy256, 1⟩).add (JPoint.mul (r * w % n256) ⟨x, y, 1⟩)
  on && decide (0 < r) && decide (r < n256) && decide (0 < s) && decide (s < n256) && q.z != 0 &&
    q.x * modPow p256 (q.z * q.z % p256) (p256 - 2) % p256 % n256 == r

/-- A big-endian number. -/
def beNat (bs : List Byte) : Nat := be bs 0 bs.length

/-- A signature `r || s` over the bytes `m` by the key `X || Y`. -/
def signed (x y r s m : List Byte) : Bool := ecdsaOk (beNat x) (beNat y) (beNat r) (beNat s) (beNat (sha256 m))

end Sys2Proof.Machine
end

