-- ==== Sys2Proof/Machine/Route.lean ====
section
/-!
DEFINITION. The routing stage: destinations, narrowing, dither, the output cut-off and its checksum (04_correction.md R131, R132;
01_architecture.md R28, R31; 12_twin.md R351).
Marks (notes/assumptions): DESIGN CHOICE 24; DEDUCED 41.
-/
namespace Sys2Proof.Machine

/-- One step of the generator, polynomial x^64 + x^63 + x^61 + x^60 + 1 (R132). -/
def ditherStep (s : Nat) : Nat :=
  if Config.ditherGalois then (s / 2) ^^^ (if s % 2 = 1 then 0xD800000000000000 else 0)
  else s * 2 % 2 ^ 64 + ((s >>> 63) ^^^ (s >>> 62) ^^^ (s >>> 60) ^^^ (s >>> 59)) % 2

/-- An output: 16 steps, then 16 bits. -/
def dither16 (s : Nat) : Nat × Nat :=
  let s := (List.range 16).foldl (fun s _ => ditherStep s) s
  (Config.ditherOut s % 2 ^ 16, s)

/-- Narrowing to the upper `w` bits of a sample, toward minus infinity (R131). -/
def narrowTo (w : Nat) (x : Word) : Word := w32 (x.toNat - x.toNat % 2 ^ (32 - w))

/-- A sample dithered, saturated and narrowed to `w` bits, whether it saturated, and the generator's state (R132). -/
def dithered (w : Nat) (x : Word) (s : Nat) : Word × Bool × Nat :=
  let r1 := dither16 s
  let r2 := dither16 r1.2
  let q : Nat := 2 ^ (32 - w)
  let v := wInt x + (((r1.1 + r2.1) * q / 2 ^ 16 : Nat) : Int) - (q : Int)
  (narrowTo w (wOfInt (sat 32 v)), !fits 32 v, r2.2)

/-- The queue of a destination word. -/
def destQ (w : Word) : Nat :=
  let p := bits w 16 7
  match bits w 24 3 with
  | 0 => 272 + p
  | 1 => 290 + p
  | 2 => 128 + p
  | _ => 293

/-- The word length of a destination. -/
def Dev.destWidth (d : Dev) (w : Word) : Nat :=
  let p := bits w 16 7
  match bits w 24 3 with
  | 0 => d.width p
  | 1 => 24
  | 2 => 8 * sampleBytes (d.sf F.ST_CFG_FMT (128 + p))
  | _ => 32

/-- What the routing stage has written: samples by queue and channel, the generator's state, and by feed the samples that stage 8 alone
saturated and whether it saturated any (R109). -/
structure Routed where
  out : Tbl (Tbl (List Word))
  dith : Nat
  clips : List (Nat × Nat)
  deriving DecidableEq, Repr

/-- Samples to channel of the destination word `w`. -/
def Routed.put (r : Routed) (w : Word) (ys : List Word) : Routed :=
  { r with out := Tbl.put r.out (destQ w) (Tbl.put (Tbl.getD r.out (destQ w) []) (bits w 0 8) ys) }

/-- The samples `xs` to the destination of `w`; `hit` marks the samples that stage 8 has saturated so far. The generator serves a silenced
feed's destinations too, and what they carry is exactly 0 (R138). -/
def routeTo (d : Dev) (silent : Bool) (xs : List Word) (w : Word) (a : Routed × List Bool) : Routed × List Bool :=
  let n := d.destWidth w
  if bit w 30 && decide (n < 32) then
    let (ys, hs, s) := xs.foldl (fun (a : List Word × List Bool × Nat) x =>
      let p := dithered n x a.2.2
      (a.1 ++ [p.1], a.2.1 ++ [p.2.1], p.2.2)) ([], [], a.1.dith)
    if silent then ({ a.1.put w (ys.map (fun _ => 0#32)) with dith := s }, a.2)
    else ({ a.1.put w ys with dith := s }, (a.2.zip hs).map (fun p => p.1 || p.2))
  else (a.1.put w (xs.map (narrowTo n)), a.2)

/-- The four destinations of a feed; a late feed delivers zeros (R31). -/
def routeFeed (d : Dev) (late : List Nat) (r : Routed) (o : Nat) : Routed :=
  let ys := Tbl.getD d.cce.done o []
  let xs := ys.map Prod.fst
  let (r, hit) := (List.range 4).foldl (fun (a : Routed × List Bool) k =>
    let w := d.rd ((R.FC_DEST.at k).of o)
    if !bit w 31 then a
    else if late.contains o then (a.1.put w (List.replicate 32 0#32), a.2)
    else routeTo d (d.cce.feed o).eccx xs w a) (r, List.replicate 32 false)
  if hit.any id then { r with clips := r.clips ++ [(o, ((hit.zip ys).filter (fun p => p.1 && !p.2.2)).length)] } else r

def routeBlock (d : Dev) (late : List Nat) : Routed :=
  (List.range d.crm.nout).foldl (routeFeed d late) ⟨[], d.cce.dith, []⟩

/-- An output queue. -/
def isTx (k : Nat) : Bool :=
  (decide (128 ≤ k) && decide (k < 256)) || (decide (272 ≤ k) && decide (k < 288)) || k == 290 || k == 291 || k == 293

/-- The checksum of a block: its samples in the order of queues and channels (R351). -/
def outCrc (r : Routed) : Word := crc32c (leBytes (r.out.flatMap (fun e => e.2.flatMap Prod.snd)))

/-- The late feeds of block `b` at its output cut-off (R31). -/
def Dev.lateFeeds (d : Dev) (b : Nat) : List Nat :=
  let good := d.cce.blk == some b && !d.cce.cut && d.md.forced != some b
  (List.range d.crm.nout).filter (fun o => !good || (Tbl.get? d.cce.done o).isNone)

/-- Block `b` is late: its event, its count, and the ramp its feeds make up for it with (R31). -/
def lateBlock (b : Nat) (late : List Nat) (d : Dev) : Dev :=
  let d := (d.bump R.LATE_COUNT).evt Ev.SYS_BLOCK_LATE
  let d := d.when (!d.fb F.LATE_FIRST_VALID) (fun d => d.wr R.LATE_FIRST (w32 (2 ^ 31 + b % 2 ^ 31)))
  late.foldl (fun d o => d.onFeed o (fun f => { f with late := true })) d

/-- The output cut-off of block `b`: the output queues take it (R28); a queue without a ticket takes it when one returns (R37). -/
def cutOff (b : Nat) (d : Dev) : Dev :=
  let late := d.lateFeeds b
  let r := routeBlock d late
  let ks := (d.q.acc.map Prod.fst).filter isTx
  let d := d.onQ (fun q => ks.foldl (fun q k => q.offer k ⟨b, Tbl.getD r.out k []⟩) (q.popAll 297))
  let d := r.clips.foldl (fun d e => clipReport e.1 e.2 d) (d.onCce (fun c => { c with dith := r.dith }))
  let d := d.onTw (fun t => { t with sums := ((b, outCrc r, !late.isEmpty) :: t.sums).take 80 })
  let d := d.onMd (fun m => { m with forced := if m.forced = some b then none else m.forced })
  d.when (!late.isEmpty) (lateBlock b late)

end Sys2Proof.Machine
end

