-- ==== Sys2Proof/Machine/TwinWire.lean ====
section
/-!
DEFINITION. Frames as they cross the Epham link: header, payload, CRC; the order in which they leave (12_twin.md R341 to R343), and the bytes
of a state chunk (R361).
Marks (notes/assumptions): DEDUCED 63; DESIGN CHOICE 64.
-/
namespace Sys2Proof

/-- The bytes of state whose layout the spec does not give, as a chunk carries them (12_twin.md R361). -/
opaque Config.stateBytes (p : Machine.StatePart) : List Byte

end Sys2Proof

namespace Sys2Proof.Machine

/-- TYPE of a frame (R342). -/
def TwinFrame.type : TwinFrame → Nat
  | .fault .. => 0x07
  | .mark .. => 0x09
  | .block .. => 0x01
  | .switch .. => 0x0A
  | .ack .. => 0x05
  | .chunk .. => 0x03
  | .crcPass .. => 0x04
  | .bulk .. => 0x02
  | .check .. => 0x0B
  | .health .. => 0x06
  | .hello .. => 0x08

/-- The place of a frame in the priority order of R342, 0 first. -/
def TwinFrame.prio : TwinFrame → Nat
  | .fault .. => 0
  | .mark .. => 1
  | .block .. => 2
  | .switch .. => 3
  | .ack .. => 4
  | .chunk .. => 5
  | .crcPass .. => 6
  | .bulk .. => 7
  | .check .. => 8
  | .health .. => 9
  | .hello .. => 10

/-- The frames that one event gives leave in the order of R342, those of one type in the order in which they were made. -/
def prioSort (fs : List TwinFrame) : List TwinFrame := (List.range 11).flatMap (fun k => fs.filter (fun f => f.prio == k))

/-- The frames made since the first `n` are put in order. -/
def twOrder (n : Nat) (d : Dev) : Dev := d.onTw (fun t => { t with tx := t.tx.take n ++ prioSort (t.tx.drop n) })

/-- The two words of a 64-bit number, the lower one first. -/
def w64 (n : Nat) : List Word := [w32 n, w32 (n / 2 ^ 32)]

/-- The word that opens a section: KIND and COUNT (R343). -/
def secWord (k n : Nat) : Word := w32 (Config.sectionKind k % 256 * 2 ^ 24 + n % 2 ^ 24)

/-- An update record: R48 with OBJ filled in, then its effective block. -/
def UpdRec.words (u : UpdRec) : List Word :=
  [u.rc.w0, u.rc.w1, u.rc.w2, u.rc.w3, u.rc.w4, u.rc.w5, u.rc.w6, u.rc.w7] ++ w64 u.eff

/-- A write record of 16 bytes. -/
def WriteRec.words (x : WriteRec) : List Word :=
  [w32 x.addr, Config.writeWho (x.addr / 2 ^ 32 % 256) x.agent.num, x.data, 0#32]

/-- The sections of a BLOCK frame, in the order of R343. -/
def BlockFrame.words (f : BlockFrame) : List Word :=
  (secWord 1 f.inputs.length :: f.inputs.flatMap (fun e => Config.sectionWords 1 [e.1, e.2.ch.length] ++ e.2.ch.flatMap (fun c => c.2))) ++
  (secWord 2 f.updates.length :: f.updates.flatMap UpdRec.words) ++
  (secWord 3 f.writes.length :: f.writes.flatMap WriteRec.words) ++
  (secWord 4 1 :: w64 f.dither) ++
  (secWord 5 1 :: Config.sectionWords 5 [f.crc.toNat, b2n f.late]) ++
  (match f.mode with
    | none => [secWord 6 0]
    | some (.halt t) => secWord 6 1 :: Config.sectionWords 6 [0, t]
    | some (.resume b t) => secWord 6 1 :: Config.sectionWords 6 [1, b, t])

def Loader.code : Loader → Nat
  | .node => 0
  | .fir => 1
  | .graph => 2

/-- The bytes of a chunk (R361): samples, taps and windows as they are; of other state the spec does not give the layout. -/
def StatePart.bytes (p : StatePart) : List Byte :=
  match p with
  | .line _ _ ws => leBytes ws
  | .words _ _ _ ws => leBytes ws
  | .window _ bs => bs
  | _ => Config.stateBytes p

/-- CRC-32C of a chunk (R361). -/
def StatePart.crc (p : StatePart) : Word := crc32c p.bytes

/-- The payload of a frame (R342). -/
def TwinFrame.payload (f : TwinFrame) : List Word :=
  match f with
  | .fault c i => Config.framePayload 0x07 [c, i]
  | .mark b => w64 b
  | .block x => x.words
  | .switch b => Config.framePayload 0x0A [b]
  | .ack n l ws => Config.framePayload 0x05 ([n, (l.map (fun x => x.code + 1)).getD 0] ++ ws.flatMap (fun w => [w.1, w.2]))
  | .chunk x => Config.framePayload 0x03 ([x.no, x.total, x.blk] ++ x.part.bytes.map (fun b => b.toNat))
  | .crcPass x => Config.framePayload 0x04 ([x.blk, x.first, b2n x.last] ++ x.crcs.map (fun c => c.toNat))
  | .bulk x => Config.framePayload 0x02 ([x.cmd.loader.code, x.cmd.addr, x.cmd.count, x.cmd.feed, b2n x.stop] ++ x.bytes.map (fun b => b.toNat))
  | .check b c l => w64 b ++ [c, w32 (b2n l)]
  | .health ws => ws
  | .hello h => Config.framePayload 0x08 ([h.caps.toNat, h.check.toNat, h.fs, b2n h.side, h.st] ++ h.brevs)

/-- The block that a frame concerns. -/
def TwinFrame.blk (f : TwinFrame) (seq : Word) : Nat :=
  match f with
  | .mark b => b
  | .block x => x.blk
  | .switch b => b
  | .chunk x => x.blk
  | .crcPass x => x.blk
  | .check b _ _ => b
  | .health ws => (ws.headD 0#32).toNat
  | f => Config.frameBlk f.type seq

/-- The header (R341): MAGIC, TYPE and FLAGS 0; LEN; BLK; SEQ. -/
def TwinFrame.header (f : TwinFrame) (seq : Word) : List Word :=
  [w32 (0xE9A1 * 2 ^ 16 + f.type * 2 ^ 8), w32 (4 * f.payload.length % 2 ^ 24), w32 (f.blk seq), seq]

/-- A frame as it crosses the link: header, payload, CRC-32C over both (R341). -/
def TwinFrame.wire (f : TwinFrame) (seq : Word) : List Byte :=
  let bs := leBytes (f.header seq ++ f.payload)
  bs ++ leBytes [crc32c bs]

/-- The frames sent since the latest departure, as they cross the link with their SEQ. -/
def Twin.wires (t : Twin) : List (List Byte) :=
  t.tx.zipIdx.map (fun e => e.1.wire (t.seq - w32 t.tx.length + w32 e.2))

/-- Bytes of a BLOCK frame (R366: TWN_COPY_LAST): header, payload, CRC. -/
def BlockFrame.size (f : BlockFrame) : Nat := 4 * f.words.length + 20

end Sys2Proof.Machine
end

