-- ==== Sys2Proof/Machine/TwinParts.lean ====
section
/-!
DEFINITION. The rendering state in chunks (12_twin.md R361): how it divides, a chunk as it stands, and a chunk put in its place.
Marks (notes/assumptions): DESIGN CHOICE 64.
-/
namespace Sys2Proof.Machine

/-- Chunks of 1024 words, 4 KiB, that hold `n` words. -/
def pieces (n : Nat) : Nat := (n + 1023) / 1024

/-- Piece `p` of a list of samples or taps. -/
def pieceOf (ws : List Word) (p : Nat) : List Word := (ws.drop (1024 * p)).take 1024

/-- The list with piece `p` replaced; a piece that is not full ends it. -/
def piecePut (p : Nat) (new ws : List Word) : List Word :=
  if new = [] then ws.take (1024 * p)
  else ws.take (1024 * p) ++ List.replicate (1024 * p - ws.length) 0#32 ++ new ++ (if new.length < 1024 then [] else ws.drop (1024 * p + 1024))

/-- The lists of a feed that divide into pieces: its delay line, both banks' taps, and what the two paths keep for the FIR (04_correction.md
R113, R115, R124). -/
def Feed.list (f : Feed) (k : Nat) : List Word :=
  match k with
  | 0 => f.line
  | 1 => f.bankA.taps
  | 2 => f.bankB.taps
  | 3 => f.path.hist
  | _ => f.old.hist

def Feed.setList (f : Feed) (k : Nat) (ws : List Word) : Feed :=
  match k with
  | 0 => { f with line := ws }
  | 1 => { f with bankA := { f.bankA with taps := ws } }
  | 2 => { f with bankB := { f.bankB with taps := ws } }
  | 3 => { f with path := { f.path with hist := ws } }
  | _ => { f with old := { f.old with hist := ws } }

/-- The words that list `k` of feed `o` can hold, as the consist's layout of the feed gives them. -/
def Dev.listCap (d : Dev) (o k : Nat) : Nat :=
  let l := d.layoutOf o
  if k = 0 then (d.rd (R.FC_DLYCAP.of o)).toNat + 32 else if !l.on then 0 else if k ≤ 2 then l.cover else l.cover + 2048

/-- Feed `f` with the lists of `g`. -/
def Feed.withLists (f g : Feed) : Feed := (List.range 5).foldl (fun f k => f.setList k (g.list k)) f

/-- Registers of blocks 2 to 5. -/
def isRendReg (k : Nat) : Bool := decide (2 ≤ keyBlk k) && decide (keyBlk k ≤ 5)

/-- How the rendering state divides, in order: the number of chunks of each kind, and the chunks as they stand. -/
def partGroups (mem : Memory) (d : Dev) : List (Nat × (Nat → StatePart)) :=
  let c := d.crm
  [(4 * c.nout, fun g => .nodes g (c.nodes.filter (fun e => e.1 / 256 == g))),
   (3 * c.nin, fun k => .line (k / 3) (k % 3) (pieceOf (Tbl.getD c.lines (k / 3) []) (k % 3))),
   (1, fun _ => .crm { c with nodes := [], lines := [] })] ++
  (List.range c.nout).flatMap (fun o => (1, fun _ => .feed o ((d.cce.feed o).withLists .reset)) ::
    (List.range 5).map (fun k => (pieces (d.listCap o k), fun p => .words o k p (pieceOf ((d.cce.feed o).list k) p)))) ++
  [(1, fun _ => .cce { d.cce with feeds := [] }),
   (d.objCount, fun o => .obj o (d.gsv.obj o)),
   (1, fun _ => .gsv { d.gsv with objs := [] }),
   (1, fun _ => .sbox d.sb),
   (1, fun _ => .virif d.vf),
   (1, fun _ => .regs (d.regs.filter (fun e => isRendReg e.1))),
   (1, fun _ => .queues { Queues.reset with
      acc := d.q.acc.filter (fun e => decide (320 ≤ e.1)), slots := d.q.slots.filter (fun e => decide (320 ≤ e.1)) }),
   (80 * d.cap.engines, fun k =>
      let a := 0x40000000 + k / 80 * 2 ^ 20 + (if k % 80 < 16 then k % 80 * 4096 else 0x20000 + (k % 80 - 16) * 4096)
      .window a (Memory.rdBytes mem a 4096))] ++
  d.cs.windows.map (fun w => ((w.2 + 4095) / 4096, fun k =>
    .window (w.1 + 4096 * k) (Memory.rdBytes mem (w.1 + 4096 * k) (min 4096 (w.2 - 4096 * k)))))

/-- Chunks in the state (R366: TWN_XFER_TOTAL). -/
def twTotal (d : Dev) : Nat := (partGroups [] d).foldl (fun n g => n + g.1) 0

/-- Chunk `k` of the groups. -/
def partOf : List (Nat × (Nat → StatePart)) → (k : Nat) → Option StatePart
  | [], _ => none
  | g :: gs, k => if k < g.1 then some (g.2 k) else partOf gs (k - g.1)

/-- A chunk overwrites its part; the trace is not copied (06_signal_box.md R203). -/
def chunkPut (p : StatePart) (w : World) : World :=
  match p with
  | .nodes g ns => w.onDev (fun d => d.onCrm (fun c => { c with
      nodes := ns.foldl (fun t e => Tbl.put t e.1 e.2) (Tbl.drop c.nodes (fun k => k / 256 == g)) }))
  | .line i p ws => w.onDev (fun d => d.onCrm (fun c => { c with
      lines := Tbl.set c.lines [] i (piecePut p ws (Tbl.getD c.lines i [])) }))
  | .crm x => w.onDev (fun d => d.onCrm (fun c => { x with nodes := c.nodes, lines := c.lines }))
  | .words o k p ws => w.onDev (fun d => d.onFeed o (fun f => f.setList k (piecePut p ws (f.list k))))
  | .feed o x => w.onDev (fun d => d.onFeed o x.withLists)
  | .cce x => w.onDev (fun d => d.onCce (fun c => { x with feeds := c.feeds }))
  | .obj o x => w.onDev (fun d => d.onGsv (fun g => g.setObj o x))
  | .gsv x => w.onDev (fun d => d.onGsv (fun g => { x with objs := g.objs }))
  | .sbox x => w.onDev (fun d => d.onSb (fun s => { x with
      trace := s.trace, wptr := s.wptr, nrec := s.nrec, wrap := s.wrap, lostEvt := s.lostEvt }))
  | .virif x => w.onDev (fun d => { d with vf := x })
  | .regs x => w.onDev (fun d => { d with regs := RegFile.carry (fun k => isRendReg k && k != R.SB_TRC_LOST.key) x d.regs })
  | .queues x => w.onDev (fun d => d.onQ (fun q =>
      { q with acc := (x.acc.filter (fun e => decide (320 ≤ e.1))).foldl (fun t e => Tbl.set t .none e.1 e.2) q.acc,
               slots := (x.slots.filter (fun e => decide (320 ≤ e.1))).foldl (fun t e => Tbl.set t [] e.1 e.2) q.slots }))
  | .window a bs => { w with mem := Memory.wrBytes w.mem a bs }

/-- The first `n` chunks of the ranges, and the ranges that remain. -/
def wantsTake : (n : Nat) → List (Nat × Nat) → List Nat × List (Nat × Nat)
  | 0, ws => ([], ws)
  | _ + 1, [] => ([], [])
  | n + 1, (a, c) :: ws =>
    if c = 0 then wantsTake n ws
    else
      let r := wantsTake n (if c = 1 then ws else (a + 1, c - 1) :: ws)
      (a :: r.1, r.2)

end Sys2Proof.Machine
end

