-- ==== Sys2Proof/Machine/Arch.lean ====
section
/-!
DEFINITION. The departure, the ticket audit and the ticket steps (01_architecture.md R25 to R41; 16_modes_power.md R440 to R445;
12_twin.md R343, R344, R357).
Marks (notes/assumptions): DEDUCED 28, 63, 65, 77, 96, 97; DESIGN CHOICE 64.
-/
namespace Sys2Proof.Machine

/-! ### Ticket audit (R39 to R41) -/

/-- Is the audit enabled? While the twin is, EN reads 1 (R40). -/
def Dev.auditOn (d : Dev) : Bool := d.fb F.TKA_CTRL_EN || d.twinOn

/-- The capture at a departure; no return is outstanding then (R36). -/
def auditCapture (b : Nat) (d : Dev) : Dev :=
  d.when d.auditOn (fun d =>
    let d := d.onQ (fun q => let q := q.settle; { q with cap := q.acc, capBlk := b, audit := true })
    d.setB F.TKA_STATUS_BUSY true)

/-- Does H + F + S equal D (R35)? -/
def Ticket.balanced (t : Ticket) : Bool := t.h + t.f + t.s == t.d

/-- The owner's event of a queue (R39). -/
def auditEvt (q : Nat) : EvBit :=
  if q < 256 then Ev.NET_AUDIT
  else if q < 292 then Ev.TIO_AUDIT
  else if q = 292 then Ev.AI_AUDIT
  else if q = 293 then Ev.AO_AUDIT
  else if q = 296 then Ev.CRM_AUDIT
  else if q = 297 then Ev.CCE_AUDIT
  else if q = 298 ∨ q = 299 then Ev.HIF_DMA_AUDIT
  else if q = 300 then Ev.TWN_XFER_ERR
  else if 320 ≤ q then Ev.SB_QAUDIT
  else Ev.GSV_AUDIT

/-- The comparison, for every QID but 300; while EN is 0 none takes place (R40). -/
def auditCompare (d : Dev) : Dev :=
  d.when (d.q.audit && d.auditOn) (fun d =>
    let bad := (d.q.cap.filter (fun e => e.1 != 300 && !e.2.balanced)).map Prod.fst
    let b := d.q.capBlk
    let d := d.onQ (fun q => { q with audit := false })
    let d := (d.setB F.TKA_STATUS_BUSY false).setB F.TKA_STATUS_LAST_OK bad.isEmpty
    match bad with
    | [] => d
    | k :: _ =>
      let d := bad.foldl (fun d q => (d.setBit (R.TKA_FMAP.at (q / 32)) (q % 32)).evt (auditEvt q)) d
      let d := d.bumpF F.TKA_STATUS_FAIL_COUNT
      let d := d.when (!d.fb F.TKA_FIRST_VALID) (fun d => d.wr R.TKA_FIRST (w32 (2 ^ 31 + b % 2 ^ 22 * 2 ^ 9 + k)))
      twFault 3 (d.evt Ev.SYS_TKA_FAIL))

/-- A write of TKA_CTRL; while the twin is enabled EN reads 1 and a write of EN = 0 is ignored (R40, R41). -/
def tkaCtrl (v : Word) (d : Dev) : Dev :=
  let d := d.when (bit v 0 || !d.twinOn) (fun d => d.setB F.TKA_CTRL_EN (bit v 0))
  let d := d.onQ (fun q => { q with audit := q.audit && d.auditOn })
  d.when (bit v 1) (fun d => ((d.setF F.TKA_STATUS_FAIL_COUNT 0).clear [R.TKA_FIRST, R.LATE_COUNT, R.LATE_FIRST]))

/-! ### The departure (R25, R28) -/

/-- The input queues of R38. -/
def isRx (k : Nat) : Bool :=
  decide (k < 128) || (decide (256 ≤ k) && decide (k < 272)) || k == 288 || k == 289 || k == 292

/-- The input queues present block `b`: what each holds for it; a port or receiver that maps to an input and lacks it has an underrun
(07_tdm_ports.md R214). -/
def present (b : Nat) (d : Dev) : Tbl QSlot × Dev :=
  let ks := (d.q.acc.map Prod.fst).filter isRx
  ks.foldl (fun (a : Tbl QSlot × Dev) k =>
    let r := a.2.q.takeBlk k b
    let d : Dev := { a.2 with q := r.2 }
    match r.1 with
    | some s => (Tbl.put a.1 k s, d)
    | none =>
      let port := if k ≥ 288 then k - 272 else k - 256
      let mapped := d.crm.src.any (fun e => e.2.1 == k) && decide (256 ≤ k) && k != 292 && d.rxUse port
      (a.1, d.when mapped (rxUnderrun port))) ([], d)

/-- The units begin block `b` with the given input slots: the signal box, then the CRM and the CCE (R28; 06_signal_box.md R185); with no
valid graph nothing is rendered (06_signal_box.md R180). -/
def renderDep (b cyc : Nat) (ecc : List EccHit) (slots : Tbl QSlot) (d : Dev) : Dev :=
  let d := cceDeparture b (crmDeparture b ecc slots (sbDeparture b cyc d))
  if d.sb.curOk then d else cceDrain (crmDrain d)

/-- The ADC and output groups' queues exist while an interface of theirs is enabled (15_consist_boot.md R418). -/
def analogQueues (d : Dev) : Dev :=
  let set (k : Nat) (on : Bool) (d : Dev) : Dev := d.onQ (fun q => if on then q.create k 4 else q.remove k)
  d.when d.cap.analog (fun d =>
    set 293 ((List.range 12).any (fun c => d.fb (F.AO_CFG_EN.of c)))
      (set 292 ((List.range 8).any (fun n => d.fb (F.AI_CFG_EN.of n))) d))

/-! ### Twin operation at a departure -/

/-- Does block `b` wait for STANDBY_DEPARTURE: on a unit that renders from BLOCK frames (12_twin.md R344, R348), or after a takeover while
frames and departures of before remain (R355)? -/
def Dev.followsTwin (d : Dev) (b : Nat) : Bool :=
  d.twCopy || !d.tw.held.isEmpty || d.tw.frames.any (fun f => f.blk == b) || d.tw.last.isSome

/-- Does the output cut-off of this unit follow its departures? While SYNCING only from CONFIRM on (R361). -/
def Dev.cutsOff (d : Dev) : Bool := d.twSt != twSyncing || d.f F.STATUS_TWN_PHASE == 4

/-- The checksum and the LATE flag of the block before `b` (R343); one that the unit does not hold counts as late. -/
def Dev.sumBefore (d : Dev) (b : Nat) : Word × Bool :=
  match d.tw.sums.find? (fun e => e.1 + 1 == b) with
  | some e => e.2
  | none => (0#32, true)

/-- The input slots that BLOCK frame `b` carries: of every queue that the consist maps (R343). A queue that presented no slot for `b` has one of
zeros, in as many channels as the consist maps (DESIGN CHOICE, log 64). -/
def twInputs (b : Nat) (slots : Tbl QSlot) (d : Dev) : Tbl QSlot :=
  d.crm.src.foldl (fun t e =>
    let s := Tbl.getD t e.2.1 ((Tbl.getD slots e.2.1 ⟨b, []⟩))
    Tbl.put t e.2.1 (if (Tbl.get? slots e.2.1).isSome then s
      else { s with ch := (List.range (e.2.2 + 1)).foldl (fun c j => Tbl.put c j (List.replicate 32 0#32)) s.ch })) []

/-- BLOCK frame `b` with the updates, writes and mode request that took effect on it (R343). -/
def twFrame (b : Nat) (inputs : Tbl QSlot) (d : Dev) : BlockFrame :=
  let t := d.tw
  ⟨true, b, inputs, t.ulog, t.wlog, d.cce.dith, (d.sumBefore b).1, (d.sumBefore b).2, t.mlog⟩

/-- A BLOCK frame leaves. -/
def twFrameSend (f : BlockFrame) (d : Dev) : Dev :=
  let d := twSend (.block f) (d.onTw (fun t => { t with ulog := [], wlog := [], mlog := none }))
  (d.wr R.TWN_COPY_LAST (w32 f.size)).peakF ⟨R.TWN_COPY_PEAK, 0, 32⟩ (f.size % 2 ^ 32)

/-- The roles exchange at block `s` of a manual switch (R357). What the former ACTIVE took after BLOCK frame `s - 1` goes to the new one in a last
frame, of block `s`, that carries no inputs, so that no write or update is lost (DEDUCED, log 65): the new ACTIVE awaits it. -/
def twHandover (b : Nat) (d : Dev) : Dev :=
  match d.tw.sw with
  | none => d
  | some s =>
    if b < s then d
    else
      let d := d.onTw (fun t => { t with sw := none })
      if d.twSt = twActive then
        (twClose s (twState twStandby (twFrameSend (twFrame s [] d) d))).onTw (fun t => { t with peer := twActive })
      else if d.twSt = twStandby then
        (twOpen s (twState twActive d)).onTw (fun t => { t with peer := twStandby, last := some s })
      else d

/-- BLOCK frame `b` (R343): sent after departure `b`, with SWITCH after the last one before a manual switch (R357). -/
def twBlockSend (b : Nat) (slots : Tbl QSlot) (d : Dev) : Dev :=
  d.when (d.twSt == twActive) (fun d =>
    let d := twFrameSend (twFrame b (twInputs b slots d) d) d
    d.when (d.tw.sw == some (b + 1)) (twSend (.switch (b + 1))))

/-- What the twin does after departure `b` of a unit that renders it at once. -/
def twDeparted (b : Nat) (slots : Tbl QSlot) (d : Dev) : Dev :=
  d.when (decide (twHello ≤ d.twSt)) (fun d => twBlockSend b slots (twSend (.mark b) d))

/-- In Halt the ACTIVE still sends a resume request (R343, R345). -/
def twHalted (b : Nat) (d : Dev) : Dev := d.when (d.tw.mlog.isSome && d.inMode mHalt) (twBlockSend b [])

/-- The chunks whose CRCs one CRCPASS frame carries (DESIGN CHOICE, log 64). -/
def crcBatch : Nat := 512

/-- What the ACTIVE sends of its state as it stands before block `b`, while its peer is SYNCING (R361, R362): the chunks that the peer lacks, on a
ticket of QID 300 each; when it lacks none, a CRCPASS frame (R363). -/
def twCapture (b : Nat) (mem : Memory) (d : Dev) : List TwinFrame × List (Nat × Nat) × Nat :=
  let gs := partGroups mem d
  let total := twTotal d
  let r := wantsTake (d.q.get 300).h d.tw.wants
  let chunks := r.1.filterMap (fun k => (partOf gs k).map (fun p => TwinFrame.chunk ⟨true, k, total, b, p⟩))
  if d.tw.wants ≠ [] then (chunks, r.2, d.tw.crcAt)
  else
    let n := min crcBatch (total - d.tw.crcAt)
    let last := decide (total ≤ d.tw.crcAt + n)
    let crcs := ((List.range n).filterMap (fun i => partOf gs (d.tw.crcAt + i))).map StatePart.crc
    ([.crcPass ⟨true, b, d.tw.crcAt, crcs, last⟩], [], if last then 0 else d.tw.crcAt + n)

/-- The frames of `twCapture` leave. -/
def twChunkSend (r : List TwinFrame × List (Nat × Nat) × Nat) (d : Dev) : Dev :=
  d.when (d.twSt == twActive && d.tw.peer == twSyncing) (fun d =>
    let d := d.onTw (fun t => { t with wants := r.2.1, crcAt := r.2.2 })
    r.1.foldl (fun d f =>
      let d := match f with
        | .chunk _ => d.onQ (fun q => q.spend 300)
        | _ => d
      twSend f d) d)

/-- A STANDBY sends its own checksum after the output cut-off (R351). -/
def twCheckSend (d : Dev) : Dev :=
  d.when d.twCopy (fun d => match d.tw.sums with
    | e :: _ => twSend (.check e.1 e.2.1 e.2.2) d
    | [] => d)

/-! ### The boundary of block `b` -/

/-- What comes before the units begin block `b`: mode, audit capture, output cut-off of the block before, block resets, interfaces. -/
def beforeDep (b cyc : Nat) (d : Dev) : Dev :=
  let d := (List.range 18).foldl (flyBlock b) ((d.tick cyc).onTw (fun t => { t with tx := [] }))
  let prev := decide (0 < b) && d.live (b - 1)
  let d := modeBoundary b d
  let rel := d.renders
  let d := d.when rel (auditCapture b)
  let d := (tioDrain b d).when (prev && d.cutsOff) (fun d => twCheckSend (cutOff (b - 1) d))
  let d := d.wr64 R.CCE_DITH_LO R.CCE_DITH_HI d.cce.dith
  let d := twHandover b (blkResets b d)
  let streams := d.net.streams.map Prod.fst
  let d := streams.foldl (streamActs b) (streams.foldl (streamHand (b - 1) prev) (tioFlush rel (tioRequests b d)))
  let d := d.when rel (inNext b nbAudit)
  let d := aoTake (b - 1) prev (tioConsume (b - 1) prev d)
  let d := d.when rel (tioConvert b)
  let d := streams.foldl (fun d s => d.when (decide (s < 128)) (fun d => streamBlock b rel d s)) d
  analogQueues (aiBegin (b + 1) (aiDeliver b rel d))

/-- Block `b` departs, and with it interval `b + 1` begins (R25): the units begin the block, or, on a unit that follows its twin, it waits for its
BLOCK frame. -/
def depart (b cyc : Nat) (ecc : List EccHit) (mem : List Host.Cell) (d : Dev) : Dev :=
  let r := present b d
  let d := r.2.wr64 R.DEP_IDX_LO R.DEP_IDX_HI b
  let d := d.onMd (fun m => { m with run := match m.run with
    | some (fr, goal) => if goal + 1 = b then some (fr, b) else some (b, b)
    | none => some (b, b) })
  if d.followsTwin b then twSend (.mark b) (d.onTw (fun t => { t with held := t.held ++ [(b, r.1)] }))
  else twChunkSend (twCapture b mem d) (twDeparted b r.1 (renderDep b cyc ecc r.1 d))

/-- A block boundary of MCK0: departure `b`, or a boundary that is only counted. -/
def departure (cyc : Nat) (ecc : List EccHit) (mem : List Host.Cell) (d : Dev) : Dev :=
  let b := d.nextDep
  let d := beforeDep b cyc d
  let go := d.renders
  let d : Dev := { d with nextDep := b + 1 }
  let d := twOrder 0 (if go then depart b cyc ecc mem d else twHalted b d)
  drBlock (realignApply 0 (32 * (b + 1)) d)

/-! ### Meanings -/

def execDeparture (cyc : Nat) (ecc : List EccHit) (s : State) : Out := ok s (departure cyc ecc s.mem)
def execTicketAuditCompare (s : State) : Out := ok s auditCompare
def execQueueSlotFilled (q : Nat) (s : State) : Out := ok s (fun d => d.onQ (fun x => x.fill q))
def execTicketReturn (q : Nat) (s : State) : Out := ok s (fun d => d.onQ (fun x => x.back q))
def execTkaClr (m : Agent) (v : Word) (s : State) : Out := okBy m R.TKA_CTRL.addr v s (tkaCtrl v)

end Sys2Proof.Machine
end

