-- ==== Sys2Proof/Machine/Secure.lean ====
section
/-!
DEFINITION. Life-cycle, fuses, unlock and the debug port (17_security_debug.md R461 to R478; 18_variants_fuses.md R479 to R481),
and the two rows whose effects end in a reset of the main domain.
Marks (notes/assumptions): DEDUCED 80, 82; DESIGN CHOICE 85.
-/
namespace Sys2Proof.Machine

def Dev.onSe (d : Dev) (g : Secure → Secure) : Dev := { d with se := g d.se }
def Dev.lc (d : Dev) : Nat := d.f F.STATUS_SEC_LC
def lcOpen : Nat := 0
def lcDev : Nat := 1
def lcSealed : Nat := 2
def lcRetired : Nat := 3

/-- Agents 1 to 7: the hosts and the Station cores. -/
def hostOrCore (m : Agent) : Bool := decide (1 ≤ m.num) && decide (m.num ≤ 7)

/-- Every SRAM store is cleared by the mechanism of R370; what stands in DRAM stays. -/
def clearSram (mem : List Host.Cell) : List Host.Cell := Tbl.drop (α := Byte) mem (fun a => !inDram a)

/-- Life-cycle transitions and unlocks clear the stores, the units' own among them, with valid check bits, and the segments in use
(R463, R474). -/
def clearAll (w : World) : World :=
  let d := w.dev.onCrm (fun c => { c with nodes := [] })
  let d := d.onCce (fun c => { c with feeds := c.feeds.map (fun e => (e.1, { e.2 with bankA := .reset, bankB := .reset })) })
  let d := ((d.onGsv (fun g => { g with layout := .empty })).onHi (fun h => { h with tcm := [] })).onMs (fun x => { x with bad := [] })
  { w with mem := clearSram w.mem, dev := drSegSet 0 d }

/-! ### Life-cycle (R462, R463) -/

/-- Does the table of R462 allow the transition? -/
def lcAllowed (fr goal : Nat) (keyset : Bool) : Bool :=
  (goal == lcSealed && (fr == lcOpen || fr == lcDev) && keyset) || (goal == lcRetired && decide (fr < lcRetired))

/-- A write of SEC_LC_REQ; without the key it is no request. -/
def lcReq (m : Agent) (v : Word) (w : World) : World :=
  let d := w.dev
  let goal := bits v 0 2
  w.when (bits v 8 8 == 0xA5) (fun w =>
    if d.inMode mShunt && !d.trans && d.f F.CFG_STATUS_STATE == 0 && hostOrCore m && d.se.burn.isNone &&
        lcAllowed d.lc goal (d.fb F.STATUS_SEC_KEYSET) then
      let w := clearAll w
      { w with dev := w.dev.onSe (fun s => { s with burn := some goal }) }
    else w.onDev (·.evt Ev.SEC_LC_REFUSED))

/-- The burn of the target group ends (18_variants_fuses.md R480); where it was cut short, some bits are burned. A cold reset follows, and the
fail count starts afresh with the new state (R463; DEDUCED against R473, log 80). -/
def lcBurnDone (good : Bool) (w : World) : World :=
  match w.dev.se.burn with
  | none => w
  | some t =>
    let w := if good then
        coldReset 1 { w with fuses := Tbl.set w.fuses 0#32 (t - 1) 0xFFFFFFFF#32, dev := w.dev.onSe (fun s => { s with burn := none }) }
      else coldReset 1 w
    w.onDev (fun d => (d.setF F.SEC_FAIL_COUNT 0).setB F.STATUS_SEC_UNLOCK_DIS false)

/-! ### Fuses (R467; 18_variants_fuses.md R479, R481) -/

/-- A write of FUSE_PGM with GO. -/
def fusePgm (m : Agent) (v : Word) (d : Dev) : Dev :=
  let k := bits v 0 7
  d.when (bit v 31) (fun d =>
    if bits v 8 8 == 0xC3 && decide (d.lc ≤ lcDev) && d.inMode mShunt && hostOrCore m && decide (8 ≤ k) && decide (k < 16) &&
        d.se.pgm.isNone then
      (d.setB F.STATUS_SEC_PGM_BUSY true).onSe (fun s => { s with pgm := some (k, d.rd R.FUSE_PGM_DATA) })
    else d.evt Ev.SEC_PGM_ERR)

/-- A burn ends; a bad one has burned some of its bits only. -/
def pgmDone (good : Bool) (w : World) : World :=
  match w.dev.se.pgm with
  | none => w
  | some (k, v) =>
    let r := w.dev.fresh
    let d := if good then w.dev else r.2
    let z := Tbl.set w.fuses 0#32 k (fuse w.fuses k ||| (if good then v else v &&& r.1))
    let keyset := (List.range 8).any (fun i => fuse z (8 + i) ≠ 0#32)
    let d := (d.setB F.STATUS_SEC_PGM_BUSY false).setB F.STATUS_SEC_KEYSET keyset
    let d := (d.onSe (fun s => { s with pgm := none })).evt Ev.SEC_PGM_DONE
    { w with fuses := z, dev := d.when (fuse z k != fuse w.fuses k ||| v) (fun d => d.evt Ev.SEC_PGM_ERR) }

/-- FUSE_MASK of a word: the device secret is masked (R467). -/
def fuseMask (k : Nat) : Word := if 16 ≤ k ∧ k < 24 then 0xFFFFFFFF#32 else 0#32

/-- FUSE_DATA of a word. -/
def fuseData (z : Fuses) (k : Nat) : Word := fuse z k &&& ~~~(fuseMask k)

/-! ### Glitches (R468) -/

/-- Is a security step in progress: the boot ROM's fuse read, a load past its FIRMWARE car, a burn, an unlock? -/
def Dev.secStep (d : Dev) : Bool :=
  d.md.boot || d.se.pgm.isSome || d.se.burn.isSome || d.se.attempt.isSome ||
    (match d.ld with | some l => decide (2 ≤ l.cars.length) | none => false)

def monitorTrip (w : World) : World :=
  w.when (!w.dev.dark) (fun w => if w.dev.secStep then coldReset 3 w else w.onDev (·.evt Ev.SEC_GLITCH))

/-! ### Challenges and unlocks (R471 to R474) -/

/-- The seven challenge words: the nonce, the device identity, LC with the fail count. -/
def Dev.challenge (d : Dev) (nonce : List Byte) : List Word :=
  ((wordsOf nonce ++ List.replicate 4 0#32).take 4) ++
    [d.rd R.SEC_DEVID_LO, d.rd R.SEC_DEVID_HI, w32 (d.lc + d.f F.SEC_FAIL_COUNT * 2 ^ 8)]

/-- A challenge is issued: its unlock message stands until it is used. -/
def issueNonce (nonce : List Byte) (d : Dev) : Dev :=
  d.onSe (fun s => { s with nonce := some (leBytes (d.challenge nonce) ++ List.replicate 4 0#8) })

def attach (d : Dev) : Dev :=
  d.when (!d.fb F.STATUS_SEC_ATTACH) (fun d => (d.setB F.STATUS_SEC_ATTACH true).evt Ev.SEC_ATTACH)

/-- What becomes of an unlock attempt as it is submitted: a status of R405, or none while it is verified (R472, R473, R476). -/
def submit (a : Attempt) (d : Dev) : Option Nat × Dev :=
  let used := d.onSe (fun s => { s with nonce := none })
  if d.fb F.STATUS_SEC_UNLOCK_DIS ∨ d.lc = lcRetired then (some 7, used)
  else if d.trans then (some 4, used)
  else if d.lc = lcDev then (some 0, attach used)
  else if !(d.inMode mShunt || d.inMode mInspection) then (some 4, used)
  else if d.se.attempt.isSome then (some 3, used)
  else (none, used.onSe (fun s => { s with attempt := some { a with msg := d.se.nonce } }))

/-- Does an attempt pass (R472)? -/
def passes (z : Fuses) (a : Attempt) : Bool :=
  match a.msg with
  | none => false
  | some m =>
    let hash := if a.key then Config.returnKeyHash else leBytes ((List.range 8).map (fun i => fuse z (8 + i)))
    (sha256 (a.x ++ a.y) == hash) && signed a.x a.y a.r a.s m

/-- A failed attempt (R473). -/
def unlockFail (d : Dev) : Dev :=
  let n := min 8 (d.f F.SEC_FAIL_COUNT + 1)
  let d := (d.setF F.SEC_FAIL_COUNT n).evt Ev.SEC_UNLOCK_FAIL
  d.when (n == 8) (fun d => d.setB F.STATUS_SEC_UNLOCK_DIS true)

/-- The unlock reset (R474), up to the boot that enters Inspection; the PCIe link is kept. -/
def unlockReset (reply : Option (Nat × Nat)) (w : World) : World :=
  let link := w.dev.rd R.STATUS_HIF
  let space := w.dev.msix
  let w := warmReset (clearAll w)
  w.onDev (fun d => ({ d with msix := space }.wr R.STATUS_HIF link).onMd (fun m => { m with insp := true, reply := reply }))

/-- A verification ends. -/
def unlockVerified (w : World) : World :=
  match w.dev.se.attempt with
  | none => w
  | some a =>
    let w := w.onDev (fun d => d.onSe (fun s => { s with attempt := none }))
    if passes w.fuses a then unlockReset a.reply w
    else w.onDev (fun d =>
      let d := unlockFail d
      match a.reply with
      | some (h, tag) => fwReply h tag 7 0x0081 [] d
      | none => d)

/-- The part leaves Inspection for Shunt (R470, R476). -/
def leaveInsp (d : Dev) : Dev := d.when (d.inMode mInspection) (modeReq (w32 mShunt))

/-- A write of SEC_DBG.RELOCK. -/
def relock (v : Word) (d : Dev) : Dev :=
  d.when (bit v 0 && d.fb F.STATUS_SEC_UNLOCKED) (fun d =>
    let d := d.setB F.STATUS_SEC_UNLOCKED false
    d.when (d.lc == lcSealed) leaveInsp)

/-! ### The debug access port (R469, R470) -/

/-- The attach ends. -/
def detach (d : Dev) : Dev := d.when (d.fb F.STATUS_SEC_ATTACH) (fun d => leaveInsp (d.setB F.STATUS_SEC_ATTACH false))

/-- An instruction: its code in the instruction register and what its data register captures. -/
def tapSet (code dr : Nat) (d : Dev) : Dev := d.onSe (fun s => { s with ir := code, dr := dr, drive := false })

/-- The instruction acts as BYPASS. -/
def tapBypass (d : Dev) : Dev := tapSet 0xFF 0 d

/-- A TAP instruction that Siding does not answer. -/
def tapOn (g : Dev → Dev) (d : Dev) : Dev := d.when (!d.dark) (fun d => if d.inMode mSiding then tapBypass d else g d)

def tapReset (d : Dev) : Dev := (detach (tapClear d)).onSe (fun s => { s with ir := 1 })

def tapIdcode (d : Dev) : Dev :=
  d.when (!d.dark) (tapSet 0x01 (Config.dieLetter % 16 * 2 ^ 28 + 0xFF09 * 2 ^ 12 + 0x7FF * 2 + 1))

/-- Boundary scan: `pins` is the chain after the scan. -/
def tapSample (pins : List Bool) (d : Dev) : Dev :=
  if d.level = 0 then tapBypass d else (tapSet 0x02 0 d).onSe (fun s => { s with chain := pins })

/-- EXTEST: in Inspection alone; the pins are driven at level 3, and on a RETIRED part (R475, R476). -/
def tapExtest (pins : List Bool) (d : Dev) : Dev :=
  if d.level = 0 ∨ !d.inMode mInspection then tapBypass d
  else (tapSet 0x03 0 d).onSe (fun s => { s with chain := pins, drive := d.level == 3 || d.lc == lcRetired })

/-- A number from words, the first word lowest. -/
def wordsNat (ws : List Word) : Nat := ws.reverse.foldl (fun n w => n * 2 ^ 32 + w.toNat) 0

def tapChal (nonce : List Byte) (d : Dev) : Dev := tapSet 0x11 (wordsNat (d.challenge nonce)) (issueNonce nonce d)

def tapResp (v : Nat) (d : Dev) : Dev := (tapSet 0x12 0 d).onSe (fun s => { s with resp := v % 2 ^ 1032 })

/-- What a capture of DBG_CTRL reports. -/
def Dev.dbgCtrl (d : Dev) : Nat :=
  d.level * 2 ^ 8 + d.lc * 2 ^ 12 + b2n (d.fb F.STATUS_SEC_UNLOCKED) * 2 ^ 14 + d.f F.SEC_FAIL_COUNT * 2 ^ 16

def tapCtrl (g : Dev → Dev) (d : Dev) : Dev := g (tapSet 0x10 d.dbgCtrl d)

/-- REQ: an attach, held in Siding (R476). -/
def dbgAttach (d : Dev) : Dev :=
  d.when (!d.dark) (fun d => if d.inMode mSiding then d.onSe (fun s => { s with heldAttach := true }) else tapCtrl attach d)

/-- INSP: granted to an attached debugger where R476 says so, held in Siding. -/
def dbgInsp (d : Dev) : Dev :=
  d.when (!d.dark) (fun d =>
    if d.inMode mSiding then d.onSe (fun s => { s with heldInsp := true })
    else tapCtrl (fun d => if d.fb F.STATUS_SEC_ATTACH then modeReq (w32 mInspection) d else reqIgn d) d)

def dbgRelease (d : Dev) : Dev :=
  d.when (!d.dark) (fun d =>
    if d.inMode mSiding then d.onSe (fun s => { s with heldAttach := false, heldInsp := false }) else tapCtrl detach d)

/-- Bytes `k` to `k + 31` of the unlock response, after its first byte. -/
def respBytes (v k : Nat) : List Byte := (List.range 32).map (fun i => byteOf v (1 + k + i))

/-- SUBMIT: DBG_RESP as an unlock attempt; in Siding a DEV part holds it as an attach (R476). -/
def dbgSubmit (d : Dev) : Dev :=
  let v := d.se.resp
  let a : Attempt := ⟨v % 2 == 1, respBytes v 0, respBytes v 32, respBytes v 64, respBytes v 96, none, none⟩
  d.when (!d.dark) (fun d =>
    if d.inMode mSiding then d.when (d.lc == lcDev) (fun d => d.onSe (fun s => { s with heldAttach := true }))
    else tapCtrl (fun d => (submit a d).2) d)

/-- After the wake, the requests held in Siding act. -/
def heldDebug (d : Dev) : Dev :=
  let s := d.se
  let d := d.onSe (fun s => { s with heldAttach := false, heldInsp := false })
  (d.when s.heldAttach attach).when s.heldInsp dbgInsp

/-! ### Registers (R478) -/

def Dev.fuseSel (d : Dev) (m : Agent) : Nat := Reg.idx d R.FUSE_SEL m

def secRead (m : Agent) (off : Nat) (z : Fuses) (d : Dev) : Option Word :=
  let k := d.fuseSel m
  if off = 0x00C then some (setBits (d.rd R.STATUS_SEC) 4 2 d.level)
  else if off = 0x100 then some (if k < 128 then fuseMask k else 0#32)
  else if off = 0x104 then some (if k < 128 then fuseData z k else 0#32)
  else none

def secWrite (m : Agent) (off : Nat) (v : Word) (w : World) : Option World :=
  if off = 0x010 then some (lcReq m v w)
  else if off = 0x018 then some (w.onDev (relock v))
  else if off = 0x020 then some (w.onDev (fusePgm m v))
  else none

/-! ### Meanings -/

/-- A step of a sequenced transition ends; in Depot the main domain is off, and after Siding held requests act. -/
def stepEndAll (w : World) : World :=
  let was := w.dev.mode
  let r := stepEndMem w.mem w.dev
  let w := { w with mem := r.1, dev := r.2 }
  if was ≠ mDepot ∧ w.dev.inMode mDepot then mainOff w
  else if was = mSiding ∧ !w.dev.inMode mSiding then w.onDev heldDebug
  else w

/-- A write of SYS_MODE_REQ with MODE 0, or of DP_CTRL with DEPOT = 1, which acts in Siding too (R441, R442, R460). -/
def execDepotRequest (m : Agent) (v : Word) (s : State) : Out :=
  okOnBy m ((if bit v 0 then R.DP_CTRL else R.SYS_MODE_REQ).addr) v s (fun d => if bit v 0 then dpCtrl v d else d.when (!d.asleep) (modeReqBy m v))

def execSecLcReq (m : Agent) (v : Word) (s : State) : Out := okAllBy m R.SEC_LC_REQ.addr v s (lcReq m v)
def execLcBurnDone (good : Bool) (s : State) : Out := okAll s (lcBurnDone good)
def execFusePgm (m : Agent) (v : Word) (s : State) : Out := okBy m R.FUSE_PGM.addr v s (fusePgm m v)
def execPgmDone (good : Bool) (s : State) : Out := okAll s (pgmDone good)
def execMonitorTrip (s : State) : Out := okAll s monitorTrip
def execTrstN (s : State) : Out := okAny s (fun d => d.when (!d.dark) tapReset)
def execIdcode (s : State) : Out := okAny s tapIdcode
def execBypass (s : State) : Out := okAny s (fun d => d.when (!d.dark) tapBypass)
def execSamplePreload (pins : List Bool) (s : State) : Out := okAny s (tapOn (tapSample pins))
def execExtest (pins : List Bool) (s : State) : Out := okAny s (tapOn (tapExtest pins))
def execDbgChal (nonce : List Byte) (s : State) : Out := okAny s (tapOn (tapChal nonce))
def execDbgResp (v : Nat) (s : State) : Out := okAny s (tapOn (tapResp v))
def execDbgAttach (s : State) : Out := okAny s dbgAttach
def execDbgInsp (s : State) : Out := okAny s dbgInsp
def execDbgRelease (s : State) : Out := okAny s dbgRelease
def execDbgSubmit (s : State) : Out := okAny s dbgSubmit
def execUnlockVerified (s : State) : Out := okAll s unlockVerified
def execNonceExpire (s : State) : Out := okAny s (fun d => d.onSe (fun x => { x with nonce := none }))
def execRelock (m : Agent) (v : Word) (s : State) : Out := okBy m R.SEC_DBG.addr v s (relock v)

end Sys2Proof.Machine
end

