-- ==== Sys2Proof/Machine/TwinCtl.lean ====
section
/-!
DEFINITION. Twin control: pairing, the link, switches and takeovers, checksums, health, the phases of a resynchronisation
(12_twin.md R337 to R342, R350 to R364, R366).
Marks (notes/assumptions): DEDUCED 65, 66, 97; DESIGN CHOICE 67.
-/
namespace Sys2Proof.Machine

def twPhase (k : Nat) (d : Dev) : Dev := d.setF F.STATUS_TWN_PHASE k

/-! ### Tickets of QID 300 (R362) -/

/-- A ticket of QID 300 that went out, was used and came back. -/
def Queues.round (q : Queues) (k : Nat) : Queues := ((q.fill k).pop k).back k

/-- A chunk is done with: its ticket goes back in an ACK, which also requests the chunks `wants` (R361). -/
def chunkBack (wants : List (Nat × Nat)) (d : Dev) : Dev := twSend (.ack 1 none wants) (d.onQ (fun q => q.round 300))

/-- The chunks that wait are discarded. -/
def chunksDrop (d : Dev) : Dev :=
  (d.tw.chunks.foldl (fun d _ => chunkBack [] d) d).onTw (fun t => { t with chunks := [], crcs := [] })

/-- The ACTIVE begins to send its whole state; tickets that went out before with a lost link are back (DEDUCED, log 97). -/
def twStateAll (d : Dev) : Dev :=
  let d := d.onQ (fun q => (List.range (q.get 300).f).foldl (fun q _ => q.round 300) q)
  d.onTw (fun t => { t with wants := [(0, twTotal d)], crcAt := 0 })

/-! ### Takeover (R354, R355) -/

/-- The first block from `b` on that no received BLOCK frame holds. -/
def firstLack (fs : List BlockFrame) (b : Nat) : (fuel : Nat) → Nat
  | 0 => b
  | fuel + 1 => if fs.any (fun f => f.blk == b) then firstLack fs (b + 1) fuel else b

/-- The source data of loader `l` that has come is of no use any more. -/
def bulkDrop (l : Loader) (d : Dev) : Dev := d.onTw (fun t => { t with bulk := t.bulk.filter (fun f => f.cmd.loader != l) })

/-- A load that waits for its loader ends before it began (R356; DEDUCED, log 66). -/
def loadqCut (d : Dev) : Dev :=
  let q := d.tw.loadq
  q.foldl (fun d c => match c.loader with
    | .node => d.evt Ev.CRM_BLK_ERR
    | .fir => (d.onFeed c.feed (fun f => f.setBank (!f.live) { f.bank (!f.live) with whole := false })).evt Ev.CCE_FLD_ERR
    | .graph => (d.onSb (fun s => { s with nextOk := false })).evt Ev.SB_GLD_ERR) (d.onTw (fun t => { t with loadq := [] }))

/-- At a takeover the loads whose source data has not all come end with their error events; the others go on with theirs (R356). -/
def loadsCut (d : Dev) : Dev :=
  let ls := d.tw.src
  let d := loadqCut d
  let d := d.when (ls.contains .node && d.crm.ldRun && !d.bulkHas .node (8 * d.crm.ldLeft)) (fun d => blkErr (bulkDrop .node d))
  let d := match d.cce.load with
    | some l =>
      let n := 4 * min l.count (d.layoutOf l.feed).cover
      d.when (ls.contains .fir && decide (0 < n) && !d.bulkHas .fir n) (fun d =>
        fldFail [] ((d.bulkBytes .fir).length / 4) (d.onCce (fun e => { e with load := some { l with wait := false } })))
    | none => d
  let d := d.when (ls.contains .graph && d.gldWaits) (fun d =>
    gldEnd ((gldResult 1 0 (bulkDrop .graph (d.onSb (fun s => { s with nextOk := false })))).evt Ev.SB_GLD_ERR))
  d.onTw (fun t => { t with src := [] })

/-- A takeover: SOLO, the first block rendered from own inputs, the local gate (R355). Later frames that have come are not used. -/
def takeover (cold : Bool) (d : Dev) : Dev :=
  let b := match d.tw.held with
    | e :: _ => e.1
    | [] => d.nextDep
  let f := firstLack d.tw.frames b (d.tw.frames.length + 1)
  let d := d.onTw (fun t => { t with frames := t.frames.filter (fun x => decide (x.blk < f)) })
  let d := (d.wr R.TWN_TAKE_LO (w32 f)).wr R.TWN_TAKE_HI (w32 (f / 2 ^ 32 % 2 ^ 31 + b2n cold * 2 ^ 31))
  loadsCut (twOpen 0 (twState twSolo ((d.bump R.TWN_TAKE_CNT).evt Ev.TWN_TAKEOVER)))

/-- The resynchronisation ends, or a copy loses its ACTIVE. -/
def twDetach (d : Dev) : Dev := twState twDetached d

/-! ### Commands (R337, R357, R354, R352, R361) -/

/-- A write of TWN_CFG acts in Shunt only (R366); EN = 0 ends twin operation (R340). -/
def twnCfg (v : Word) (d : Dev) : Dev :=
  d.when (d.inMode mShunt) (fun d =>
    let d := (d.wr R.TWN_CFG (v &&& 0xFFF0FF00#32)).setF F.STATUS_TWN_SIDE (bits v 30 1)
    d.when (!bit v 31) (fun d => ((twState twOff (chunksDrop d)).onTw (fun _ => Twin.reset)).setB F.STATUS_TWN_ACT_PIN false))

def wrIgn (d : Dev) : Dev := d.evt Ev.TWN_WR_IGN

def pairCmd (d : Dev) : Dev :=
  d.when (d.fb F.TWN_CFG_EN && d.twSt == twOff) (fun d => twHi (twState twHello d))

/-- A manual switch (R357). A timed block that is too early for BLOCK frame `s - 1` to precede SWITCH acts at the earliest block that is
not (DESIGN CHOICE, log 67). -/
def switchCmd (v : Word) (d : Dev) : Dev :=
  if d.twSt = twActive ∧ d.tw.peer = twStandby then
    let s := if bit v 2 then max (d.rd64 R.TWN_SW_AT_LO R.TWN_SW_AT_HI) (d.nextDep + 1) else d.effBlk + 4
    d.onTw (fun t => { t with sw := some s })
  else wrIgn d

def takeCmd (d : Dev) : Dev :=
  if d.twSt = twStandby then takeover false d
  else if d.twSt = twSyncing ∨ d.twSt = twDetached then takeover true d
  else d

/-- Resynchronisation starts: TRANSFER (R361). -/
def resyncBegin (d : Dev) : Dev :=
  let d := twPhase 1 (twState twSyncing ((chunksDrop d).onTw (fun t =>
    { t with own := false, frames := [], confirm := 0, mism := 0, skewN := 0, markBlk := none, passBad := 0, crcPos := 0, bulk := [],
             loadq := [] })))
  d.clear [R.TWN_XFER_TOTAL, R.TWN_XFER_DONE, R.TWN_VERIFY]

/-- A write of RESYNC: DETACHED is left once the link is up, FAULTED at once (R340, R361). -/
def resyncCmd (d : Dev) : Dev :=
  d.when ((d.twSt == twDetached && d.fb F.STATUS_TWN_LINK) || d.twSt == twFaulted) (fun d => twHi (resyncBegin d))

/-- A write of TWN_CTRL: every command whose bit is 1. -/
def twnCtrl (v : Word) (d : Dev) : Dev :=
  d.when d.cap.twin (fun d =>
    let d := d.when (bit v 0) pairCmd
    let d := d.when (bit v 1) (switchCmd v)
    let d := d.when (bit v 3) takeCmd
    let d := d.when (bit v 4) (twFault 9)
    d.when (bit v 5) resyncCmd)

/-! ### The link (R341, R358) -/

def twinLink (lane : Nat) (up : Bool) (d : Dev) : Dev :=
  d.when d.cap.twin (fun d =>
    let was := d.fb F.STATUS_TWN_LINK
    let put (n : Nat) : Nat := if up then n ||| 2 ^ lane else n &&& (3 - 2 ^ lane)
    let d := d.setF F.TWN_LINK_RXUP (put (d.f F.TWN_LINK_RXUP))
    let d := d.setF F.TWN_LINK_TXUP (put (d.f F.TWN_LINK_TXUP))
    let now := d.f F.TWN_LINK_RXUP == 3
    let d := d.setB F.STATUS_TWN_LINK now
    d.when (was != now) (fun d =>
      let d := d.evt Ev.TWN_LINK
      if now then d.when (decide (twHello ≤ d.twSt)) twHi else twLeave d))

/-- A frame whose CRC is wrong is discarded and counted (R341). -/
def badCrc (d : Dev) : Dev := (d.bump R.TWN_LINK_ERR_CNT).onTw (fun t => { t with lerr := t.lerr + 1 })

/-- A frame of the peer is received: one with a wrong CRC has no other effect (R341). A unit in state OFF takes none. -/
def twRx (good : Bool) (g : Dev → Dev) (d : Dev) : Dev :=
  d.when (d.cap.twin && decide (twHello ≤ d.twSt)) (if good then g else badCrc)

/-- The unit becomes ACTIVE at pairing (R338). -/
def becomeActive (d : Dev) : Dev := twHi (twOpen 0 (twState twActive d))

/-- The peer reports its state (R340, R356, R364): an ACTIVE that lost its STANDBY becomes SOLO, or gives way to a peer that took over; a copy
whose ACTIVE left the pair becomes DETACHED. -/
def peerState (st : Nat) (d : Dev) : Dev :=
  let was := d.tw.peer
  let d := d.onTw (fun t => { t with peer := st })
  if d.twSt = twActive ∧ st = twSolo then twClose (d.nextDep - 1) (twDetach d)
  else if d.twSt = twActive ∧ (st = twOff ∨ st = twDetached ∨ (st = twHello ∧ (was = twSyncing ∨ was = twStandby))) then twState twSolo d
  else if d.twCopy ∧ (st = twOff ∨ st = twHello ∨ (st = twSolo ∧ (d.twSt = twStandby ∨ was = twActive))) then twDetach d
  else d

/-- What a HELLO with the unit's own properties makes of the unit (R338, R340, R361): a STANDBY in SYNCING beside an ACTIVE or SOLO peer, the
ACTIVE with SIDE = 0 beside another, the ACTIVE of a SYNCING peer. A peer that is pairing gets a HELLO in answer. -/
def paired (st : Nat) (d : Dev) : Dev :=
  if d.twSt = twHello then
    if st = twActive ∨ st = twSolo then twHi (resyncBegin d)
    else if !d.fb F.TWN_CFG_SIDE then becomeActive d
    else d.when (st == twHello) twHi
  else if st = twSyncing ∧ (d.twSt = twSolo ∨ d.twSt = twActive) then twStateAll (twState twActive d)
  else d.when (st == twHello) twHi

/-- A HELLO frame: the pairing properties compared (R337, R338). -/
def helloRx (h : HelloFrame) : Dev → Dev :=
  twRx h.good (fun d =>
    let p := h.props
    let same := { p with side := !p.side, st := d.twSt } == d.props
    if !same then
      let d := (d.wr R.TWN_FAULT (w32 (2 ^ 31 + 10 * 2 ^ 24 + d.interval % 2 ^ 24))).evt Ev.TWN_PAIR_ERR
      if d.twSt = twHello then twState twOff d else twLeave d
    else paired p.st (peerState p.st (d.setF F.TWN_LINK_DELAY h.delay)))

/-! ### MARK frames (R356, R359) -/

/-- The skew of the first MARK of a departure, as TWN_LINK shows it. -/
def markSkew (k : MarkFrame) (d : Dev) : Dev :=
  let d := d.setF F.TWN_LINK_SKEW (unsgn 8 (sat 8 k.skew))
  let d := d.when (decide (k.skew.natAbs > 32)) (fun d => d.evt Ev.TWN_SKEW)
  d.onTw (fun t => { t with skewN := if k.skew.natAbs > 64 then t.skewN + 1 else 0, markBlk := some k.blk })

def markRx (k : MarkFrame) : Dev → Dev :=
  twRx k.good (fun d =>
    let d := peerState k.st (d.setB F.STATUS_TWN_PEER_OK k.ok)
    d.when (d.twCopy && d.tw.markBlk != some k.blk) (fun d =>
      if k.blk = d.nextDep ∨ k.blk + 1 = d.nextDep then markSkew k d
      else twFault 8 (d.onTw (fun t => { t with markBlk := some k.blk }))))

def clockSkew (d : Dev) : Dev := d.when (decide (64 ≤ d.tw.skewN)) (twFault 8)

/-! ### Checksums (R351) -/

/-- VERIFY begins, with no pass (R363, R366). -/
def verifyBegin (d : Dev) : Dev :=
  ((twPhase 2 d).clear [R.TWN_VERIFY, R.TWN_XFER_DONE]).onTw (fun t => { t with crcPos := 0, passBad := 0, crcs := [] })

/-- What a comparison that ran did: `good` when the checksums agree. -/
def twCompared (good : Bool) (d : Dev) : Dev :=
  let d := d.when (!good) (fun d => (d.bump R.TWN_MISM_CNT).evt Ev.TWN_MISMATCH)
  if d.twSt = twStandby then
    let n := if good then 0 else d.tw.mism + 1
    let d := d.onTw (fun t => { t with mism := n })
    d.when (decide (n ≥ max 1 (d.f F.TWN_CFG_MISN))) (twFault 7)
  else if d.twSt = twSyncing ∧ d.f F.STATUS_TWN_PHASE = 4 then
    let d := d.onTw (fun t => { t with confirm := if good then t.confirm + 1 else 0 })
    d.when (!good) verifyBegin
  else d

/-- The peer's checksum of block `b` against the unit's own. -/
def twCompare (b : Nat) (crc : Word) (late : Bool) (d : Dev) : Dev :=
  match d.tw.sums.find? (fun e => e.1 == b) with
  | none => d
  | some e => if late || e.2.2 then d.bump R.TWN_SKIP_CNT else twCompared (e.2.1 == crc) d

/-! ### Faults and switches from the peer (R353, R354, R357) -/

def faultRx (cause blk : Nat) (d : Dev) : Dev :=
  d.when (decide (twSolo ≤ d.twSt)) (fun d =>
    let d := d.wr R.TWN_FAULT (w32 (3 * 2 ^ 30 + cause % 16 * 2 ^ 24 + blk % 2 ^ 24))
    let d := (d.evt Ev.TWN_PEER_FAULT).onTw (fun t => { t with sw := none, last := none, peer := twFaulted })
    let d := d.setB F.STATUS_TWN_PEER_OK false
    if d.twSt = twActive then twState twSolo d
    else if d.twSt = twStandby then takeover false d
    else if (d.twSt = twSyncing ∨ d.twSt = twDetached) ∧ d.fb F.TWN_CFG_COLDTAKE then takeover true d
    else if d.twSt = twSyncing then twDetach d
    else d)

def switchRx (s : Nat) (d : Dev) : Dev :=
  d.when (d.twSt == twStandby) (fun d => d.onTw (fun t => { t with sw := some s }))

def linkSilence (d : Dev) : Dev :=
  d.when (d.twSt == twStandby && d.fb F.TWN_CFG_LINKTAKE) (takeover false)

/-- A MARK with the latest departure (R342). -/
def markSend (d : Dev) : Dev :=
  d.when (decide (twHello ≤ d.twSt)) (twSend (.mark (d.rd64 R.DEP_IDX_LO R.DEP_IDX_HI)))

/-! ### Local outputs (R350) -/

/-- Block `b`'s pin instant: the gate and TWIN_ACT. -/
def pinInstant (b : Nat) (d : Dev) : Dev :=
  d.when (decide (twSolo ≤ d.twSt)) (fun d =>
    let t := d.tw
    match t.closeAt, t.openAt with
    | some c, _ =>
      if c ≤ b then (d.onTw (fun t => { t with gate := false, closeAt := none })).setB F.STATUS_TWN_ACT_PIN false else d
    | none, some o =>
      if o ≤ b then
        (d.onTw (fun t => { t with gate := true, openAt := none, rampBlk := some b })).setB F.STATUS_TWN_ACT_PIN true
      else d
    | none, none => d)

/-! ### Health (R360) -/

def healthWords (temp : Int) (d : Dev) : List Word :=
  let t := d.tw
  [w32 (d.nextDep - 1), w32 t.ce, w32 (d.ms.passes % 2 ^ 16 * 2 ^ 16 + bits (d.rd R.MS_SCRUB_POS) 0 16), w32 t.fab,
   w32 (t.tested % 2 ^ 16 * 2 ^ 16 + t.passed % 2 ^ 16), w32 t.pat, w32 t.lerr, w32 (unsgn 16 temp + d.twSt * 2 ^ 16)]

def wrList (r : Reg) (ws : List Word) (d : Dev) : Dev :=
  (List.range ws.length).foldl (fun d i => d.wr (r.at i) (ws.getD i 0#32)) d

def healthReport (temp : Int) (d : Dev) : Dev :=
  d.when (decide (twSolo ≤ d.twSt)) (fun d =>
    let ws := healthWords temp d
    twSend (.health ws) ((wrList R.TWN_HLTH ws d).onTw (fun t => { t with ce := 0, fab := 0, pat := 0, lerr := 0 })))

def healthRx (ws : List Word) (d : Dev) : Dev :=
  let ws := (List.range 8).map (fun i => ws.getD i 0#32)
  let st := bits (ws.getD 7 0#32) 16 3
  let d := (wrList R.TWN_PEER ws d).evt Ev.TWN_HEALTH
  peerState st (d.setB F.STATUS_TWN_PEER_OK (st != twFaulted))

/-! ### Resynchronisation (R361 to R363) -/

/-- An ACK: tickets back to the ACTIVE (R362), the end of the STANDBY's oldest load of a loader (R346), the chunks that it requests (R361). -/
def ackRx (f : AckFrame) (d : Dev) : Dev :=
  d.when (d.twSt == twActive) (fun d =>
    let d := d.onQ (fun q => (List.range (min f.n 64)).foldl (fun q _ => q.round 300) q)
    d.onTw (fun t => { t with
      bulkPend := (match f.loaded with
        | some l => t.bulkPend.eraseP (fun c => c.loader == l)
        | none => t.bulkPend),
      wants := t.wants ++ f.wants }))

/-- TRANSFER ends: QID 300 is audited; a failure sets TKA_FAIL too (01_architecture.md R39), and TRANSFER starts again (R362): it is no self-diagnosis
fault beside (DEDUCED, log 97). -/
def transferEnd (d : Dev) : Dev :=
  let total := d.rd R.TWN_XFER_TOTAL
  d.when (d.twSt == twSyncing && d.f F.STATUS_TWN_PHASE == 1 && total != 0#32 &&
      decide (total.toNat ≤ (d.rd R.TWN_XFER_DONE).toNat)) (fun d =>
    if (d.q.settle.get 300).balanced then verifyBegin d
    else
      let d := (d.evt Ev.TWN_XFER_ERR).evt Ev.SYS_TKA_FAIL
      twSend (.ack 0 none [(0, total.toNat)]) (chunksDrop (d.wr R.TWN_XFER_DONE 0#32)))

def catchupEnd (d : Dev) : Dev :=
  d.when (d.twSt == twSyncing && d.f F.STATUS_TWN_PHASE == 3 && d.tw.held.isEmpty)
    (fun d => (twPhase 4 d).onTw (fun t => { t with confirm := 0 }))

def synced (d : Dev) : Dev :=
  d.when (d.twSt == twSyncing && d.f F.STATUS_TWN_PHASE == 4 && decide (64 ≤ d.tw.confirm))
    (fun d => (twState twStandby d).evt Ev.TWN_SYNCED)

def twnCntClr (v : Word) (d : Dev) : Dev :=
  d.when (bit v 0) (fun d => d.clear [R.TWN_MISM_CNT, R.TWN_SKIP_CNT, R.TWN_TAKE_CNT, R.TWN_LINK_ERR_CNT, R.TWN_RESEND_CNT,
    R.TWN_WR_IGN_CNT])

/-- Loader source data from the ACTIVE (R346). -/
def bulkRx (b : BulkFrame) (d : Dev) : Dev := d.when d.twCopy (fun d => d.onTw (fun t => { t with bulk := t.bulk ++ [b] }))

/-! ### Register windows of block 12 (R366) -/

def twWrite (off : Nat) (v : Word) (d : Dev) : Option Dev :=
  if off = 0x010 then some (twnCfg v d)
  else if off = 0x014 then some (twnCtrl v d)
  else if off = 0x058 then some (d.when (v == 0#32) (fun d => d.wr R.TWN_COPY_PEAK 0#32))
  else if off = 0x05C then some (twnCntClr v d)
  else none

/-! ### Meanings -/

/-- A command of the twin: a variant without one has no effect of it (00_scope.md R6). -/
def okTwin (s : State) (g : Dev → Dev) : Out := ok s (fun d => d.when d.cap.twin g)

def execPairUp (m : Agent) (v : Word) (s : State) : Out := okBy m R.TWN_CTRL.addr v s (fun d => d.when d.cap.twin (twnCtrl v))
def execSwitchTwin (m : Agent) (v : Word) (s : State) : Out := okBy m R.TWN_CTRL.addr v s (fun d => d.when d.cap.twin (twnCtrl v))
def execTake (m : Agent) (v : Word) (s : State) : Out := okBy m R.TWN_CTRL.addr v s (fun d => d.when d.cap.twin (twnCtrl v))
def execGiveup (m : Agent) (v : Word) (s : State) : Out := okBy m R.TWN_CTRL.addr v s (fun d => d.when d.cap.twin (twnCtrl v))
def execResync (m : Agent) (v : Word) (s : State) : Out := okBy m R.TWN_CTRL.addr v s (fun d => d.when d.cap.twin (twnCtrl v))
def execTwnCntClr (m : Agent) (v : Word) (s : State) : Out := okBy m R.TWN_CNT_CLR.addr v s (fun d => d.when d.cap.twin (twnCntClr v))
def execHello (h : HelloFrame) (s : State) : Out := okTwin s (helloRx h)
def execMark (k : MarkFrame) (s : State) : Out := okTwin s (markRx k)
def execAck (f : AckFrame) (s : State) : Out := okTwin s (twRx f.good (ackRx f))
def execCheck (good : Bool) (blk : Nat) (crc : Word) (late : Bool) (s : State) : Out := okTwin s (twRx good (twCompare blk crc late))
def execHealth (good : Bool) (words : List Word) (s : State) : Out := okTwin s (twRx good (healthRx words))
def execFault (good : Bool) (cause blk : Nat) (s : State) : Out := okTwin s (twRx good (faultRx cause blk))
def execSwitchFrame (good : Bool) (blk : Nat) (s : State) : Out := okTwin s (twRx good (switchRx blk))
def execEphamLinkUp (lane : Fin 2) (s : State) : Out := okTwin s (twinLink lane.val true)
def execEphamLinkDown (lane : Fin 2) (s : State) : Out := okTwin s (twinLink lane.val false)
def execLinkSilence (s : State) : Out := okTwin s linkSilence
def execMarkSend (s : State) : Out := okTwin s markSend
def execPinInstant (blk : Nat) (s : State) : Out := okTwin s (pinInstant blk)
def execClockSkewFault (s : State) : Out := okTwin s clockSkew
def execHealthReport (temp : Int) (s : State) : Out := okTwin s (healthReport temp)
def execTransferEnd (s : State) : Out := okTwin s transferEnd
def execCatchupEnd (s : State) : Out := okTwin s catchupEnd
def execSynced (s : State) : Out := okTwin s synced
def execBulk (b : BulkFrame) (s : State) : Out := okTwin s (twRx b.good (bulkRx b))

end Sys2Proof.Machine
end

