-- ==== Sys2Proof/Machine/Bus.lean ====
section
/-!
DEFINITION. Register accesses: access codes, unlisted offsets, 64-bit values, identification, windows, absent capabilities, the
copying of rendering-state writes (00_scope.md R6, R12 to R21, R511 to R513; 12_twin.md R345).
Marks (notes/assumptions): DESIGN CHOICE 5, 14, 27; DEDUCED 12, 13, 83, 87; PRESUMED 101.
-/
namespace Sys2Proof.Machine

/-! ### The register maps -/

def mapRows (b : Nat) : List RegRow :=
  match b with
  | 0 => rowsSYS | 1 => rowsSEC | 2 => rowsSB | 3 => rowsCRM | 4 => rowsGSV | 5 => rowsCCE | 6 => rowsTIO | 7 => rowsNET
  | 8 => rowsTU | 9 => rowsRU | 10 => rowsAI | 11 => rowsAO | 12 => rowsTWN | 13 => rowsMS | 14 => rowsMBX | 15 => rowsHIF
  | 16 => rowsDP
  | _ => []

/-- The offsets of a row. -/
def RegRow.offs (r : RegRow) : List Nat :=
  (List.range r.n1).flatMap (fun i => (List.range r.n2).map (fun j => r.reg.off + r.reg.st1 * i + r.reg.st2 * j))

/-- The row that lists offset `off` of block `b`. -/
def rowAt (b off : Nat) : Option RegRow := (mapRows b).find? (fun r => r.offs.contains off)

/-- The register of a row at an offset. -/
def RegRow.sel (r : RegRow) (off : Nat) : Reg := { r.reg with off := off }

/-- BLOCK_ID (R16, R512). -/
def blockId (b : Nat) : Word := if b ≤ 16 then w32 (0xFF09 * 2 ^ 16 + b * 2 ^ 8 + brev b) else 0#32

/-- Lower words of the 64-bit values that software writes (R14). -/
def wideRw : List Reg :=
  [R.SYS_RESUME_AT_LO, R.SB_GSWAP_AT_LO, R.SB_GLD_ADDR_LO, R.CRM_SWAP_AT_LO, R.CRM_BLK_ADDR_LO, R.GSV_RING_BASE_LO, R.CCE_SWAP_AT_LO,
   R.CCE_FLD_ADDR_LO, R.TDM_GAT_LO, R.AI_SYNC_AT_LO, R.TWN_SW_AT_LO, R.DP_RTC_LO]

/-- Lower words of the 64-bit values of the register blocks that software only reads (R14); BLK_LO of an engine is `engRegRead`'s. -/
def wideRo : List Reg :=
  [R.DEP_IDX_LO, R.SYS_HALT_BLK_LO, R.SYS_RESUME_BLK_LO, R.GSV_SIDX_LO, R.CCE_DITH_LO, R.TI_FREQ_LO, R.MC_BIAS_LO, R.MC_BIAS_LO.at 1,
   R.TWN_TAKE_LO, R.DR_UE_ADDR_LO, R.SEC_DEVID_LO]

def isAt (rs : List Reg) (b off : Nat) : Bool := rs.any (fun r => r.blk == b && r.off == off)

def isWideLo (b off : Nat) : Bool := isAt wideRw b off || isAt wideRo b off
def isWideHi (b off : Nat) : Bool := decide (4 ≤ off) && isWideLo b (off - 4)

/-- The registers that record a peak and nothing else (R513). -/
def peakRegs : List Reg :=
  [R.GSV_WR_PEAK, R.CRM_CYC_PEAK, R.CCE_CYC_PEAK, R.FC_PEAK, R.SB_INST_PEAK, R.AI_PEAK, R.AO_PEAK, R.TG_WAIT_PEAK, R.TWN_COPY_PEAK]

/-- All of them. -/
def isPeak (b off : Nat) : Bool := isAt (R.FEED_PEAK :: R.FC_LIM_GR :: peakRegs) b off

/-- Registers that every agent has its own copy of (R18; 01_architecture.md R41; 06_signal_box.md R204; 11_analog_outputs.md R323). -/
def banked : List Reg :=
  [R.FUSE_SEL, R.ITEM_SEL, R.CRM_ISEL, R.CRM_OSEL, R.OBJ_SEL, R.FEED_SEL, R.PORT_SEL, R.STREAM_SEL, R.TI_SEL, R.RC_SEL, R.AIN_SEL,
   R.AOUT_SEL, R.TGT_SEL, R.MB_SEL, R.TKA_QSEL, R.SB_TRC_SEL, R.AO_SOS_SEL]

/-- A window over instances: its select register, its number of instances, its last register (R17, R19). -/
structure Win where
  sel : Reg
  cnt : Nat
  last : Nat

/-- The window that an offset belongs to. -/
def Dev.win (d : Dev) (b off : Nat) : Option Win :=
  let w (s : Reg) (n l : Nat) : Option Win := if 0x100 ≤ off ∧ off ≤ l then some ⟨s, n, l⟩ else none
  match b with
  | 1 => w R.FUSE_SEL 128 0x104
  | 2 => w R.ITEM_SEL d.sb.curGraph.items.length 0x124
  | 4 => w R.OBJ_SEL d.objCount 0x13C
  | 5 => w R.FEED_SEL d.crm.nout 0x150
  | 6 => w R.PORT_SEL d.nPorts 0x134
  | 7 => w R.STREAM_SEL 256 0x138
  | 8 => w R.TI_SEL 4 0x14C
  | 9 => w R.RC_SEL 2 0x13C
  | 10 => w R.AIN_SEL 8 0x120
  | 11 => w R.AOUT_SEL 12 0x128
  | 13 => w R.TGT_SEL 14 0x10C
  | 14 => w R.MB_SEL 32 0x15C
  | _ => none

/-- The registers of a window that hold staging or selection of an agent and no state of an instance (R19). -/
def stagingRegs : List Reg := [R.FC_SOS_SEL, R.AO_SOS_SEL]

/-- Agent `m` selects an instance that the variant and the active consist do not provide: the window reads 0 and ignores writes (R19). -/
def Dev.beyond (d : Dev) (m : Agent) (b off : Nat) : Bool :=
  match d.win b off with
  | some x => decide (x.cnt ≤ Reg.idx d x.sel m) && !isAt stagingRegs b off
  | none => false

/-- The lower address word of a loader that runs: its writes are ignored (03_crosspoint.md R105; 04_correction.md R121;
06_signal_box.md R181). On a copy only those that the ACTIVE took come, for its loader's next load (12_twin.md R346). -/
def Dev.loading (d : Dev) (b off : Nat) : Bool :=
  !d.twCopy && ((isAt [R.CRM_BLK_ADDR_LO] b off && d.crm.ldRun) || (isAt [R.CCE_FLD_ADDR_LO] b off && d.cce.load.isSome) ||
    (isAt [R.SB_GLD_ADDR_LO] b off && d.sb.ld.isSome))

/-- A capability that the variant lacks: its registers read 0 and ignore writes (R6). -/
def Dev.absent (d : Dev) (b off : Nat) : Bool :=
  if b = 12 then !d.cap.twin
  else if b = 10 then !d.cap.analog
  else if b = 11 then !d.cap.analog && decide (off < 0x800)
  else if b = 7 then !d.cap.netb && decide (0x300 ≤ off) && decide (off < 0x400)
  else false

/-! ### Reads -/

/-- COUNT of TKA_QDEPTH to TKA_QFILL: bits 15:0 (01_architecture.md R41); of a number that does not fit, which only a free depth of QID 296 to
299 could be, its lower 16 bits (DESIGN CHOICE, log 27). -/
def tkaCount (n : Nat) : Word := w32 (n % 2 ^ 16)

/-- System control registers that are computed (01_architecture.md R41; 00_scope.md R21). -/
def sysRead (m : Agent) (off : Nat) (d : Dev) : Option Word :=
  let q := bits (d.rd (R.TKA_QSEL.of m.num)) 0 9
  let c := Tbl.getD d.q.cap q .none
  if off = 0x010 then some d.evtSum
  else if off = 0x300 then some (setBits (d.rd R.TKA_CTRL) 0 1 (b2n d.auditOn))
  else if off = 0x310 then some (tkaCount (d.q.get q).d)
  else if off = 0x314 then some (tkaCount c.h)
  else if off = 0x318 then some (tkaCount c.f)
  else if off = 0x31C then some (tkaCount c.s)
  else none

/-- The computed registers of every block. -/
def hookRead (m : Agent) (b off : Nat) (z : Fuses) (d : Dev) : Option Word :=
  match b with
  | 0 => sysRead m off d
  | 1 => secRead m off z d
  | 2 => sbRead m off d
  | 3 => crmRead m off d
  | 4 => gsvRead m off d
  | 5 => cceRead m off d
  | 6 => tioRead m off d
  | 7 => netRead m off d
  | 8 => tuRead m off d
  | 10 => aiRead off d
  | 11 => aoRead m off d
  | 13 => msRead m off d
  | 14 => mbRead m off d
  | 15 => hifRead m off d
  | _ => none

/-- What a register holds for agent `m`, without the effects of the read (R12, R13, R16, R19). -/
def regValue (m : Agent) (b off : Nat) (z : Fuses) (d : Dev) : Word :=
  if off = 0xFFC ∧ b ≤ 16 then blockId b
  else if d.absent b off || d.beyond m b off then 0#32
  else match hookRead m b off z d with
    | some w => w
    | none => match rowAt b off with
      | none => 0#32
      | some row =>
        let r := row.sel off
        if isAt banked b off then d.rd (r.of m.num)
        else match d.win b off with
          | some x => d.rd (r.of (Reg.idx d x.sel m))
          | none => d.rd r

/-- Reads that act (R106, R204, R232, R236, R256, R260, R266, R277; 04_correction.md R123; 11_analog_outputs.md R323;
14_host_mailboxes.md R394, R395, R404). -/
def actRead (m : Agent) (b off : Nat) (d : Dev) : Option Dev :=
  let np := (off - 0x200) / 0x100
  let o := (off - 0x200) % 0x100
  let isNp := b == 7 && decide (0x200 ≤ off) && decide (off < 0x500)
  if b = 2 ∧ off = 0x078 then some (traceCapture m d)
  else if b = 2 ∧ off = 0x084 then some ((d.answer (d.hold ⟨2, off, 0, 0, 0, 0⟩ m)).autoInc R.SB_TRC_SEL m ringLen)
  else if b = 3 ∧ off = 0x100 then some (nodeCapture m d)
  else if b = 3 ∧ off = 0x134 then some (crmStep m (d.answer 0#32))
  else if b = 5 ∧ off = 0x128 then some (sosCoef m false 0#32 d)
  else if b = 6 ∧ (off = 0x218 ∨ off = 0x258) then some (arCapture m ((off - 0x218) / 0x40) d)
  else if b = 7 ∧ off = 0x020 then some (nbAlloc m d)
  else if isNp && o == 0x1C then some (popIdx m np false d)
  else if isNp && o == 0x20 then some (popIdx m np true d)
  else if isNp && o == 0x40 then some (tsPop m np false d)
  else if isNp && o == 0x50 then some (tsPop m np true d)
  else if isNp && o == 0x78 then
    some (gclStep np m (d.answer (Tbl.getD (d.np np).adm (bits (d.rd (gclSel np m)) 0 8) 0#32)))
  else if b = 8 ∧ off = 0x13C then
    some (timeRead m d.now d)
  else if b = 8 ∧ 0x600 ≤ off ∧ off < 0x680 ∧ off % 0x20 = 4 then some (capturePop ((off - 0x600) / 0x20) m d)
  else if b = 11 ∧ off = 0x110 then some (aoSosCoef m false 0#32 d)
  else if b = 14 ∧ 0x400 ≤ off ∧ off < 0x500 then some (lockRead m ((off - 0x400) / 4) d)
  else if b = 15 ∧ off = 0x01C then some ((d.answer ((hifRead m off d).getD 0#32)).setF ⟨R.HIF_I2C_STAT, 0, 1⟩ 0)
  else if b = 15 ∧ off = 0x20C ∧ qsAgent m then some (qsPop (d.answer ((hifRead m off d).getD 0#32)))
  else none

/-- The upper word that a read of a lower word captures (R14). -/
def hiValue (m : Agent) (b off : Nat) (z : Fuses) (d : Dev) : Word := regValue m b (off + 4) z d

/-- A window's last register was accessed (R19). -/
def winStep (m : Agent) (b off : Nat) (d : Dev) : Dev :=
  match d.win b off with
  | some x => d.when (decide (off = x.last)) (fun d => d.autoInc x.sel m x.cnt)
  | none => d

/-- Agent `m` reads a register; the answer is in `resp`. Where a read of a lower word finds INDEX beyond the instances, 0 is captured (R511);
a read of an upper word answers the holding register of R14 whatever INDEX then selects, also where R19 has the window read 0
(DEDUCED, log 87). -/
def regRead (m : Agent) (b off : Nat) (z : Fuses) (d : Dev) : Dev :=
  if d.absent b off ∧ off ≠ 0xFFC then d.answer 0#32
  else match actRead m b off d with
    | some d => d
    | none =>
      let d :=
        if isWideHi b off then d.answer (d.hold ⟨b, off, 0, 0, 0, 0⟩ m)
        else
          let v := regValue m b off z d
          (d.when (isWideLo b off) (fun d => d.setHold ⟨b, off + 4, 0, 0, 0, 0⟩ m (hiValue m b off z d))).answer v
      winStep m b off d

/-! ### Writes -/

/-- A write that the twin copies (12_twin.md R345). -/
def isRsWrite (b off : Nat) : Bool :=
  if 2 ≤ b ∧ b ≤ 5 then
    !(off == 4 || off == 8 || off == 0 || (b == 3 && (off == 0x010 || off == 0x074)) || (b == 2 && (off == 0x064 || off == 0x074)) ||
      (b == 4 && off == 0x06C) || (b == 5 && (off == 0x07C || off == 0x124)))
  else b == 11 && ((decide (0x10C ≤ off) && decide (off ≤ 0x118)) || (decide (0x040 ≤ off) && decide (off < 0x060)))

/-- Object updates and the ring are copied as updates (12_twin.md R343, R345). -/
def isUpdWrite (b off : Nat) : Bool := b == 4 && ((decide (0x120 ≤ off) && decide (off ≤ 0x13C)) || off == 0x05C)

/-- Writes that are more than their masks. -/
def hookWrite (m : Agent) (b off : Nat) (v : Word) (d : Dev) : Option Dev :=
  match b with
  | 0 =>
    if off = 0x020 then some (modeReqBy m v d)
    else if off = 0x040 then some (sysBlkrst v d)
    else if off = 0x300 then some (tkaCtrl v d)
    else none
  | 2 => sbWrite off v d
  | 3 => crmWrite m off v d
  | 4 => gsvWrite m off v d
  | 5 => cceWrite m off v d
  | 6 => tioWrite m off v d
  | 7 => netWrite m off v d
  | 8 => tuWrite m off v d
  | 9 => ruWrite m off v d
  | 10 => aiWrite m off v d
  | 11 => aoWrite m off v d
  | 12 => twWrite off v d
  | 13 => msWrite m off v d
  | 14 => mbWrite m off v d
  | 15 => hifWrite m off v d
  | 16 => if off = 0x010 then some (dpCtrl v d) else none
  | _ => none

/-- The plain write: masks, W1C bits, peaks (R12, R513). -/
def maskWrite (row : RegRow) (r : Reg) (v : Word) (d : Dev) : Dev :=
  if isAt peakRegs r.blk r.off then d.when (v == 0#32) (fun d => d.wr r 0#32)
  else d.wr r (merge (d.rd r) (w32 row.wmask) v &&& ~~~(v &&& w32 row.cmask))

/-- The upper word of a 64-bit value: both take effect (R14). -/
def wideWrite (m : Agent) (b off : Nat) (row : RegRow) (v : Word) (d : Dev) : Dev :=
  let lo := d.staged ⟨b, off - 4, 0, 0, 0, 0⟩ m
  let d := match rowAt b (off - 4) with
    | some l => maskWrite l (l.sel (off - 4)) lo d
    | none => d
  maskWrite row (row.sel off) v d

/-- What an ignored write beyond the instances still steps: OBJ_SEL (R19), and the selection of a coefficient (04_correction.md R139;
11_analog_outputs.md R336). The other windows' steps follow the write. -/
def beyondStep (m : Agent) (b off : Nat) (d : Dev) : Dev :=
  if b = 4 ∧ off = 0x13C then d.autoInc R.OBJ_SEL m d.objCount
  else if b = 5 ∧ off = 0x128 then sosStep R.FC_SOS_SEL 16 m d
  else if b = 11 ∧ off = 0x110 then aoSosStep m d
  else d

/-- Agent `m` writes a register of the device; the effect proper. -/
def regPut (m : Agent) (b off : Nat) (v : Word) (d : Dev) : Dev :=
  if d.beyond m b off then beyondStep m b off d
  else if isAt wideRw b off then d.when (!d.loading b off) (fun d => d.stage ⟨b, off, 0, 0, 0, 0⟩ m v)
  else match hookWrite m b off v d with
    | some d => d
    | none => match rowAt b off with
      | none => d
      | some row =>
        if decide (4 ≤ off) && isAt wideRw b (off - 4) then wideWrite m b off row v d
        else if isAt banked b off then maskWrite row ((row.sel off).of m.num) v d
        else match d.win b off with
          | some x => maskWrite row ((row.sel off).of (Reg.idx d x.sel m)) v d
          | none => maskWrite row (row.sel off) v d

/-- The steps that follow a write of a window's last register; OBJ_UPD7 and NODE_WR step as they act. -/
def putStep (m : Agent) (b off : Nat) (d : Dev) : Dev := if b = 4 ∧ off = 0x13C then d else winStep m b off d

/-- Agent `m` writes a register of the device, with the rule for rendering-state writes. -/
def devWrite (m : Agent) (b off : Nat) (v : Word) (d : Dev) : Dev :=
  if d.absent b off then d
  else
    let g (d : Dev) : Dev := putStep m b off (regPut m b off v d)
    if isUpdWrite b off then rsHold m g d
    else if isRsWrite b off then rsGate m ⟨b, off, 0, 0, 0, 0⟩ v g d
    else g d

/-- Agent `m` writes a register. -/
def regWrite (m : Agent) (b off : Nat) (v : Word) (w : World) : World :=
  if b = 0 ∧ off = 0x03C then sysRst v w
  else if b = 1 then (secWrite m off v w).getD (w.onDev (devWrite m b off v))
  else if b = 7 ∧ 0x200 ≤ off ∧ off < 0x500 ∧ (off - 0x200) % 0x100 = 0x18 then
    w.onDev (fun d => d.when (!d.absent b off) (txPost m ((off - 0x200) / 0x100) v w.mem))
  else w.onDev (devWrite m b off v)

/-! ### Engine control registers (05_virif_engines.md R166) -/

/-- Engine, register offset of an address in an engine's control register area. -/
def engOf (a : Nat) : Option (Nat × Nat) :=
  let o := a % 2 ^ 20
  if inVirif a ∧ 0xF0000 ≤ o ∧ o < 0xF0080 then some ((a - 0x40000000) / 2 ^ 20, o - 0xF0000) else none

def engRegRead (m : Agent) (e off : Nat) (d : Dev) : Dev :=
  if d.cap.engines ≤ e then d.answer 0#32
  else if off = 0x1C then d.answer (d.hold ⟨64 + e, off, 0, 0, 0, 0⟩ m)
  else
    let d := d.when (decide (off = 0x18)) (fun d => d.setHold ⟨64 + e, 0x1C, 0, 0, 0, 0⟩ m (d.engReg e 7))
    d.answer (d.engReg e (off / 4))

def engRegWrite (e off : Nat) (v : Word) (d : Dev) : Dev :=
  d.when (decide (e < d.cap.engines)) (fun d =>
    if off = 0x2C then d.wr (R.ENG_STICKY.of e) (d.rd (R.ENG_STICKY.of e) &&& ~~~(v &&& 0xF00#32))
    else if off = 0x3C then engCntClr e v d
    else d)

/-! ### Accesses by address -/

/-- Block and offset of a peripheral address (R22). -/
def periOf (a : Nat) : Option (Nat × Nat) :=
  if inPeriph a then some ((a - 0x50000000) / 65536, (a - 0x50000000) % 65536) else none

/-- Does some region of the address map hold the address (R22)? -/
def mapped (a : Nat) : Bool :=
  decide (a < 0x40000) || inSram a || inAudio a || inNodes a || inVirif a || inPeriph a || inDram a

/-- The register that an I2C pointer reaches (14_host_mailboxes.md R393). -/
def i2cReg (p : Nat) : Option (Nat × Nat) :=
  if p % 4 ≠ 0 then none
  else if p ≤ 0x7FFC then some (16, p)
  else if p = 0x8000 then some (0, 0x010)
  else if p = 0x8004 then some (0, 0x00C)
  else if p = 0x8008 then some (0, 0xFFC)
  else if 0x800C ≤ p ∧ p ≤ 0x8014 then some (11, p - 0x8008 + 0x800)
  else if p = 0x8018 then some (15, 0x01C)
  else if 0x8200 ≤ p ∧ p ≤ 0x86FC then some (14, p - 0x8200)
  else none

/-- The pointer that reaches an offset of a block, where one does. -/
def i2cPtr (b off : Nat) : Nat :=
  match b with
  | 16 => off
  | 0 => if off = 0x010 then 0x8000 else if off = 0x00C then 0x8004 else 0x8008
  | 11 => off + 0x8008 - 0x800
  | 15 => 0x8018
  | _ => off + 0x8200

/-- Does some pointer reach the address? -/
def i2cSees (a : Nat) : Bool :=
  match periOf a with
  | some (b, off) => i2cReg (i2cPtr b off) == some (b, off)
  | none => false

/-- An access completes with the error response (R13): the host interfaces note it. -/
def busErr (m : Agent) (d : Dev) : Dev :=
  let d := d.busError
  if m.num = 2 then d.setBit R.HIF_SPI_STAT 0 else if m.num = 3 then d.setBit R.HIF_I2C_STAT 0 else d

/-- The word of the MSI-X table, or of the pending bits (from 1024 on), that the PCIe host reaches at an address: the two regions that BAR0 does not
map (14_host_mailboxes.md R389). -/
def msixAt (m : Agent) (a : Nat) : Option Nat :=
  if m.num ≠ 1 ∨ a % 4 ≠ 0 then none
  else if 0x50F00000 ≤ a ∧ a < 0x50F00110 then some ((a - 0x50F00000) / 4)
  else if 0x50F01000 ≤ a ∧ a < 0x50F01008 then some (1024 + (a - 0x50F01000) / 4)
  else none

def msixRead (k : Nat) (d : Dev) : Word :=
  if k < 68 then d.msix.word k else if k = 1024 then w32 d.msix.pend else 0#32

def msixWrite (k : Nat) (v : Word) (d : Dev) : Dev := d.when (decide (k < 68)) (fun d => { d with msix := d.msix.write k v })

/-- An aligned register read; an engine window's offset that holds nothing reads 0 (05_virif_engines.md R141, R142); an address in no region
has the error response. -/
def addrRead (m : Agent) (a : Nat) (z : Fuses) (d : Dev) : Dev :=
  match msixAt m a with
  | some k => d.answer (msixRead k d)
  | none => match periOf a, engOf a with
  | some (b, off), _ => if a % 4 = 0 then regRead m b off z d else busErr m d
  | none, some (e, off) => if a % 4 = 0 then engRegRead m e off d else busErr m d
  | none, none => if inVirif a && !d.virifMem a then d.answer 0#32 else if mapped a then d else busErr m d

def addrWrite (m : Agent) (a : Nat) (v : Word) (w : World) : World :=
  match msixAt m a with
  | some k => w.onDev (msixWrite k v)
  | none => match periOf a, engOf a with
  | some (b, off), _ => if a % 4 = 0 then regWrite m b off v w else w.onDev (busErr m)
  | none, some (e, off) => if a % 4 = 0 then w.onDev (engRegWrite e off v) else w.onDev (busErr m)
  | none, none => if mapped a then w else w.onDev (busErr m)

/-- Do the registers at an address answer in Siding: mailboxes, host interfaces, the Depot domain (16_modes_power.md R449)? -/
def sidingAddr (a : Nat) : Bool :=
  match periOf a with
  | some (b, _) => decide (14 ≤ b) && decide (b ≤ 16)
  | none => false

/-- Does agent `m` reach the address (R23)? The PCIe host's BARs map the peripheral space and the audio store, SPI carries 32 bits, I2C
reaches the words of its pointers. -/
def Agent.reaches (m : Agent) (a : Nat) : Bool :=
  match m.num with
  | 1 => inPeriph a || inAudio a || !mapped a
  | 2 => decide (a < 2 ^ 32)
  | 3 => i2cSees a
  | _ => true

/-- An access by agent `m` at address `a`: through the bridge of its target, or to the PCIe host's MSI-X table. -/
def accessAt (m : Agent) (a : Nat) (write : Bool) (g : World → World) (w : World) : World :=
  match w.dev.targetOf a, msixAt m a with
  | some t, none => bridgedAll m t write g w
  | _, _ => g w

/-- An access by agent `m` to address `a`, of the row that `c` says takes it; one that the agent's view does not hold is not made. -/
def okAt (m : Agent) (a : Nat) (v : Word) (write c : Bool) (s : State) (g : World → World) : Out :=
  .next (s.onAll (fun w =>
    if !m.reaches a || !c then w
    else if w.dev.knocks m then w.onDev (knock (.word m a write v))
    else w.when (if sidingAddr a then !w.dev.dark else !w.dev.asleep) (accessAt m a write g)))

/-- A predicate over the register that an address names. -/
def atReg (a : Nat) (p : Nat → Nat → Bool) : Bool :=
  match periOf a with
  | some (b, off) => p b off
  | none => false

/-- Does a register map, or for the PCIe host its MSI-X table, list the address? -/
def listed (m : Agent) (a : Nat) : Bool :=
  (msixAt m a).isSome || atReg a (fun b off => (rowAt b off).isSome || (off == 0xFFC && decide (b ≤ 16)) || (b == 0 && off == 0x010)) || (engOf a).isSome

/-! ### Meanings -/

def execRegWrite (m : Agent) (addr : Nat) (v : Word) (s : State) : Out := okAt m addr v true true s (addrWrite m addr v)

def execWideLoRead (m : Agent) (addr : Nat) (s : State) : Out :=
  okAt m addr 0#32 false (atReg addr isWideLo || (engOf addr).any (fun e => e.2 == 0x18)) s (fun w => w.onDev (addrRead m addr w.fuses))

def execWideLoWrite (m : Agent) (addr : Nat) (v : Word) (s : State) : Out :=
  okAt m addr v true (atReg addr (isAt wideRw)) s (addrWrite m addr v)

def execWideHiWrite (m : Agent) (addr : Nat) (v : Word) (s : State) : Out :=
  okAt m addr v true (atReg addr (fun b off => decide (4 ≤ off) && isAt wideRw b (off - 4))) s (addrWrite m addr v)

def execPeakRegWrite (m : Agent) (addr : Nat) (v : Word) (s : State) : Out :=
  okAt m addr v true (atReg addr isPeak) s (addrWrite m addr v)

/-- An access to an unlisted offset reads 0 or does nothing; one outside every region has the error response (R13). -/
def execUnmappedAccess (m : Agent) (write : Bool) (addr : Nat) (v : Word) (s : State) : Out :=
  okAt m addr v write (!listed m addr) s (if write then addrWrite m addr v else fun w => w.onDev (addrRead m addr w.fuses))

end Sys2Proof.Machine
end

