-- ==== Sys2Proof/Machine/Fabric.lean ====
section
/-!
DEFINITION. The fabric: requests, grants, locked sequences, accesses to stores and DRAM, the remap window, debug accesses (13_memory.md
R368, R369, R372 to R379; 03_crosspoint.md R80; 05_virif_engines.md R142 to R144; 15_consist_boot.md R431; 17_security_debug.md R469).
Marks (notes/assumptions): DESIGN CHOICE 7, 110; DEDUCED 15, 16, 17, 18, 19.
-/
namespace Sys2Proof.Machine

/-! ### Masters (R372) -/

/-- The agents that a master carries (R372). -/
def carries (m : Nat) (a : Option Agent) : Bool :=
  match a with
  | none => m == 5 || m == 6 || m == 7 || m == 10
  | some x =>
    let n := x.num
    if m < 4 then n == 4 + m
    else if m = 4 then decide (8 ≤ n) && decide (n ≤ 23)
    else if m = 8 ∨ m = 9 then n == 17 + m
    else if m = 11 then decide (1 ≤ n) && decide (n ≤ 3)
    else if m = 12 then n == 24
    else m == 13 && n == 31

/-- The bytes of a beat at a master's port (R372). -/
def portBytes (m : Nat) : Nat := if m ≤ 3 ∨ m = 11 then 8 else if m = 13 then 4 else 32

/-! ### Reads of stores (R80, R142, R368, R379) -/

/-- A node record as a number (R79). -/
def Node.image (n : Node) : Nat :=
  n.aGain + n.aDly * 2 ^ 24 + n.bGain * 2 ^ 36 + n.bDly * 2 ^ 60 + n.liveGain * 2 ^ 72 + n.liveWord.toNat * 2 ^ 96

/-- A byte of the node store. -/
def nodeByte (d : Dev) (a : Nat) : Byte :=
  let k := (a - 0x30000000) / 16
  byteOf (d.crm.node (k % 1024) (k / 1024)).image (a % 16)

/-- The address in its store: the remap window onto the control SRAM (R379). -/
def Dev.real (d : Dev) (a : Nat) : Nat := if a < 0x40000 && d.fb F.MS_REMAP_SWAP then 0x10000000 + a else a

/-- A byte as the fabric reads it at an address in its store. -/
def memByte (mem : List Host.Cell) (d : Dev) (a : Nat) : Byte :=
  if a < 0x40000 then Config.bootRom a
  else if inNodes a then nodeByte d a
  else if inVirif a then (if d.virifMem a then Memory.rd8 mem a else 0#8)
  else Memory.rd8 mem a

/-- Master `m` reads `n` bytes of a store or the boot ROM, which finds `ecc`; none is the error response. -/
def storeRead (mem : List Host.Cell) (m a n : Nat) (ecc : List EccHit) (d : Dev) : Option (List Byte) × Dev :=
  let r := readFinds storeUe m a n ecc d
  (if r.1 then none else some ((List.range n).map (fun i => memByte mem d (a + i))), r.2)

/-! ### Writes of stores (R80, R143, R368, R369, R431; 12_twin.md R345) -/

/-- The stores that a running load keeps closed: the shadow area, the source image, what the load writes (R431). -/
def Dev.closed (d : Dev) (a : Nat) : Bool :=
  match d.ld with
  | none => false
  | some l =>
    (decide (0x10080000 ≤ a) && decide (a < 0x10400000)) || inAudio a || (inVirif a && d.virifMem a) || inDram a ||
      (l.fromDram && decide (l.addr ≤ a) && decide (a < l.addr + l.len))

/-- Is a write refused before it reaches its store? -/
def Dev.wrRefused (d : Dev) (a : Nat) : Bool :=
  inNodes a || decide (a < 0x40000) || (inVirif a && d.virifMem a && !(d.inMode mShunt || d.inMode mInspection)) || d.closed a

/-- Agent `m` (none for a unit without one) writes bytes at an address in a store; true is the error response. -/
def storeWrite (ag : Option Agent) (m a : Nat) (ecc : List EccHit) (bs : List (Option Byte)) (mem : List Host.Cell) (d : Dev) :
    Bool × List Host.Cell × Dev :=
  if d.wrRefused a then (true, mem, d)
  else if d.mirrorHeld ag a bs.length then (true, mem, mirrorIgn d)
  else
    let bs := if inVirif a ∧ !d.virifMem a then [] else bs
    let r := bytesPut storeUe m a bs ecc mem d
    (r.1, r.2.1, mirrorLog (ag.getD .twin) a bs.length r.2.1 r.2.2)

/-! ### One access at its target -/

/-- Does the burst have a size and alignment that its target takes (R378)? -/
def sizeOk (t a n : Nat) : Bool :=
  if t = 11 ∨ t = 12 then (n == 4 && decide (a % 4 = 0)) || (n == 8 && decide (a % 8 = 0))
  else decide (0 < n) && decide (a % 4096 + n ≤ 4096)

/-- Does the target take the access: size and alignment, and at a bridge every byte of its words (R378)? -/
def FabReq.okAtTarget (q : FabReq) (t : Nat) : Bool :=
  sizeOk t q.addr q.size && (!(q.write && (t == 11 || t == 12)) || ((q.data.take q.size).length == q.size && (q.data.take q.size).all Option.isSome))

/-- The words of a byte list, little-endian. -/
def packWords (bs : List Byte) : List Word :=
  (List.range ((bs.length + 3) / 4)).map (fun i =>
    w32 ((List.range 4).foldl (fun n k => n + ((bs[4 * i + k]?).getD 0#8).toNat * 2 ^ (8 * k)) 0))

/-- An error response to agent `ag`. -/
def errTo (ag : Option Agent) (d : Dev) : Dev :=
  match ag with
  | some m => busErr m d
  | none => d.busError

/-- One word of an access through a bridge: a register, or a word of an engine's memory (R378; 05_virif_engines.md R142, R143). -/
def bridgeWord (t : Nat) (q : FabReq) (k : Nat) (w : World) : World :=
  let a := q.addr + 4 * k
  let bs := (q.data.drop (4 * k)).take 4
  if t = 11 ∨ (engOf a).isSome then
    match q.agent with
    | some ag => if q.write then (addrWrite ag a (wordOf bs) w).onDev (fun d => d.when (!d.resp.err) (fun d => d.answers []))
        else w.onDev (addrRead ag a w.fuses)
    | none => w.onDev (errTo none)
  else if q.write then
    let r := storeWrite q.agent q.master.val a q.ecc bs w.mem w.dev
    { w with mem := r.2.1, dev := if r.1 then errTo q.agent r.2.2 else r.2.2.answers [] }
  else
    let r := storeRead w.mem q.master.val a 4 q.ecc w.dev
    w.onDev (fun _ => match r.1 with
      | some bs => r.2.answers (packWords bs)
      | none => errTo q.agent r.2)

/-- An access through a bridge: a doubleword is two word accesses, the lower word first, each of which sends its vectors (00_scope.md R21; R378). -/
def bridgeAct (t : Nat) (q : FabReq) (w : World) : World :=
  let w1 := (bridgeWord t q 0 (w.onDev (fun d => d.answers []))).sends w
  if q.size = 8 then
    let w2 := (bridgeWord t q 1 (w1.onDev (fun d => d.answers []))).sends w1
    w2.onDev (fun d => if w1.dev.resp.err || d.resp.err then errTo q.agent d else d.answers (w1.dev.resp.data ++ d.resp.data))
  else w1

/-- An access to DRAM joins the controller's queue on the fabric port; one that must end in error ends there in its turn (R374, R381 to R383). A
write passes the checks that a store's does. -/
def dramAct (x : FabWait) (mem : Memory) (d : Dev) : Dev :=
  let q := x.req
  let n := min q.data.length q.size
  let held := q.write && d.mirrorHeld q.agent q.addr n
  let refuse := !q.okAtTarget 10 || (q.write && d.closed q.addr) || held
  let d := d.when (held && q.okAtTarget 10 && !d.closed q.addr) mirrorIgn
  let d := d.when (q.write && !refuse) (fun d => mirrorLog (q.agent.getD .twin) q.addr n (putBytes q.addr (q.data.take q.size) (d.seen mem)) d)
  if !d.cap.dram then (errTo q.agent d).when x.tap (tapDone q.write q.addr (wordOf q.data))
  else drEnqueue ⟨2, q.addr, q.write, 0, 0, q.size, q.data.take q.size, q.master.val, q.id.val, refuse, x.tap⟩ d

/-- A request acts at its target (R374, R378), and sends its vectors. -/
def fabAct (x : FabWait) (w : World) : World :=
  let q := x.req
  let t := x.tgt
  if t = 10 then (w.onDev (dramAct x w.mem)).sends w
  else
    let w' :=
      if !q.okAtTarget t then (w.onDev (errTo q.agent)).sends w
      else if t = 11 ∨ t = 12 then bridgeAct t q w
      else if q.write then
        let r := storeWrite q.agent q.master.val q.addr q.ecc (q.data.take q.size) w.mem w.dev
        { w with mem := r.2.1, dev := if r.1 then errTo q.agent r.2.2 else r.2.2.answers [] }.sends w
      else
        let r := storeRead w.mem q.master.val q.addr q.size q.ecc w.dev
        (w.onDev (fun _ => match r.1 with
          | some bs => r.2.answers (packWords bs)
          | none => errTo q.agent r.2)).sends w
    w'.onDev (fun d => d.when x.tap (tapDone q.write q.addr (if q.write then wordOf q.data else (d.resp.data[0]?).getD 0#32)))

/-! ### Issue, hold-back and arbitration (R374 to R376, R379) -/

/-- The effective priority at target `t` of a request that has waited for `wait` core cycles. -/
def Dev.effPrio (d : Dev) (t m wait : Nat) : Nat :=
  min 3 (bits (d.rd (R.TG_PRIO.of t)) (2 * m) 2 + wait / max 64 (d.f F.MS_AGE_CYC))

/-- The request that the target grants in core cycle `cyc`: of the highest effective priority, the first master after the one granted last. -/
def Dev.winner (d : Dev) (t : Nat) (write : Bool) (cyc : Nat) (qs : List FabWait) : Option FabWait :=
  let prio (x : FabWait) : Nat := d.effPrio t x.req.master.val (cyc - x.req.since)
  let top := qs.foldl (fun n x => max n (prio x)) 0
  let last := Tbl.getD d.ms.granted (2 * t + b2n write) 13
  let turn := (List.range 14).map (fun i => (last + 1 + i) % 14)
  turn.findSome? (fun m => qs.find? (fun x => x.req.master.val == m && prio x == top))

/-- Does the view of the request's agent hold its address (00_scope.md R23)? -/
def FabReq.inView (q : FabReq) : Bool :=
  match q.agent with
  | some m => m.reaches q.addr
  | none => true

/-- The requests of master `m` that are outstanding, of which it has at most 32 (R374). -/
def Dev.outstanding (d : Dev) (m : Nat) : Nat :=
  (d.ms.fq.filter (fun x => x.req.master.val == m)).length + (d.ms.drq.filter (fun e => e.port == 2 && e.master == m)).length

/-- May the master issue the request: its agent and its view of the addresses (00_scope.md R23), a burst of up to 16 beats (R376), fewer than 32
outstanding (the SPI host's words wait in its own buffer, 14_host_mailboxes.md R391), and an ID other than the self-check's on the debug port
(R380)? -/
def Dev.mayIssue (d : Dev) (q : FabReq) : Bool :=
  let b := portBytes q.master.val
  carries q.master.val q.agent && q.inView && decide (q.addr % b + q.size ≤ 16 * b) && (q.agent == some .spi || decide (d.outstanding q.master.val < 32)) &&
    !(q.master.val == 13 && q.id.val == 15)

/-- A request arrives: it waits at its target, at the address that the remap window gives it now (R379); at an address of no target it ends in error
(00_scope.md R13). -/
def issue (tap : Bool) (q : FabReq) (d : Dev) : Dev :=
  d.when (d.mayIssue q) (fun d => match d.targetOf q.addr with
    | none => (errTo q.agent d).when tap (tapDone q.write q.addr (wordOf q.data))
    | some t => d.onMs (fun x => { x with fq := x.fq ++ [⟨{ q with addr := d.real q.addr }, t, tap⟩] }))

/-- Is a request of master `m` with ID `i` to target `t`, issued after those of `before`, held back: an earlier one with that ID is outstanding, at
another target or, in order, at this one (R374, R375)? -/
def Dev.held (d : Dev) (before : List FabWait) (t m i : Nat) : Bool :=
  before.any (fun x => x.req.master.val == m && x.req.id.val == i) ||
    (t != 10 && d.ms.drq.any (fun e => e.port == 2 && e.master == m && e.id == i))

/-- The requests that target `t` may grant (R374, R375, R377). -/
def Dev.ripe (d : Dev) (t : Nat) (write : Bool) : List FabWait :=
  (d.ms.fq.zipIdx.filter (fun e => e.1.tgt == t && e.1.req.write == write && d.serves t e.1.req.master.val &&
    !d.held (d.ms.fq.take e.2) t e.1.req.master.val e.1.req.id.val)).map Prod.fst

/-! ### Locked sequences (R377) -/

/-- May the agent open locked sequences (R372)? -/
def Agent.locks (m : Agent) : Bool := (decide (4 ≤ m.num) && decide (m.num ≤ 7)) || m.num == 31

/-- A request to another target inside a sequence ends it. -/
def lockErr (t : Nat) (x : FabWait) (w : World) : World :=
  (w.onDev (fun d =>
    (errTo x.req.agent ((d.onMs (fun x => { x with locks := Tbl.del x.locks t })).evt Ev.MS_LOCK_ERR)).when x.tap
      (tapDone x.req.write x.req.addr (wordOf x.req.data)))).sends w

/-- A request that its target has granted: as the first locked access after its master's sequence timed out, or inside a sequence at another target,
it ends in error; a locked read opens a sequence but at a bridge and the boot ROM; the unlocking write ends it (R377). -/
def serve (x : FabWait) (w : World) : World :=
  let q := x.req
  let m := q.master.val
  if q.lock && w.dev.ms.late.contains m then
    w.onDev (fun d => errTo q.agent (d.onMs (fun y => { y with late := y.late.filter (fun e => e != m) })))
  else match w.dev.lockedBy m with
    | some u =>
      if u ≠ x.tgt then lockErr u x w
      else if q.lock && q.write then (fabAct x w).onDev (fun d => d.onMs (fun y => { y with locks := Tbl.del y.locks u }))
      else fabAct x w
    | none =>
      if q.lock && !q.write then
        if 11 ≤ x.tgt then w.onDev (errTo q.agent)
        else fabAct x (w.onDev (fun d => d.onMs (fun y => { y with locks := Tbl.put y.locks x.tgt m })))
      else fabAct x w

/-- The SPI host's words that follow one of its writes in error are ignored (14_host_mailboxes.md R391). -/
def spiAfter (x : FabWait) (d : Dev) : Dev :=
  d.when (x.req.agent == some .spi && d.resp.err) (fun d => d.onMs (fun y => { y with fq := y.fq.filter (fun z => z.req.agent != some .spi) }))

/-- Target `t` grants a burst (R376): the wait and the grant are recorded, and it is served. -/
def grantAt (t : Nat) (write : Bool) (cyc : Nat) (w : World) : World :=
  match w.dev.winner t write cyc (w.dev.ripe t write) with
  | none => w
  | some x =>
    let w := w.onDev (fun d =>
      (granted t x.req.master.val write (d.onMs (fun y => { y with fq := y.fq.erase x }))).peakF ⟨R.TG_WAIT_PEAK.of t, 0, 24⟩
        (min (cyc - x.req.since) (2 ^ 24 - 1)))
    (serve x w).onDev (spiAfter x)

/-- FABRIC_GRANT: what the masters have issued arrives, and the target grants a burst. -/
def fabricGrant (g : Grant) (w : World) : World :=
  grantAt g.tgt.val g.write g.cyc (g.reqs.foldl (fun w q => (w.onDev (issue false { q with lock := false })).sends w) w)

/-- A request is issued and its target grants a burst at once; a request that is not granted then waits. -/
def issueNow (tap : Bool) (q : FabReq) (w : World) : World :=
  let was := w.dev.ms.fq.length
  let w' := (w.onDev (issue tap q)).sends w
  if w'.dev.ms.fq.length = was then w'
  else match w.dev.targetOf q.addr with
    | some t => grantAt t q.write q.since w'
    | none => w'

/-- The request for one aligned word, issued now. -/
def Dev.wordReq (d : Dev) (m : Agent) (id : Fin 16) (write : Bool) (a : Nat) (v : Word) (lock : Bool) (ecc : List EccHit) : FabReq :=
  ⟨⟨m.master % 14, Nat.mod_lt _ (by decide)⟩, some m, id, d.now, write, a, 4, (List.range 4).map (fun i => some (byteOf v.toNat i)), lock, ecc⟩

def lockedRead (m : Agent) (a : Nat) (ecc : List EccHit) (w : World) : World :=
  w.when m.locks (issueNow false (w.dev.wordReq m 0 false a 0#32 true ecc))

def unlockingWrite (m : Agent) (a : Nat) (v : Word) (ecc : List EccHit) (w : World) : World :=
  w.when m.locks (issueNow false (w.dev.wordReq m 0 true a v true ecc))

/-- A sequence that is still open MS_LOCK_TO cycles after its read ends. -/
def lockTo (t : Nat) (w : World) : World :=
  match Tbl.get? w.dev.ms.locks t with
  | some m => w.onDev (fun d =>
      (d.onMs (fun x => { x with locks := Tbl.del x.locks t, late := if x.late.contains m then x.late else m :: x.late })).evt
        Ev.MS_LOCK_TO)
  | none => w

/-! ### DBG_MEM (17_security_debug.md R469) -/

/-- The addresses that level 2 reads: the status subset of R393 and every BLOCK_ID. -/
def statusAddr (a : Nat) : Bool :=
  [0x50000010, 0x5000000C, 0x500B0804, 0x500B0808, 0x500B080C, 0x500F001C].contains a ||
    (inPeriph a && a % 65536 == 0xFFC && decide (a < 0x50110000))

/-- DBG_MEM: the access is issued on the debug port; DONE rises as it completes. -/
def dbgMem (write : Bool) (a : Nat) (v : Word) (ecc : List EccHit) (w : World) : World :=
  let d := w.dev
  if d.dark then w
  else if d.inMode mSiding ∨ d.level < 2 then w.onDev tapBypass
  else
    let w := w.onDev (tapSet 0x13 (a % 2 ^ 40 + b2n write * 2 ^ 72))
    if d.level == 3 || (!write && statusAddr a) then issueNow true (d.wordReq .debug 0 write (a % 2 ^ 40) v false ecc) w
    else w.onDev (fun d => tapDone write a (if write then v else 0#32) d.busError)

/-! ### Meanings -/

def execFabricGrant (g : Grant) (s : State) : Out := .next (s.onAllWords (fun w => w.when (!w.dev.asleep) (fabricGrant g)))
def execLockedRead (m : Agent) (addr : Nat) (ecc : List EccHit) (s : State) : Out := .next (s.onAllWords (fun w => w.when (!w.dev.asleep) (lockedRead m addr ecc)))
def execUnlockingWrite (m : Agent) (addr : Nat) (v : Word) (ecc : List EccHit) (s : State) : Out := .next (s.onAllWords (fun w => w.when (!w.dev.asleep) (unlockingWrite m addr v ecc)))
def execLockTo (t : Nat) (s : State) : Out := .next (s.onAll (fun w => w.when (!w.dev.asleep) (lockTo t)))
def execDbgMem (write : Bool) (addr : Nat) (v : Word) (ecc : List EccHit) (s : State) : Out := .next (s.onAllWords (dbgMem write addr v ecc))

end Sys2Proof.Machine
end

