-- ==== Sys2Proof/Machine/Cars.lean ====
section
/-!
DEFINITION. The cars of a consist and the checks of their headers and contents (15_consist_boot.md R410 to R430; 18_variants_fuses.md
R486). A bit that a layout does not name is reserved.
Marks (notes/assumptions): DEDUCED 74.
-/
namespace Sys2Proof.Machine

/-! ### Car headers (R411 to R413) -/

def Car.type (c : Car) : Nat := bits c.w0 24 8
def Car.len (c : Car) : Nat := c.w1.toNat
def Car.inst (c : Car) : Nat := c.w2.toNat

def tHead : Nat := 0x01
def tFirmware : Nat := 0x02
def tMemory : Nat := 0x03
def tAttach : Nat := 0x04
def tQueues : Nat := 0x05
def tLayout : Nat := 0x06
def tCrm : Nat := 0x07
def tFeeds : Nat := 0x08
def tTaps : Nat := 0x09
def tEngine : Nat := 0x0A
def tGraph : Nat := 0x0B
def tRegs : Nat := 0x0C
def tSetup : Nat := 0x0D
def tTail : Nat := 0x7F

def knownType (t : Nat) : Bool := (decide (1 ≤ t) && decide (t ≤ 0x0D)) || t == tTail

/-- Word `i` of a list; absent words are 0. -/
def wd (ws : List Word) (i : Nat) : Word := (ws[i]?).getD 0#32

/-- The payload of the first car of a type. -/
def payOf (cs : List Car) (t : Nat) : List Word :=
  match cs.find? (fun c => c.type == t) with
  | some c => c.payload
  | none => []

def hasType (cs : List Car) (t : Nat) : Bool := cs.any (fun c => c.type == t)

/-- Bytes of the cars so far. -/
def imgBytes (cs : List Car) : Nat := cs.foldl (fun n c => n + 16 + c.len) 0

/-- HEAD's LENGTH and NCARS (R414). -/
def imgLen (cs : List Car) : Nat := (wd (payOf cs tHead) 1).toNat
def imgCars (cs : List Car) : Nat := bits (wd (payOf cs tHead) 2) 0 16

/-- A failure: its cause and DETAIL (R429), and the TYPE and SEQ of its car. -/
structure CarFail where
  cause : Nat
  detail : Nat
  type : Nat
  seq : Nat
  deriving DecidableEq, Repr

def formatFail : CarFail := ⟨3, 0, tHead, 0⟩

/-- Does the car at position `k` break a rule of R411 to R413 that R412 reports as CAR? -/
def headerBad (cs : List Car) (c : Car) : Bool :=
  let k := cs.length
  let t := c.type
  let prev := match cs.getLast? with
    | some p => p.type
    | none => 0
  let again := t == prev && !(t == tTaps || t == tEngine || t == tRegs)
  let missing := [tHead, tFirmware, tLayout, tCrm, tFeeds, tGraph].any (fun m => decide (m < t) && !hasType cs m)
  let inst := if t = tTaps then false else if t = tEngine then decide (c.inst ≥ 2 ^ 16) else c.inst != 0
  let taps := t == tTaps && cs.any (fun p => p.type == tTaps && decide (c.inst ≤ p.inst))
  !knownType t || bits c.w0 16 8 != 1 || bits c.w0 0 16 != 0 || c.len % 4 != 0 || c.w3.toNat != k || decide (t < prev) || again ||
    (k == 1) != (t == tFirmware) || missing || inst || taps

/-- The checks of a car header that arrives after the cars `cs`, with HEAD's own FORMAT checks (R412, R414). -/
def streamFail (cs : List Car) (c : Car) : Option CarFail :=
  let k := cs.length
  if k = 0 then
    let n := (wd c.payload 1).toNat
    if c.type ≠ tHead then some formatFail
    else if headerBad cs c then some ⟨4, 0, c.type, k⟩
    else if bits (wd c.payload 0) 0 16 ≠ 1 ∨ n % 4 ≠ 0 ∨ n < 64 ∨ n > 67108864 then some formatFail
    else if 16 + c.len > n then some ⟨4, 0, c.type, k⟩
    else none
  else
    let pos := imgBytes cs
    let n := imgLen cs
    if imgCars cs ≤ k then some formatFail
    else if headerBad cs c ∨ pos + 16 + c.len > n then some ⟨4, 0, c.type, k⟩
    else if c.type = tTail ∧ (k + 1 ≠ imgCars cs ∨ pos + 16 + c.len ≠ n) then some formatFail
    else none

/-- LENGTH cuts the next header short (R412). -/
def cutShort (cs : List Car) : Option CarFail :=
  if imgBytes cs + 16 > imgLen cs then some ⟨4, 0, 0, cs.length⟩ else none

/-! ### The tail (R415, R427, R428, R430) -/

def carBytes (c : Car) : List Byte := leBytes ([c.w0, c.w1, c.w2, c.w3] ++ c.payload)

/-- The bytes of the image but for the last `n`. -/
def imgFirst (cs : List Car) (n : Nat) : List Byte :=
  let bs := cs.flatMap carBytes
  bs.take (bs.length - n)

def slice (bs : List Byte) (k n : Nat) : List Byte := (bs.drop k).take n

/-- Is the tail car's signature valid under the key of the fuses? -/
def tailSigned (z : Fuses) (cs : List Car) : Bool :=
  let s := (leBytes (payOf cs tTail)).drop 8
  let hash := leBytes ((List.range 8).map (fun i => fuse z (8 + i)))
  (sha256 (slice s 0 64) == hash) && signed (slice s 0 32) (slice s 32 32) (slice s 64 32) (slice s 96 32) (imgFirst cs 64)

/-- Is the FIRMWARE car signed by Amivia? -/
def fwSigned (ws : List Word) : Bool :=
  let bs := leBytes ws
  let n := 8 + (wd ws 1).toNat
  sha256 (Config.amiviaKeyX ++ Config.amiviaKeyY) == Config.amiviaKeyHash &&
    signed Config.amiviaKeyX Config.amiviaKeyY (slice bs n 32) (slice bs (n + 32) 32) (bs.take n)

/-- The die revision as MINREV codes it, and as SYS_REV shows it (18_variants_fuses.md R487). -/
def dieRev : Nat := Config.dieLetter % 16 * 16 + Config.dieDigit % 10

/-- Stage 2 of R428. -/
def tailFail (z : Fuses) (cs : List Car) : Option CarFail :=
  let tail := payOf cs tTail
  let n := (tail.length - 1) * 4
  let sig := bit (wd tail 0) 0
  let seq := cs.length - 1
  let lc := lifeCycle z
  if crc32c (imgFirst cs n) ≠ wd tail 1 then some ⟨5, 0, tTail, seq⟩
  else if (lc = lcSealed ∧ !sig) ∨ ((lc = lcSealed ∨ lc = lcDev) ∧ sig ∧ !tailSigned z cs) then some ⟨6, 0, tTail, seq⟩
  else if !fwSigned (payOf cs tFirmware) then some ⟨7, 0, tFirmware, 1⟩
  else if bits (wd (payOf cs tHead) 3) 8 8 > dieRev then some ⟨8, dieRev, tHead, 0⟩
  else none

/-! ### Content conditions -/

/-- A cause and its DETAIL. -/
abbrev Cond := Nat × Nat

def cond (c : Bool) (cause detail : Nat) : List Cond := if c then [(cause, detail)] else []
def bad (c : Bool) (off : Nat) : List Cond := cond c 11 off

/-- Of a car's conditions: ABSENT, LIMIT, PAYLOAD, then GRAPH; of one cause the first (R428). -/
def firstCond (l : List Cond) : Option Cond := [9, 10, 11, 12].findSome? (fun c => l.find? (fun e => e.1 == c))

/-- Bits outside `mask`. -/
def stray (w : Word) (mask : Nat) : Bool := w &&& ~~~(w32 mask) ≠ 0#32

/-- A position that is not a signed 24-bit number. -/
def posBad (w : Word) : Bool := wOfInt (sgn 24 w.toNat) != w

def pos3Bad (off : Nat) (ws : List Word) (i : Nat) : List Cond :=
  (List.range 3).flatMap (fun k => bad (posBad (wd ws (i + k))) (off + 4 * (i + k)))

/-- The limits at a rate (00_scope.md R2): objects, feeds, taps. -/
def limitsAt (c : Caps) (fs : Nat) (axis : Bool) : Nat × Nat × Nat :=
  if fs = 1 ∨ fs = 3 then (if axis then c.objs else c.objs / 2, if axis then c.feeds / 2 else c.feeds, c.taps / 2)
  else (c.objs, c.feeds, c.taps)

/-! ### HEAD, FIRMWARE, MEMORY, ATTACH, QUEUES (R414 to R418) -/

def headConds (c : Caps) (ws : List Word) : List Cond :=
  let w := wd ws 3
  let init := bits w 4 3
  let fs := bits w 0 2
  cond (bit w 16 && !c.twin) 9 12 ++ bad (bits (wd ws 0) 16 16 != 0) 0 ++ bad (bits (wd ws 2) 16 16 != 0) 8 ++
    bad (stray w 0x3FF73 || decide (init < 2) || decide (init > 4) || (bit w 17 && (fs == 0 || fs == 2))) 12 ++
    bad (wd ws 4 == 0#32 && wd ws 5 == 0#32) 16 ++ bad (ws.length != 8) (4 * min 8 ws.length)

def firmwareConds (ws : List Word) : List Cond :=
  let n := (wd ws 1).toNat
  bad (n % 4 != 0 || decide (n > 2097152) || 4 * ws.length != 72 + n) 4

/-- The windows of a MEMORY car: base and length. -/
def memWindows (ws : List Word) : List (Nat × Nat) :=
  (List.range (min 16 (wd ws 1).toNat)).map (fun k => (pair (wd ws (2 + 3 * k)) (wd ws (3 + 3 * k)), (wd ws (4 + 3 * k)).toNat))

/-- Does a window lie in the control SRAM, in the audio store, or in a segment of USE? -/
def windowOk (use seg a n : Nat) : Bool :=
  (decide (0x10000000 ≤ a) && decide (a + n ≤ 0x10400000)) || (decide (0x20000000 ≤ a) && decide (a + n ≤ 0x22000000)) ||
    (decide (0 < seg) && (List.range 8).any (fun k =>
      decide ((use >>> k) % 2 = 1) && decide (drBase + k * seg ≤ a) && decide (a + n ≤ drBase + (k + 1) * seg)))

def memoryConds (c : Caps) (seg : Nat) (ws : List Word) : List Cond :=
  let w := wd ws 0
  let use := bits w 0 8
  let n := (wd ws 1).toNat
  let wins := (memWindows ws).zipIdx.flatMap (fun e =>
    let a := e.1.1
    let off := 8 + 12 * e.2
    bad (a % 4096 != 0 || (e.1.2 % 4096 == 0 && !windowOk use seg a e.1.2)) off ++ bad (decide (a ≥ 2 ^ 40)) (off + 4) ++
      bad (e.1.2 % 4096 != 0) (off + 8))
  cond (use != 0 && !c.dram) 9 13 ++ bad (stray w 0xFFF || (bit w 11 && (use >>> bits w 8 3) % 2 == 0)) 0 ++
    bad (decide (n > 16) || ws.length != 2 + 3 * n) 4 ++ wins

def attachConds (ws : List Word) : List Cond :=
  let one (e : Word × Nat) : List Cond :=
    let w := e.1
    let top := ([16, 2, 128, 0][bits w 28 2]?).getD 0
    let n := bits w 0 7
    bad (stray w 0xF07F3F7F || !bit w 31 || decide (top ≤ bits w 16 7) || n == 0 || decide (bits w 8 6 + n > 64)) (4 * e.2)
  cond (decide (ws.foldl (fun n w => n + bits w 0 7) 0 > 64)) 10 7 ++ bad ws.isEmpty 0 ++ bad (decide (ws.length > 16)) 64 ++
    (ws.take 16).zipIdx.flatMap one

/-- The graph queues of a QUEUES car: G, D, SLOT. -/
def queueList (ws : List Word) : List (Nat × Nat × Nat) :=
  (List.range (ws.length / 2)).map (fun k => (bits (wd ws (2 * k)) 0 6, bits (wd ws (2 * k)) 8 4, (wd ws (2 * k + 1)).toNat))

def queuesConds (ws : List Word) : List Cond :=
  let qs := queueList ws
  qs.zipIdx.flatMap (fun e =>
    let dup := (qs.take e.2).any (fun p => p.1 == e.1.1)
    bad (stray (wd ws (2 * e.2)) 0xF3F || e.1.2.1 == 0 || dup) (8 * e.2) ++
      bad (e.1.2.2 == 0 || decide (e.1.2.2 > 32768)) (8 * e.2 + 4)) ++ bad (ws.length % 2 != 0) (4 * (ws.length - 1))

/-! ### LAYOUT (R419) -/

/-- An entry of a layout section: its KIND, offset and words. -/
structure LEnt where
  kind : Nat
  off : Nat
  ws : List Word
  deriving DecidableEq, Repr

/-- Words of an entry that begins with word `w`. -/
def entLen (kind : Nat) (w : Word) : Nat :=
  match kind with
  | 1 => 7
  | 2 => 23
  | 3 => 12
  | 4 => 1 + 2 * bits w 16 7
  | 5 => 8 + 7 * bits w 16 10
  | 6 => 6
  | _ => 1

/-- `n` entries from offset `off`; then the offset and words that follow, and whether the payload held them. -/
def secEnts (kind : Nat) : (n : Nat) → (off : Nat) → List Word → List LEnt × Nat × List Word × Bool
  | 0, off, ws => ([], off, ws, true)
  | _ + 1, off, [] => ([], off, [], false)
  | n + 1, off, w :: ws =>
    let l := entLen kind w
    if ws.length + 1 < l then ([], off, [], false)
    else
      let r := secEnts kind n (off + 4 * l) ((w :: ws).drop l)
      (⟨kind, off, (w :: ws).take l⟩ :: r.1, r.2)

/-- The sections, as KIND, COUNT and offset, and every entry; a section whose words end early ends the payload. -/
def layoutSecs : (fuel : Nat) → (off : Nat) → List Word → List (Nat × Nat × Nat × Bool) × List LEnt
  | 0, _, _ => ([], [])
  | _ + 1, _, [] => ([], [])
  | f + 1, off, h :: ws =>
    let k := bits h 24 8
    let n := bits h 0 24
    if k = 0 ∨ k > 7 then ([(k, n, off, false)], [])
    else
      let r := secEnts k n (off + 4) ws
      let t := if r.2.2.2 then layoutSecs f r.2.1 r.2.2.1 else ([], [])
      ((k, n, off, r.2.2.2) :: t.1, r.1 ++ t.2)

def layoutOf (ws : List Word) : List (Nat × Nat × Nat × Bool) × List LEnt := layoutSecs ws.length 0 ws

def kindOf (es : List LEnt) (k : Nat) : List LEnt := es.filter (fun e => e.kind == k)

/-- The counts of R60: LIMIT 8, and LIMIT 1 for objects. -/
def countConds (lim : Nat × Nat × Nat) (s : Nat × Nat × Nat × Bool) : List Cond :=
  let n := s.2.1
  match s.1 with
  | 1 => cond (decide (n > lim.2.1)) 10 8
  | 2 => cond (decide (n > 64)) 10 8
  | 3 => cond (n != 0 && (decide (n < 4) || decide (n > 4096))) 10 8
  | 4 => cond (decide (n > 256)) 10 8
  | 5 => cond (decide (n > 16)) 10 8
  | 6 => cond (n != 1) 10 8
  | 7 => cond (decide (n > lim.1)) 10 1
  | _ => []

/-- An entry's own conditions, given the numbers of speakers, virtual speakers and triangles. -/
def entConds (ns nv nt : Nat) (e : LEnt) : List Cond :=
  let w (i : Nat) : Word := wd e.ws i
  let o (i : Nat) : Nat := e.off + 4 * i
  let vert (v : Nat) : Bool := decide (v < ns) || (decide (1024 ≤ v) && decide (v < 1024 + nv))
  match e.kind with
  | 1 => bad (stray (w 0) 0xF03FF) (o 0) ++ pos3Bad e.off e.ws 1
  | 2 =>
    let n := bits (w 6) 0 4
    pos3Bad e.off e.ws 0 ++ bad (stray (w 6) 0xF || n == 0 || decide (n > 8)) (o 6) ++
      (List.range 8).flatMap (fun k =>
        let a := w (7 + 2 * k)
        if k < n then bad (stray a 0x3FF || decide (ns ≤ a.toNat)) (o (7 + 2 * k))
        else bad (a != 0#32) (o (7 + 2 * k)) ++ bad (w (8 + 2 * k) != 0#32) (o (8 + 2 * k)))
  | 3 =>
    bad (stray (w 0) 0x07FF07FF || !vert (bits (w 0) 0 11) || !vert (bits (w 0) 16 11)) (o 0) ++
      bad (stray (w 1) 0x0FFF07FF || !vert (bits (w 1) 0 11) || decide (nt ≤ bits (w 1) 16 12)) (o 1) ++
      bad (stray (w 2) 0x0FFF0FFF || decide (nt ≤ bits (w 2) 0 12) || decide (nt ≤ bits (w 2) 16 12)) (o 2)
  | 4 =>
    let t := bits (w 0) 16 7
    bad (stray (w 0) 0x7F00FF || t == 0 || decide (t > 64)) (o 0) ++ (List.range t).flatMap (fun k =>
      bad (stray (w (1 + 2 * k)) 0x07FF03FF) (o (1 + 2 * k)) ++ bad (stray (w (2 + 2 * k)) 0xFFFFFF) (o (2 + 2 * k)))
  | 5 =>
    let k := bits (w 0) 16 10
    bad (stray (w 0) 0x3FF000F || k == 0 || decide (k > 512)) (o 0) ++ bad (stray (w 1) 0x7FF) (o 1) ++ pos3Bad e.off e.ws 2 ++
      (List.range k).flatMap (fun j => bad (stray (w (8 + 7 * j)) 0x3FF) (o (8 + 7 * j)) ++ pos3Bad e.off e.ws (9 + 7 * j))
  | 6 => pos3Bad e.off e.ws 0 ++ pos3Bad e.off e.ws 3
  | _ => bad (stray (w 0) 0x3FF) (o 0)

/-- The number by which an entry of KIND 4, 5 or 7 is told from another: bed entry, group, input. -/
def entName (e : LEnt) : Nat := bits (wd e.ws 0) 0 (if e.kind = 4 then 8 else if e.kind = 5 then 4 else 10)

def layoutConds (lim : Nat × Nat × Nat) (ws : List Word) : List Cond :=
  let p := layoutOf ws
  let es := p.2
  let secs := p.1.zipIdx.flatMap (fun e =>
    countConds lim e.1 ++ bad (!e.1.2.2.2 || (p.1.take e.2).any (fun s => s.1 == e.1.1)) e.1.2.2.1)
  let named := [4, 5, 7].flatMap (fun k =>
    let xs := kindOf es k
    xs.zipIdx.flatMap (fun e => bad ((xs.take e.2).any (fun x => entName x == entName e.1)) e.1.off))
  secs ++ es.flatMap (entConds (kindOf es 1).length (kindOf es 2).length (kindOf es 3).length) ++ named

/-- The CRM inputs of the objects, in order. -/
def objInputs (es : List LEnt) : List Nat := (kindOf es 7).map entName

/-- The feeds that the layout names. -/
def layoutFeeds (es : List LEnt) : List Nat :=
  es.flatMap (fun e =>
    match e.kind with
    | 1 => [bits (wd e.ws 0) 0 10]
    | 4 => (List.range (bits (wd e.ws 0) 16 7)).map (fun k => bits (wd e.ws (1 + 2 * k)) 0 10)
    | 5 => (List.range (bits (wd e.ws 0) 16 10)).map (fun j => bits (wd e.ws (8 + 7 * j)) 0 10)
    | _ => [])

/-! ### CRM (R420) -/

def crmNin (ws : List Word) : Nat := bits (wd ws 0) 0 11
def crmNout (ws : List Word) : Nat := bits (wd ws 0) 16 11
def crmNmap (ws : List Word) : Nat := min (wd ws 1).toNat ws.length
def crmMaps (ws : List Word) : List Word := (ws.drop 2).take (crmNmap ws)
def crmNrec (ws : List Word) : Nat := min (wd ws (2 + crmNmap ws)).toNat ws.length
def crmRecs (ws : List Word) : List (Word × Word) :=
  (List.range (crmNrec ws)).map (fun r => (wd ws (3 + crmNmap ws + 2 * r), wd ws (4 + crmNmap ws + 2 * r)))

/-- The queue of a map word. -/
def mapQ (w : Word) : Nat :=
  let i := bits w 16 7
  match bits w 12 3 with
  | 1 => i
  | 2 => 256 + i
  | 3 => 288 + i
  | 4 => 292
  | _ => 320 + i

def mapBad (qs : List Nat) (w : Word) : Bool :=
  let i := bits w 16 7
  let ch := bits w 24 8
  stray w 0xFF7F73FF || (match bits w 12 3 with
    | 1 => false
    | 2 => decide (i > 15) || decide (ch > 31)
    | 3 => decide (i > 1) || decide (ch > 1)
    | 4 => i != 0 || decide (ch > 7)
    | 5 => !qs.contains i
    | _ => true)

def crmConds (c : Caps) (fs : Nat) (lim : Nat × Nat × Nat) (qs : List Nat) (es : List LEnt) (ws : List Word) : List Cond :=
  let nin := crmNin ws
  let nout := crmNout ws
  let maps := crmMaps ws
  let objs := objInputs es
  let base := 12 + 4 * crmNmap ws
  cond (maps.any (fun w => bits w 12 3 == 2 && !c.tdm16 && decide (8 ≤ bits w 16 7) && decide (bits w 16 7 ≤ 15))) 9 6 ++
    cond (maps.any (fun w => bits w 12 3 == 4) && !c.analog) 9 10 ++
    cond (decide (nout > lim.2.1)) 10 2 ++ cond (decide (nin > 1024)) 10 3 ++
    cond (decide (nin * nout * fsHz fs > 50331648000)) 10 4 ++
    bad (stray (wd ws 0) 0x07FF07FF || nin == 0 || nout == 0 || objs.any (fun i => decide (nin ≤ i)) ||
      (layoutFeeds es).any (fun f => decide (nout ≤ f))) 0 ++
    bad (decide (2 + (wd ws 1).toNat > ws.length)) 4 ++
    maps.zipIdx.flatMap (fun e =>
      let i := bits e.1 0 10
      bad (mapBad qs e.1 || decide (nin ≤ i) || (maps.take e.2).any (fun w => bits w 0 10 == i)) (8 + 4 * e.2)) ++
    bad (3 + (wd ws 1).toNat + 2 * (wd ws (2 + crmNmap ws)).toNat != ws.length) (base - 4) ++
    (crmRecs ws).zipIdx.flatMap (fun e =>
      let i := bits e.1.1 0 10
      bad (decide (nin ≤ i) || decide (nout ≤ bits e.1.1 10 10) || objs.contains i) (base + 8 * e.2) ++
        bad (bits e.1.2 23 9 != 0) (base + 8 * e.2 + 4))

/-! ### FEEDS, TAPS (R116, R122, R134, R421, R422) -/

def feedRec (ws : List Word) (o : Nat) : List Word := (ws.drop (93 * o)).take 93

/-- The layout of a feed's record. -/
def recLayout (r : List Word) : FirLayout :=
  ⟨bit (wd r 0) 29, bits (wd r 1) 0 5, bits (wd r 1) 8 5, bits (wd r 1) 16 5, bits (wd r 1) 24 5⟩

/-- Coverage, 0 without FIR. -/
def recTaps (r : List Word) : Nat := if (recLayout r).on then (recLayout r).cover else 0

/-- The classes begin early enough, and the coverage is in range (R116). -/
def FirLayout.good (l : FirLayout) : Bool :=
  let k128 := 32 + 32 * l.n32
  let k512 := k128 + 128 * l.n128
  let k2048 := k512 + 512 * l.n512
  let ok (p k n : Nat) : Bool := n == 0 || decide (2 * p ≤ k + 32)
  ok 32 32 l.n32 && ok 128 k128 l.n128 && ok 512 k512 l.n512 && ok 2048 k2048 l.n2048 && decide (l.cover ≤ 65536)

/-- A destination word (R131, R140). -/
def destBad (w : Word) : Bool :=
  if !bit w 31 then w != 0#32
  else
    let p := bits w 16 7
    let ch := bits w 8 0 + bits w 0 8
    stray w 0xC77F00FF || (match bits w 24 3 with
      | 0 => decide (p > 15) || decide (ch > 31)
      | 1 => decide (p > 1) || decide (ch > 1)
      | 2 => false
      | 3 => p != 0 || decide (ch > 11)
      | _ => true)

/-- What a destination is told by: type, port, channel. -/
def destName (w : Word) : Nat := w.toNat % 2 ^ 27

def feedWordsBad (o : Nat) (r : List Word) (i : Nat) : Bool :=
  let w := wd r i
  let cap := (wd r 2).toNat
  let l := recLayout r
  match i with
  | 0 => stray w 0xFF0003FF || bits w 0 10 != o
  | 1 => stray w 0x1F1F1F1F || (if l.on then !l.good else w != 0#32)
  | 2 => decide (cap > (if bit (wd r 0) 31 then 48000 else 1023))
  | 3 => decide (w.toNat > cap)
  | 4 => stray w 0x1FFFF
  | 5 => stray w 0x8000FFFF || decide (0 < sgn 16 w.toNat) || decide (sgn 16 w.toNat < -3072)
  | 6 => stray w 0x1FFFFFFF
  | 7 => stray w 0x3FF
  | 12 => stray w 0x8000FFFF
  | _ => if 8 ≤ i ∧ i ≤ 11 then destBad w else false

/-- Traffic of a feed in DRAM, in bytes per second, a crossfade-allowed feed counted twice (R134). -/
def recTraffic (fs : Nat) (r : List Word) : Nat :=
  8 * fsHz fs * (b2n (bit (wd r 0) 31) + (recLayout r).dram.foldl (fun n c => n + 2 * c.2 + 1) 0) * (if bit (wd r 0) 30 then 2 else 1)

def feedsConds (c : Caps) (fs nout : Nat) (lim : Nat × Nat × Nat) (ws : List Word) : List Cond :=
  let rs := (List.range nout).map (fun o => feedRec ws o)
  let dests := (List.range (4 * nout)).map (fun k => wd (feedRec ws (k / 4)) (8 + k % 4))
  let on (t : Nat) (w : Word) : Bool := bit w 31 && bits w 24 3 == t
  cond (dests.any (fun w => on 0 w && !c.tdm16 && decide (8 ≤ bits w 16 7) && decide (bits w 16 7 ≤ 15))) 9 6 ++
    cond (dests.any (on 3) && !c.analog) 9 11 ++
    cond (!c.dram && rs.any (fun r => bit (wd r 0) 31 || decide (bits (wd r 2) 0 16 > 1023))) 9 13 ++
    cond (decide (rs.foldl (fun n r => n + recTaps r * (if bit (wd r 0) 30 then 2 else 1)) 0 > lim.2.2)) 10 5 ++
    cond (c.dram && decide (rs.foldl (fun n r => n + recTraffic fs r) 0 > 15360000000)) 10 6 ++
    rs.zipIdx.flatMap (fun e => (List.range 13).flatMap (fun i => bad (feedWordsBad e.2 e.1 i) (372 * e.2 + 4 * i))) ++
    dests.zipIdx.flatMap (fun e =>
      bad (bit e.1 31 && (dests.take e.2).any (fun w => bit w 31 && destName w == destName e.1)) (372 * (e.2 / 4) + 32 + 4 * (e.2 % 4))) ++
    bad (ws.length != 93 * nout) (4 * min ws.length (93 * nout))

def tapsConds (nout : Nat) (feeds : List Word) (c : Car) : List Cond :=
  let r := feedRec feeds c.inst
  let n := if c.inst < nout then recTaps r else 0
  bad (n == 0) 0 ++ bad (decide (c.payload.length > n)) (4 * n)

/-! ### ENGINE (R423) -/

/-- The sections of an ENGINE car: KIND, START, COUNT, offset, words; none where the payload ends early. -/
def engSecs : (fuel : Nat) → (off : Nat) → List Word → List (Nat × Nat × Nat × Nat × Option (List Word))
  | 0, _, _ => []
  | _ + 1, _, [] => []
  | _ + 1, off, [h] => [(bits h 24 8, bits h 0 24, 0, off, none)]
  | f + 1, off, h :: n :: ws =>
    let l := n.toNat * (if bits h 24 8 = 1 then 2 else 1)
    if ws.length < l then [(bits h 24 8, bits h 0 24, n.toNat, off, none)]
    else (bits h 24 8, bits h 0 24, n.toNat, off, some (ws.take l)) :: engSecs f (off + 8 + 4 * l) (ws.drop l)

def engineConds (c : Caps) (before : List Car) (car : Car) : List Cond :=
  let m := car.inst
  let dup := before.any (fun p => p.type == tEngine && p.inst &&& m != 0)
  cond (decide (m ≥ 2 ^ c.engines)) 9 2 ++ bad dup 0 ++ (engSecs car.payload.length 0 car.payload).flatMap (fun s =>
    let top := if s.1 = 1 then 8192 else 32768
    bad (s.1 == 0 || decide (s.1 > 3) || decide (s.2.1 ≥ 2 ^ 15) || decide (s.2.1 + s.2.2.1 > top)) s.2.2.2.1 ++
      bad s.2.2.2.2.isNone (s.2.2.2.1 + 4))

/-! ### GRAPH, REGS, SETUP, TAIL (R424 to R427) -/

def carGraph (c : Caps) (qs : List Nat) (ws : List Word) : Sum (Nat × Nat) Graph :=
  graphOf (wd ws) (fun k => decide (ws.length ≤ k)) c.engines (fun g => qs.contains g)

def graphConds (c : Caps) (qs : List Nat) (ws : List Word) : List Cond :=
  let n := graphWords (wd ws 0) (wd ws 1)
  bad (decide (n < ws.length)) (4 * n) ++ (match carGraph c qs ws with
    | .inl f => [(12, f.1 * 2 ^ 12 + f.2)]
    | .inr _ => [])

def regPairs (ws : List Word) : List (Nat × Word) :=
  (List.range (ws.length / 2)).map (fun k => ((wd ws (2 * k)).toNat, wd ws (2 * k + 1)))

/-- A REGS pair that asks for what the variant lacks (18_variants_fuses.md R486). -/
def pairAbsent (c : Caps) (a : Nat) (v : Word) : List Cond :=
  cond (a == 0x50060000 && !c.tdm16 && decide (8 ≤ bits v 0 16) && decide (bits v 0 16 ≤ 15)) 9 6 ++
    cond ((a == 0x50070200 || a == 0x50070300) && decide (bits v 28 2 > c.netMax)) 9 7 ++
    cond (!c.netb && ((a == 0x50070300 && bit v 31) || (a == 0x50070100 && (bits v 29 2 == 1 || bits v 29 2 == 2)))) 9 7

def regsConds (c : Caps) (ws : List Word) : List Cond :=
  (regPairs ws).zipIdx.flatMap (fun e =>
    let a := e.1.1
    pairAbsent c a e.1.2 ++ bad (a % 4 != 0 || decide (a < 0x50020000) || decide (0x500E0000 ≤ a) ||
      [0x500D020C, 0x500D0208, 0x500D0010].contains a) (8 * e.2)) ++ bad (ws.length % 2 != 0) (4 * (ws.length - 1))

/-- The commands of a SETUP car with their offsets; none where the payload ends early. -/
def setupCmds : (fuel : Nat) → (off : Nat) → List Word → List (Nat × Option (List Word))
  | 0, _, _ => []
  | _ + 1, _, [] => []
  | f + 1, off, h :: ws =>
    let l := bits h 16 5
    if ws.length < l then [(off, none)] else (off, some (h :: ws.take l)) :: setupCmds f (off + 4 + 4 * l) (ws.drop l)

def setupConds (ws : List Word) : List Cond :=
  (setupCmds ws.length 0 ws).flatMap (fun e =>
    bad (match e.2 with
      | some (h :: _) => bits h 0 16 != 0x40 || bit h 20 || bit h 21 || bit h 22 || bit h 23
      | _ => true) e.1)

def tailConds (ws : List Word) : List Cond :=
  bad (stray (wd ws 0) 1 || ws.length != (if bit (wd ws 0) 0 then 34 else 2)) 0

/-! ### Stages 3 and 4 (R416, R428) -/

/-- The bytes of the shadow area that a car takes (R431). -/
def Car.shadow (c : Car) : Nat :=
  if [tMemory, tLayout, tCrm, tTaps, tEngine].contains c.type then 0 else 16 + c.len

/-- A car's content conditions, given the cars before it. -/
def carConds (c : Caps) (seg : Nat) (before : List Car) (car : Car) : List Cond :=
  let ws := car.payload
  let h := wd (payOf before tHead) 3
  let fs := bits h 0 2
  let lim := limitsAt c fs (bit h 17)
  let qs := (queueList (payOf before tQueues)).map Prod.fst
  let nout := crmNout (payOf before tCrm)
  let used := before.foldl (fun n x => n + x.shadow) 0
  let own : List Cond :=
    match car.type with
    | 0x01 => headConds c ws
    | 0x02 => firmwareConds ws
    | 0x03 => memoryConds c seg ws
    | 0x04 => attachConds ws
    | 0x05 => queuesConds ws
    | 0x06 => layoutConds lim ws
    | 0x07 => crmConds c fs lim qs (layoutOf (payOf before tLayout)).2 ws
    | 0x08 => feedsConds c fs nout lim ws
    | 0x09 => tapsConds nout (payOf before tFeeds) car
    | 0x0A => engineConds c before car
    | 0x0B => graphConds c qs ws
    | 0x0C => regsConds c ws
    | 0x0D => setupConds ws
    | _ => tailConds ws
  own ++ cond (decide (used ≤ 0x380000) && decide (used + car.shadow > 0x380000)) 10 9

/-- The first content failure, cars in image order. -/
def contentFail (c : Caps) (seg : Nat) (before after : List Car) : Option CarFail :=
  match after with
  | [] => none
  | x :: rest =>
    match firstCond (carConds c seg before x) with
    | some e => some ⟨e.1, e.2, x.type, before.length⟩
    | none => contentFail c seg (before ++ [x]) rest

def up4k (n : Nat) : Nat := (n + 4095) / 4096 * 4096

/-- Where an allocation of `n` bytes from `p` lands: past every blocked range in its way (R416). -/
def allocAt (ranges : List (Nat × Nat)) (n : Nat) : (fuel : Nat) → (p : Nat) → Nat
  | 0, p => p
  | f + 1, p =>
    match ranges.find? (fun r => decide (p < r.2) && decide (r.1 < p + n)) with
    | some r => allocAt ranges n f (up4k r.2)
    | none => p

/-- The allocations of a feed (R416). -/
def recAllocs (r : List Word) : List Nat :=
  let banks := if bit (wd r 0) 30 then 2 else 1
  (if bit (wd r 0) 31 then [up4k (4 * ((wd r 2).toNat + 64))] else []) ++
    (recLayout r).dram.flatMap (fun c => List.replicate banks (up4k (8 * c.1 * (2 * c.2 + 1))))

/-- Stage 4: training has failed, or an allocation finds no place. -/
def memoryFail (d : Dev) (cs : List Car) : Option CarFail :=
  let seg := d.segBytes
  let ws := payOf cs tMemory
  let w := wd ws 0
  let use := bits w 0 8
  let segs := (List.range 8).filter (fun k => (use >>> k) % 2 == 1)
  let feeds := payOf cs tFeeds
  let sizes := (List.range (crmNout (payOf cs tCrm))).flatMap (fun o => recAllocs (feedRec feeds o))
  let test := if bit w 11 then
      let top := (bits w 8 3 + 1) * seg - 4096
      [(top - 2 ^ 20, top)]
    else []
  let wins := ((memWindows ws).filter (fun x => decide (drBase ≤ x.1))).map (fun x => (x.1 - drBase, x.1 - drBase + x.2))
  let outside := ((List.range 8).filter (fun k => (use >>> k) % 2 == 0)).map (fun k => (k * seg, (k + 1) * seg))
  let ranges := outside ++ test ++ wins
  let place (p : Option Nat) (n : Nat) : Option Nat :=
    match p with
    | none => none
    | some q =>
      let a := allocAt ranges n (ranges.length + 1) (up4k q)
      if a + n ≤ (segs.getLastD 0 + 1) * seg then some (a + n) else none
  let fails := !segs.isEmpty && d.f F.DR_STATUS_STATE == drFail
  let full := !sizes.isEmpty && (segs.isEmpty || (sizes.foldl place (some (segs.headD 0 * seg))).isNone)
  let k := cs.findIdx (fun c => c.type == tMemory)
  if d.cap.dram && (fails || full) then
    some (if hasType cs tMemory then ⟨13, 0, tMemory, k⟩ else ⟨13, 0, 0, 0⟩)
  else none

end Sys2Proof.Machine
end

