-- ==== Sys2Proof/Machine/Commit.lean ====
section
/-!
DEFINITION. The start of a consist load, the commit, and the factory default consist (15_consist_boot.md R429, R431 to R433, R438; and
R60, R100, R112, R122, R137, R176, R180, R273 of the units' chapters). A commit is one command's effect: no other command acts while
CFG_STATUS.STATE would read TAIL, CHECK, COMMIT or SETUP.
Marks (notes/assumptions): DESIGN CHOICE 29, 75, 86, 88, 103; DEDUCED 66, 73, 76, 91, 92.
-/
namespace Sys2Proof.Machine

/-! ### PTP_SET (14_host_mailboxes.md R407; 09_time_references.md R261), which a SETUP car holds too -/

/-- PTP_SET with its argument words: a status of R405, and the domains that firmware runs. -/
def ptpSet (ws : List Word) (d : Dev) : Nat × Dev :=
  let w (i : Nat) : Word := wd ws i
  let x : PtpCfg := ⟨(Config.ptpPort (w 0)).val, (Config.ptpInst (w 0)).val, Config.ptpProfile (w 0), Config.ptpDomP (w 1), Config.ptpDomS (w 1),
    Config.ptpRole (w 2)⟩
  if ws.length ≠ 3 ∨ !x.legal then (2, d)
  else if !d.npHas x.port then (5, d)
  else (0, d.onTu (fun t => { t with ptp := t.ptp.filter (fun y => y.port != x.port || y.inst != x.inst) ++ [x] }))

/-! ### The start of a load (R431) -/

def shadowBase : Nat := 0x10080000
def shadowEnd : Nat := 0x10400000

/-- The stores that a load clears; their uncorrectable words are replaced, in store 7 all of them (13_memory.md R369; DESIGN CHOICE, log 92). -/
def loadClear (w : World) : World :=
  let mem := Memory.clear (Memory.clear w.mem 0x40000000 0x1000000) shadowBase (shadowEnd - shadowBase)
  let d := w.dev.onCrm (fun c => { c with nodes := [] })
  let d := d.onCce (fun c => { c with feeds := c.feeds.map (fun e => (e.1, { e.2 with bankA := .reset, bankB := .reset })) })
  let d := d.onGsv (fun g => { g with layout := .empty })
  let d := d.onMs (fun x => { x with bad := x.bad.filter (fun e =>
    !(e.1 == 1 || e.1 == 2 || e.1 == 7 || (e.1 == 4 && decide (0x10000 ≤ e.2) && decide (e.2 < 0x80000)))) })
  { w with mem := mem, dev := d }

/-! ### What a commit builds -/

/-- A consist as the commit applies it. -/
structure Plan where
  fs : Nat
  init : Nat
  seed : Nat
  axis : Bool
  twin : Bool
  nin : Nat
  nout : Nat
  maps : List Word
  feeds : List (List Word)
  attach : List Word
  queues : List (Nat × Nat × Nat)
  graph : Graph
  pairs : List (Nat × Word)
  setup : List (List Word)
  windows : List (Nat × Nat)
  test : Option Nat
  fwVer : Word
  fwCode : List Word
  check : Word
  len : Nat
  src : Nat
  deriving DecidableEq, Repr

/-- The plan of a checked image (R414 to R427). -/
def planOf (c : Caps) (cs : List Car) (src : Nat) : Plan :=
  let head := payOf cs tHead
  let crm := payOf cs tCrm
  let mem := payOf cs tMemory
  let qs := queueList (payOf cs tQueues)
  let fw := payOf cs tFirmware
  let h := wd head 3
  let setup := payOf cs tSetup
  { fs := bits h 0 2, init := bits h 4 3, seed := pair (wd head 4) (wd head 5), axis := bit h 17, twin := bit h 16,
    nin := crmNin crm, nout := crmNout crm, maps := crmMaps crm,
    feeds := (List.range (crmNout crm)).map (feedRec (payOf cs tFeeds)),
    attach := payOf cs tAttach, queues := qs,
    graph := (match carGraph c (qs.map Prod.fst) (payOf cs tGraph) with
      | .inr g => g
      | .inl _ => .empty),
    pairs := (cs.filter (fun x => x.type == tRegs)).flatMap (fun x => regPairs x.payload),
    setup := (setupCmds setup.length 0 setup).filterMap Prod.snd,
    windows := memWindows mem, test := if bit (wd mem 0) 11 then some (bits (wd mem 0) 8 3) else none,
    fwVer := wd fw 0, fwCode := (fw.drop 2).take ((wd fw 1).toNat / 4),
    check := wd (payOf cs tTail) 1, len := imgLen cs, src := src }

/-- A stage item alone in a graph (06_signal_box.md R178). -/
def stageItem (kind : Nat) : Desc := { Desc.zero with w0 := w32 (kind * 2 ^ 29) }

/-- A feed record with nothing but one destination (R421, R438): DLY 0, TRIM 0 dB, no limiter, RAMP 1, every section bypassed. -/
def plainFeed (o : Nat) (dest : Option Word) : List Word :=
  [w32 o, 0#32, 0#32, 0#32, 0#32, 0#32, w32 R.FC_LIM_TIME.rst, w32 R.FC_MUTE.rst, dest.getD 0#32, 0#32, 0#32, 0#32, 0xFFFF#32]

/-- The factory default consist (R438). `speed` is what the PHY reports. -/
def defaultPlan (c : Caps) (init speed : Nat) : Plan :=
  let a := c.analog
  let n := if a then 12 else 1
  { fs := 0, init := init, seed := 1, axis := false, twin := false, nin := if a then 8 else 1, nout := n,
    maps := if a then (List.range 8).map (fun i => w32 (i * 2 ^ 24 + 4 * 2 ^ 12 + i)) else [],
    feeds := (List.range n).map (fun o => plainFeed o (if a then some (w32 (2 ^ 31 + 3 * 2 ^ 24 + o)) else none)),
    attach := [], queues := [], graph := ⟨[stageItem 1, stageItem 2], []⟩,
    pairs := [(R.RC_CFG.addr, 0x80000322#32), ((R.RI_CFG.at 7).addr, 0x80000000#32),
      ((R.NP_CFG.at 2).addr, w32 (2 ^ 31 + speed % 3 * 2 ^ 28))],
    setup := [], windows := [], test := none, fwVer := Config.defaultFirmware, fwCode := [], check := 0#32, len := 0, src := 0 }

/-! ### The commit (R432) -/

/-- The fields of a unit that a commit leaves in SOLO, DETACHED or FAULTED (12_twin.md R340, R364): its state and its pins. -/
def twinKept : List Fld := [F.STATUS_TWN_STATE, F.STATUS_TWN_OK_PIN, F.STATUS_TWN_ACT_PIN]

/-- Step 1: registers at their reset values, but for the jack-sense registers, which no reset but the power-on reset clears
(10_analog_inputs.md R316, R319); of the DRAM, what training found stays, and of the twin, its lanes and the state that breaking the pair leaves
(12_twin.md R364; DEDUCED, log 66). -/
def commitRegs (d : Dev) : Dev :=
  let old := d
  let d := (List.range 11).foldl (fun d k => d.resetRegs (k + 2)) d
  let keep := [F.TWN_LINK_TXUP, F.TWN_LINK_RXUP, F.STATUS_TWN_LINK] ++ (if old.twSt ≤ twHello then [] else twinKept)
  let d := keep.foldl (fun d f => d.setF f (old.f f)) d
  let dram (k : Nat) : Bool := keyBlk k == 13 && decide (0x200 ≤ keyOff k) && decide (keyOff k < 0x250) &&
    !(keyOff k == 0x200 || keyOff k == 0x204 || keyOff k == 0x20C)
  { d with regs := RegFile.carry (fun k => keyBlk k == 11 && decide (0x800 ≤ keyOff k)) old.regs (Tbl.drop d.regs dram) }

/-- The twin unit after a commit: outside a pair, its local-output gate as it stood (12_twin.md R364). -/
def Twin.committed (t : Twin) : Twin :=
  { Twin.reset with peer := t.peer, own := t.own, gate := t.gate, openAt := t.openAt.map (fun _ => 0), closeAt := t.closeAt.map (fun _ => 0),
                    seq := t.seq }

/-- The units at rest, the stores of the load kept (R100, R137, R176, R180), and the queues of the consist (R34, R38). D of QID 294 is four times
`lim`, the object limit at the consist's render rate, as GSV_OBJ_INFO.LIMIT reports it (DEDUCED, log 91); the depths that R38 does not print,
those of QID 296 to 299, are free constants, and that of QID 301 is `ringDepth`. -/
def commitUnits (p : Plan) (lim : Nat) (d : Dev) : Dev :=
  let gq := p.queues.map (fun e => (320 + e.1, e.2.1))
  let qs := [(294, 4 * lim), (295, 4), (296, Config.queueDepth 296 + 1), (297, Config.queueDepth 297 + 1),
      (298, Config.queueDepth 298), (299, Config.queueDepth 299), (301, ringDepth)] ++
    (if d.cap.twin then [(300, 64)] else []) ++ gq
  { d with
    fs := p.fs
    q := qs.foldl (fun q e => q.create e.1 e.2) .reset
    gsv := { Gsv.reset with layout := d.gsv.layout }
    crm := { Crm.reset with
      nin := p.nin, nout := p.nout,
      src := p.maps.foldl (fun t w => Tbl.put t (bits w 0 10) (mapQ w, bits w 24 8)) [],
      nodes := d.crm.nodes.map (fun e => (e.1, { e.2 with
        liveGain := e.2.aGain, liveDly := e.2.aDly, stRamp := false, stXf := false, lim := false, eccx := false, nz := false,
        wrA := false, wrB := false })) }
    cce := { Cce.reset with
      feeds := d.cce.feeds.map (fun e => (e.1, { Feed.reset with bankA := e.2.bankA, bankB := e.2.bankB })), dith := p.seed }
    vf := { Virif.reset with gslot := p.queues.foldl (fun t e => Tbl.put t e.1 e.2.2) [] }
    sb := { Sbox.reset with gA := p.graph, curOk := true }
    tdm := .reset
    net := .reset
    tu := { TimeUnit.resetAt d.now with ptp := d.tu.ptp }
    ai := { AnalogIn.reset with jd := d.ai.jd }
    ao := { d.ao with ch := [], ex := [] }
    tw := if d.twSt ≤ twHello then .reset else d.tw.committed
    nextDep := 0
    cs := ⟨p.axis, p.twin, p.windows, p.test⟩
    md := { d.md with run := none, fresh := true } }

/-- The registers that show what the consist built. -/
def commitInfo (p : Plan) (lim : Nat × Nat × Nat) (d : Dev) : Dev :=
  let l := d.gsv.layout
  let d := d.wr R.CRM_DIM (w32 (p.fs * 2 ^ 28 + p.nout * 2 ^ 16 + p.nin))
  let d := d.wr R.GSV_OBJ_INFO (w32 (l.objs.length * 2 ^ 16 + lim.1))
  let d := d.wr R.GSV_LAYOUT_INFO (w32 (l.bed.length * 2 ^ 23 + l.arr.length * 2 ^ 18 + l.vspk.length * 2 ^ 11 + l.spk.length))
  let d := d.wr R.GSV_LAYOUT_TRI (w32 l.tri.length)
  let d := d.wr R.CCE_DIM (w32 (p.fs * 2 ^ 12 + p.nout))
  let d := d.wr R.CCE_TAPS (w32 (p.feeds.foldl (fun n r => n + recTaps r * (if bit (wd r 0) 30 then 2 else 1)) 0))
  d.wr R.CCE_TAPLIM (w32 lim.2.2)

/-- A feed's chain as its record gives it, both banks alike (R421). -/
def commitFeed (o : Nat) (r : List Word) (d : Dev) : Dev :=
  let w (i : Nat) : Word := wd r i
  let info := w32 (bits (w 0) 24 8 * 2 ^ 24 + recTaps r)
  let dests := (List.range 4).map (fun k => ((R.FC_DEST.at k).of o, w (8 + k)))
  let regs : List (Reg × Word) := [(R.FC_INFO.of o, info), (R.FC_LAYOUT.of o, w 1), (R.FC_DLYCAP.of o, w 2), (R.FC_DLY.of o, w 3),
    (R.FC_TRIM.of o, w 4), (R.FC_LIM.of o, w 5), (R.FC_LIM_TIME.of o, w 6), (R.FC_MUTE.of o, w 7)] ++ dests
  let d := regs.foldl (fun d e => d.wr e.1 e.2) d
  let coef := (List.range 80).foldl (fun t k => Tbl.set t 0#32 k (w (13 + k))) []
  let set (b : CBank) : CBank := { b with coef := coef, byp := bits (w 12) 0 16, ef := bit (w 12) 31 }
  let t := if bit (w 7) 0 then 0 else one30
  d.onFeed o (fun f => { f with
    bankA := set f.bankA, bankB := set f.bankB, m := trimMul (w 4), dly := (w 3).toNat, user := ⟨t, t, 0⟩, glob := ⟨one30, one30, 0⟩,
    swp := ⟨one30, one30, 0⟩, sys := ⟨0, 0, 0⟩ })

/-- Steps 1 to 4: the plan in force, in Shunt; a REGS pair is a write by agent 4 (R425). -/
def commit (p : Plan) (w : World) : World :=
  let lim := limitsAt w.dev.cap p.fs p.axis
  let w := w.onDev (fun d =>
    let d := (List.range 4).foldl jdHeld (commitInfo p lim (commitUnits p lim.1 (commitRegs (twLeave d))))
    let d := p.feeds.zipIdx.foldl (fun d e => commitFeed e.2 e.1 d) d
    let d := (p.attach.zipIdx).foldl (fun d e => d.wr (R.SRC_CFG.at e.2) e.1) d
    (d.setF F.TKA_STATUS_BUSY 0).onCce (fun c => { c with latch := c.latchFrom d.regs }))
  let w := p.pairs.foldl (fun w e => regWrite (.station 0) ((e.1 - 0x50000000) / 65536) (e.1 % 65536) e.2 w) w
  w.onDev (fun d =>
    let d := (List.range 2).foldl (fun d m => mcLoad d.now d m) d
    let d := if d.hi.fwCode = p.fwCode then d else sideReset [4, 5, 6, 7] d
    d.onHi (fun h => { h with fwVer := p.fwVer, fwCode := p.fwCode, tcm := p.fwCode ++ h.tcm.drop p.fwCode.length }))

/-- Step 5: the SETUP commands; the number of the first that fails (R426, R429). -/
def runSetup (d : Dev) : (k : Nat) → List (List Word) → Option Nat × Dev
  | _, [] => (none, d)
  | k, c :: rest =>
    let r := ptpSet (c.drop 1) d
    if r.1 = 0 then runSetup r.2 (k + 1) rest else (some k, r.2)

/-- The consist registers name the active consist (R439). -/
def nameConsist (p : Plan) (d : Dev) : Dev :=
  ((((d.wr R.CFG_CHECK p.check).wr R.CFG_LEN (w32 p.len)).setF F.CFG_STATUS_SRC p.src).setF F.CFG_STATUS_STATE 0).setF
    F.CFG_STATUS_WR_IGN 0

/-- Step 6: the mode of HEAD.INIT. -/
def enterInit (m : Nat) (d : Dev) : Dev :=
  if d.mode = m then d
  else
    let b := d.nextDep
    let d := d.when (m == mMainline) (fun d => gsvResumeAt b ((crmDrain d).onCrm (fun c => { c with begun := b })))
    (modeEnter m d).when (m == mMainline) (sysFirst b)

/-- CFG_FAIL takes a failure (R429, R433). -/
def cfgFail (f : CarFail) (d : Dev) : Dev :=
  ((d.wr R.CFG_FAIL (w32 (2 ^ 31 + f.cause * 2 ^ 24 + f.detail % 2 ^ 16))).wr R.CFG_FAIL_CAR (w32 (f.type * 2 ^ 24 + f.seq % 2 ^ 16))).evt
    Ev.SYS_CFG_FAIL

/-- The part comes up, or is left, on the factory default consist, whose commit is one of R432 (R433, R438); after an unlock, in Inspection
(17_security_debug.md R474). -/
def factoryDefault (insp : Bool) (w : World) : World :=
  let w := (loadClear w).onDev (fun d => drSegSet 0 { d with ld := none })
  let r := w.dev.fresh
  let p := defaultPlan r.2.cap (if insp then mInspection else mMainline) r.1.toNat
  let w := commit p { w with dev := r.2 }
  w.onDev (fun d => enterInit p.init ((nameConsist p d).evt Ev.SYS_CFG_DONE))

end Sys2Proof.Machine
end

