-- ==== Sys2Proof/Machine/Load.lean ====
section
/-!
DEFINITION. Consist loads: the cars as they arrive, the checks of a whole image, the outcomes, and the boot (15_consist_boot.md R412,
R428 to R436).
Marks (notes/assumptions): DEDUCED 71, 73, 74; DESIGN CHOICE 75.
-/
namespace Sys2Proof.Machine

/-! ### Where the cars go (R431) -/

def vec3 (ws : List Word) (k : Nat) : Vec3 := ⟨sgn 24 (wd ws k).toNat, sgn 24 (wd ws (k + 1)).toNat, sgn 24 (wd ws (k + 2)).toNat⟩
def fvec (ws : List Word) (k : Nat) : FVec := ⟨wd ws k, wd ws (k + 1), wd ws (k + 2)⟩

/-- The tables of a LAYOUT car (R419). Without a room box section, which R60 gives one entry, its centre and half-extents are 0 (DESIGN CHOICE, log
74). -/
def layoutTables (es : List LEnt) : Layout :=
  let of' (k : Nat) : List (List Word) := (kindOf es k).map LEnt.ws
  let box := (of' 6).headD []
  { spk := (of' 1).map (fun w => ⟨bits (wd w 0) 0 10, vec3 w 1, fvec w 4, bits (wd w 0) 16 4⟩),
    vspk := (of' 2).map (fun w => ⟨vec3 w 0, fvec w 3, (List.range (bits (wd w 6) 0 4)).map (fun k =>
      (bits (wd w (7 + 2 * k)) 0 10, wd w (8 + 2 * k)))⟩),
    tri := (of' 3).map (fun w => ⟨bits (wd w 0) 0 11, bits (wd w 0) 16 11, bits (wd w 1) 0 11, fvec w 3, fvec w 6, fvec w 9,
      bits (wd w 1) 16 12, bits (wd w 2) 0 12, bits (wd w 2) 16 12⟩),
    bed := (of' 4).foldl (fun t w => Tbl.put t (bits (wd w 0) 0 8) ((List.range (bits (wd w 0) 16 7)).map (fun k =>
      ⟨bits (wd w (1 + 2 * k)) 0 10, bits (wd w (2 + 2 * k)) 0 24, bits (wd w (1 + 2 * k)) 16 11⟩))) [],
    arr := (of' 5).foldl (fun t w => Tbl.put t (bits (wd w 0) 0 4) ⟨vec3 w 2, fvec w 5, bits (wd w 1) 0 11,
      (List.range (bits (wd w 0) 16 10)).map (fun j => ⟨bits (wd w (8 + 7 * j)) 0 10, vec3 w (9 + 7 * j), fvec w (12 + 7 * j)⟩)⟩) [],
    boxC := vec3 box 0, boxH := vec3 box 3,
    objs := (of' 7).map (fun w => bits (wd w 0) 0 10) }

/-- The layout store takes the entries that are in range. -/
def putLayout (ws : List Word) (d : Dev) : Dev :=
  let es := (layoutOf ws).2
  let n (k : Nat) : Nat := (kindOf es k).length
  d.onGsv (fun g => { g with layout := layoutTables (es.filter (fun e => (entConds (n 1) (n 2) (n 3) e).isEmpty)) })

/-- A node record (R420): both banks, or bank B only. -/
def putNode (nin nout : Nat) (r : Word × Word) (d : Dev) : Dev :=
  let i := bits r.1 0 10
  let o := bits r.1 10 10
  let g := bits r.2 0 23
  let y := bits r.1 20 11
  d.when (decide (i < nin) && decide (o < nout) && bits r.2 23 9 == 0) (fun d => d.onCrm (fun c =>
    let n := { c.node i o with bGain := g, bDly := y }
    c.setNode i o (if bit r.1 31 then n else { n with aGain := g, aDly := y })))

/-- The FIR loader writes a TAPS car into both banks; taps that it omits are 0 (R422). -/
def putTaps (cs : List Car) (c : Car) (d : Dev) : Dev :=
  let l := if c.inst < crmNout (payOf cs tCrm) then recTaps (feedRec (payOf cs tFeeds) c.inst) else 0
  let taps := (c.payload ++ List.replicate (l - c.payload.length) 0#32).take l
  d.when (decide (0 < l)) (fun d => d.onFeed c.inst (fun f =>
    { f with bankA := { f.bankA with taps := taps, whole := true }, bankB := { f.bankB with taps := taps, whole := true } }))

/-- An ENGINE car's sections go to every engine it names (R423). -/
def putEngine (engines : Nat) (c : Car) (mem : Memory) : Memory :=
  let es := (List.range engines).filter (fun e => (c.inst >>> e) % 2 == 1)
  (engSecs c.payload.length 0 c.payload).foldl (fun m s =>
    let (kind, start, count, _, ws) := s
    let top := if kind = 1 then 8192 else 32768
    match ws with
    | some ws =>
      if kind = 0 ∨ kind > 3 ∨ start + count > top then m
      else es.foldl (fun m e =>
        Memory.wrWords m (virifBase e + (if kind = 1 then 8 * start else (if kind = 2 then 0x20000 else 0x40000) + 4 * start)) ws) m
    | none => m) mem

/-- The segments of a DRAM source, as a mask: an image may pass from one into the next. -/
def Load.segMask (l : Load) (d : Dev) : Nat :=
  if l.fromDram then (match d.drSeg l.addr, d.drSeg (l.addr + l.len - 1) with
    | some j, some k => (List.range (k + 1 - j)).foldl (fun n i => n + 2 ^ (j + i)) 0
    | some j, none => 2 ^ j
    | none, _ => 0)
  else 0

/-- A car's content goes where it belongs; what lies out of range is not written. -/
def route (c : Car) (l : Load) (w : World) : World :=
  let ws := c.payload
  if c.type = tMemory then
    w.onDev (fun d => drSegSet (bits (wd ws 0) 0 8) (drSegSet (d.f F.DR_SEG_USE &&& l.segMask d) d))
  else if c.type = tLayout then w.onDev (putLayout ws)
  else if c.type = tCrm then w.onDev (fun d => (crmRecs ws).foldl (fun d r => putNode (crmNin ws) (crmNout ws) r d) d)
  else if c.type = tTaps then w.onDev (putTaps l.cars c)
  else if c.type = tEngine then { w with mem := putEngine w.dev.cap.engines c w.mem }
  else
    let n := shadowEnd - shadowBase - l.shadow
    { w with mem := Memory.wrBytes w.mem (shadowBase + l.shadow) ((carBytes c).take n) }

/-! ### Outcomes (R432 to R434) -/

/-- The reply to CONSIST_LOAD (R436). -/
def loadReply (cause : Nat) (l : Load) (d : Dev) : Dev :=
  match l.reply with
  | some (h, tag) => fwReply h tag (if cause = 0 then 0 else 6) 0x0020 [w32 cause] d
  | none => d

/-- The end of a boot: READY, and after Depot the wake event (R434; 16_modes_power.md R453). -/
def bootEnd (d : Dev) : Dev :=
  let cause := if d.fb F.CFG_FAIL_VALID then d.f F.CFG_FAIL_CAUSE else 0
  let d := d.when d.md.woke (fun d => (d.onMd (fun m => { m with woke := false })).evt Ev.SYS_WAKE)
  fwEvent 0x8001 [w32 cause] d

/-- A load begins (R431). -/
def loadStart (l : Load) (w : World) : World :=
  (loadClear w).onDev (fun d => { (d.setF F.CFG_STATUS_STATE 1).wr R.CFG_PROG 0#32 with ld := some l })

/-- A boot's load of an image: 1 for A, 2 for B; `next` is the other one, where it is still to be tried. -/
def bootLoad (src : Nat) (next : Option Nat) : Load := ⟨src, next, false, 0, 0, [], 0, none⟩

/-- Image A or B has failed at this boot. -/
def imgTried (src : Nat) (d : Dev) : Dev := d.setF F.CFG_STATUS_TRIED (d.f F.CFG_STATUS_TRIED ||| src)

/-- A load fails before its commit (R433, R434). -/
def loadFail (f : CarFail) (l : Load) (w : World) : World :=
  let w := w.onDev (cfgFail f)
  if l.src = 3 then (factoryDefault false w).onDev (loadReply f.cause l)
  else
    let w := w.onDev (imgTried l.src)
    match l.next with
    | some k => loadStart (bootLoad k none) w
    | none => (factoryDefault false w).onDev bootEnd

/-- Does an uncorrectable word stand where the commit reads the shadow area (R429)? -/
def applyBad (used : Nat) (d : Dev) : Bool :=
  d.ms.bad.any (fun e => e.1 == 4 && decide (0x10000 ≤ e.2) && decide (8 * e.2 < 0x80000 + used))

/-- Stages 2 to 6 of R428 on a whole image. -/
def loadFinish (l : Load) (w : World) : World :=
  let cs := l.cars
  match tailFail w.fuses cs with
  | some f => loadFail f l w
  | none => match contentFail w.dev.cap w.dev.segBytes [] cs with
    | some f => loadFail f l w
    | none => match memoryFail w.dev cs with
      | some f => loadFail f l w
      | none =>
        if applyBad l.shadow w.dev then loadFail ⟨15, 13, 0, 0⟩ l w
        else
          let p := planOf w.dev.cap cs l.src
          let w := commit p (w.onDev (fun d => { d with ld := none }))
          w.onDev (fun d =>
            let r := runSetup (nameConsist p d) 0 p.setup
            match r.1 with
            | some k =>
              let d := cfgFail ⟨16, k, tSetup, cs.findIdx (fun c => c.type == tSetup)⟩ r.2
              if l.src = 3 then loadReply 16 l d else bootEnd d
            | none =>
              let d := enterInit p.init (r.2.evt Ev.SYS_CFG_DONE)
              if l.src = 3 then loadReply 0 l (d.wr R.CFG_FAIL 0#32) else bootEnd d)

/-- A car's header and payload arrive (R412, R428, R431). A payload that is not as long as LEN says has not arrived. -/
def carReceived (c : Car) (w : World) : World :=
  match w.dev.ld with
  | none => w
  | some l =>
    match streamFail l.cars c with
    | some f => loadFail f l w
    | none =>
      if 4 * c.payload.length ≠ c.len then w
      else if c.type = tMemory ∧ bits (wd c.payload 0) 0 8 &&& l.segMask w.dev ≠ 0 then loadFail ⟨1, 0, tMemory, l.cars.length⟩ l w
      else
        let w := route c l w
        let l := { l with cars := l.cars ++ [c], shadow := l.shadow + c.shadow }
        let w := w.onDev (fun d => { d.wr R.CFG_PROG (w32 (imgBytes l.cars)) with ld := some l })
        if c.type = tTail then loadFinish l w
        else match cutShort l.cars with
          | some f => loadFail f l w
          | none => w

/-- A fetch of image data fails (R429). -/
def fetchFailed (w : World) : World :=
  match w.dev.ld with
  | none => w
  | some l => loadFail ⟨1, 0, 0, 0⟩ l w

/-! ### Boot (R434) -/

/-- The boot directory is valid: MAGIC and CRC. -/
def dirOk (dir : List Word) : Bool :=
  wd dir 0 == 0xF9B007D0#32 && crc32c (leBytes ((List.range 4).map (wd dir))) == wd dir 4

/-- The boot ROM's choice. `sel` is BOOTSEL and `dir` the five words at flash offset 0. After an unlock reset it enters Inspection
whatever BOOTSEL is (17_security_debug.md R474). -/
def bootRun (sel : Nat) (dir : List Word) (w : World) : World :=
  w.when (w.dev.md.boot && !w.dev.dark) (fun w =>
    let insp := w.dev.md.insp
    let reply := w.dev.md.reply
    let w := w.onDev (fun d =>
      let d := ((d.wr R.CFG_FAIL 0#32).setF F.CFG_STATUS_TRIED 0).setF F.STATUS_HIF_BOOTSEL sel
      let d := d.onMd (fun m => { m with boot := false, insp := false, reply := none })
      d.when (d.cap.dram && d.f F.DR_STATUS_STATE == 0) (fun d => d.setF F.DR_STATUS_STATE drTraining))
    if insp then
      let w := (factoryDefault true w).onDev (fun d => d.setB F.STATUS_SEC_UNLOCKED true)
      w.onDev (fun d => bootEnd (match reply with
        | some (h, tag) => fwReply h tag 0 0x0081 [] d
        | none => d))
    else if sel ≥ 2 then (factoryDefault false w).onDev bootEnd
    else if lifeCycle w.fuses = lcRetired then
      (factoryDefault false (w.onDev (fun d => imgTried 3 (cfgFail ⟨14, lcRetired, 0, 0⟩ d)))).onDev bootEnd
    else if !dirOk dir then (factoryDefault false (w.onDev (fun d => imgTried 3 (cfgFail ⟨2, 0, 0, 0⟩ d)))).onDev bootEnd
    else
      let two := wd dir 3 != 0xFFFFFFFF#32
      if sel = 0 then loadStart (bootLoad 1 (if two then some 2 else none)) w
      else if two then loadStart (bootLoad 2 (some 1)) w
      else loadStart (bootLoad 1 none) w)

/-! ### Meanings -/

def execCarReceived (c : Car) (s : State) : Out := .next (s.onAll (fun w => w.when (!w.dev.asleep) (carReceived c)))
def execConsistFetchFailure (s : State) : Out := .next (s.onAll (fun w => w.when (!w.dev.asleep) fetchFailed))
def execBoot (sel : Fin 4) (dir : List Word) (s : State) : Out := okAll s (bootRun sel.val dir)

end Sys2Proof.Machine
end

