-- ==== Sys2Proof/Machine/TwinStandby.lean ====
section
/-!
DEFINITION. The STANDBY's departures from BLOCK frames, the frames themselves, state chunks (12_twin.md R343, R344, R355, R361, R362).
Marks (notes/assumptions): DEDUCED 63, 65; DESIGN CHOICE 64.
-/
namespace Sys2Proof.Machine

/-! ### The contents of a BLOCK frame (R343) -/

/-- An update of the UPDATE section joins its object's queue. -/
def twUpd (u : UpdRec) (d : Dev) : Dev :=
  let o := u.rc.objNo
  let late := isLate d u.rc
  let ob := d.gsv.obj o
  let d := d.onGsv (fun g => g.setObj o { ob with queue := ob.queue ++ [⟨u.rc, u.eff⟩] })
  let d := d.onQ (fun q => (q.spend 294).fill 294)
  d.when late (fun d => (d.bump R.GSV_LATEUPD_CNT).evt Ev.GSV_UPD_LATE)

/-- The agent's select registers. -/
def selsOf (m : Agent) (d : Dev) : List Word := twSelRegs.map (fun r => d.rd (r.of m.num))
def putSels (m : Agent) (ws : List Word) (d : Dev) : Dev :=
  twSelRegs.zipIdx.foldl (fun d e => d.wr (e.1.of m.num) (ws.getD e.2 0#32)) d

/-- A write of the WRITE section acts as on the ACTIVE, with the agent's select registers of there. -/
def twWriteRec (x : WriteRec) (w : World) : World :=
  match periOf x.addr with
  | some (b, off) => w.onDev (fun d =>
      let own := selsOf x.agent d
      putSels x.agent own (regPut x.agent b off x.data (putSels x.agent x.sels d)))
  | none => { w with mem := Memory.wr32 w.mem x.addr x.data }

/-- What an operation does to a unit whose next departure were `b` (R32). -/
def atBlk (b : Nat) (g : World → World) (w : World) : World :=
  let n := w.dev.nextDep
  (g (w.onDev (fun d => { d with nextDep := b }))).onDev (fun d => { d with nextDep := n })

/-- A Halt whose block has departed already: rendering stops before it (R364; 16_modes_power.md R443). -/
def twHaltNow (d : Dev) : Dev :=
  match d.md.leave with
  | some l =>
    if l.goal = mHalt ∧ l.atBlk < d.nextDep then
      let d := modeEnter mHalt (stopAt l.atBlk l.hard d)
      let d := d.onTw (fun t => { t with held := t.held.filter (fun e => decide (e.1 < l.atBlk)) })
      d.onMd (fun m => { m with run := m.run.map (fun r => (r.1, min r.2 (l.atBlk - 1))) })
    else d
  | none => d

/-- The MODE section. -/
def twMode (r : Option ModeRec) (d : Dev) : Dev :=
  match r with
  | none => d
  | some (.halt t) => modeReq (w32 (mHalt + t % 512 * 256)) d
  | some (.resume b t) =>
    modeReq (w32 (mMainline + t % 512 * 256)) (d.wr64 R.SYS_RESUME_AT_LO R.SYS_RESUME_AT_HI (32 * b))

/-- The sections UPDATE, WRITE and MODE of frame `f`. -/
def twApply (f : BlockFrame) (w : World) : World :=
  let w := atBlk f.blk (fun w =>
    let w := w.onDev (fun d => f.updates.foldl (fun d u => twUpd u d) d)
    let w := f.writes.foldl (fun w x => twWriteRec x w) w
    w.onDev (twMode f.mode)) w
  w.onDev (fun d => twHaltNow (d.onCce (fun c => { c with dith := f.dither })))

/-! ### State chunks (R361 to R363) -/

/-- A pass of VERIFY is complete: two in a row that found no mismatching chunk end it (R363). The next pass has applied no chunk (R366). -/
def passEnd (d : Dev) : Dev :=
  let bad := d.tw.passBad
  let clean := if bad = 0 then min 15 (d.f F.TWN_VERIFY_CLEAN + 1) else 0
  let d := (d.setF F.TWN_VERIFY_MISM (min bad (2 ^ 24 - 1))).setF F.TWN_VERIFY_CLEAN clean
  let d := (d.wr R.TWN_XFER_DONE 0#32).onTw (fun t => { t with passBad := 0, crcPos := 0 })
  d.when (decide (2 ≤ clean)) (twPhase 3)

/-- The chunks of the unit that differ from those of a CRCPASS frame. -/
def crcDiff (c : CrcPass) (w : World) : List Nat :=
  let gs := partGroups w.mem w.dev
  (c.crcs.zipIdx.filter (fun e => (partOf gs (c.first + e.2)).map StatePart.crc != some e.1)).map (fun e => c.first + e.2)

/-- In VERIFY the unit compares a CRCPASS frame with its own chunks, as both stand before the frame's block, and requests those that differ (R361).
A pass counts from its first chunk on, without a gap. -/
def crcCompare (w : World) (c : CrcPass) : World :=
  w.when (w.dev.twSt == twSyncing && w.dev.f F.STATUS_TWN_PHASE == 2 && (c.first == w.dev.tw.crcPos || c.first == 0)) fun w =>
    let bad := crcDiff c w
    w.onDev (fun d =>
      let d := d.onTw (fun t => { t with
        passBad := (if c.first = 0 then 0 else t.passBad) + bad.length, crcPos := c.first + c.crcs.length })
      let d := d.when (!bad.isEmpty) (twSend (.ack 0 none (bad.map (fun k => (k, 1)))))
      d.when c.last passEnd)

/-- The chunks captured before block `b` are applied, then the CRCs of the state before it compared. -/
def chunksAt (b : Nat) (w : World) : World :=
  w.when (w.dev.twSt == twSyncing) fun w =>
  let now := w.dev.tw.chunks.filter (fun c => c.blk == b)
  let crcs := w.dev.tw.crcs.filter (fun c => c.blk == b)
  let w := now.foldl (fun w c => (chunkPut c.part w).onDev (fun d => chunkBack [] (d.bump R.TWN_XFER_DONE))) w
  let w := crcs.foldl crcCompare w
  w.onDev (fun d => d.onTw (fun t => { t with
    chunks := t.chunks.filter (fun c => decide (b < c.blk)), crcs := t.crcs.filter (fun c => decide (b < c.blk)) }))

/-- The next block of the unit itself. -/
def Dev.ownNext (d : Dev) : Nat :=
  match d.tw.held with
  | e :: _ => e.1
  | [] => d.nextDep

/-- A CHUNK frame: kept until its block, or too late, discarded and requested again. -/
def chunkRx (c : ChunkFrame) (d : Dev) : Dev :=
  d.when (d.twSt == twSyncing) (fun d =>
    let d := (d.wr R.TWN_XFER_TOTAL (w32 c.total)).onQ (fun q => q.spend 300)
    if c.blk < d.ownNext then chunkBack [(c.no, 1)] (d.bump R.TWN_RESEND_CNT)
    else d.onTw (fun t => { t with chunks := t.chunks ++ [c] }))

/-- A CRCPASS frame: kept until its block; one that comes too late cannot be compared. -/
def crcPassRx (c : CrcPass) (d : Dev) : Dev :=
  d.when (d.twSt == twSyncing && d.f F.STATUS_TWN_PHASE == 2 && decide (d.ownNext ≤ c.blk))
    (fun d => d.onTw (fun t => { t with crcs := t.crcs ++ [c] }))

/-! ### Departures from frames (R344, R355, R361) -/

/-- In TRANSFER and VERIFY a unit renders LAG blocks behind the departures. -/
def Dev.twLag (d : Dev) : Nat :=
  if d.twSt = twSyncing ∧ d.f F.STATUS_TWN_PHASE ≤ 2 then max 4 (d.f F.TWN_CFG_LAG) else 0

/-- Block `b`, which waited, with the unit's own input slots: from its BLOCK frame, or after a takeover or a
manual switch from the own inputs, and an ACTIVE then sends its frame (R357). The first block of a new ACTIVE takes the updates and writes of the
former one's last frame. -/
def twRender (b cyc : Nat) (ecc : List EccHit) (own : Tbl QSlot) (w : World) : World :=
  let fr := w.dev.tw.frames.find? (fun f => f.blk == b)
  let w := match fr with
    | some f => (twApply f w).onDev (fun d => d.when (decide (0 < b)) (twCompare (b - 1) f.crc f.late))
    | none => w
  let w := chunksAt b w
  let first := w.dev.tw.last == some b
  let fr := if first then none else fr
  let slots := match fr with
    | some f => f.inputs
    | none => own
  w.onDev (fun d =>
    let go := d.tw.held.any (fun e => e.1 == b)
    let d := d.onTw (fun t => { t with
      held := t.held.filter (fun e => e.1 != b), frames := t.frames.filter (fun f => decide (b < f.blk)), last := if first then none else t.last })
    let own := fr.isNone
    d.when go (fun d => (renderDep b cyc ecc slots d).when own (twBlockSend b slots)))

/-- In Halt, with no block left to render, a frame acts as it arrives: it carries a resume (R343, R364). -/
def haltFrames (w : World) : World :=
  w.when (w.dev.twCopy && w.dev.inMode mHalt && w.dev.tw.held.isEmpty) (fun w =>
    let fs := w.dev.tw.frames
    fs.foldl (fun w f => twApply f w) (w.onDev (fun d => d.onTw (fun t => { t with frames := [] }))))

/-- The oldest departure that waits takes place once its frame has come. -/
def standbyDep (cyc : Nat) (ecc : List EccHit) (w : World) : World :=
  match w.dev.tw.held with
  | [] => w
  | e :: _ =>
    let d := w.dev
    let has := d.tw.frames.any (fun f => f.blk == e.1)
    let late := decide (e.1 + d.twLag < d.nextDep)
    let waits := (d.twCopy || d.tw.last == some e.1) && !has
    let n := d.tw.tx.length
    (haltFrames (w.when (!waits && late) (twRender e.1 cyc ecc e.2))).onDev (twOrder n)

/-- A BLOCK frame is received. -/
def blockRx (f : BlockFrame) (w : World) : World :=
  w.when (w.dev.twCopy || w.dev.tw.last == some f.blk) (fun w =>
    haltFrames (w.onDev (fun d => d.onTw (fun t => if t.frames.any (fun g => decide (f.blk ≤ g.blk)) then t
      else { t with frames := t.frames ++ [f] }))))

/-! ### Meanings -/

def execBlock (b : BlockFrame) (s : State) : Out :=
  .next (s.onAll (fun w => w.when (!w.dev.asleep && w.dev.cap.twin) (if b.good then blockRx b else fun w => w.onDev (twRx false id))))
def execChunk (c : ChunkFrame) (s : State) : Out := okTwin s (twRx c.good (chunkRx c))
def execCrcpass (c : CrcPass) (s : State) : Out := okTwin s (twRx c.good (crcPassRx c))
def execStandbyDeparture (cyc : Nat) (ecc : List EccHit) (s : State) : Out :=
  .next (s.onAll (fun w => w.when (!w.dev.asleep && w.dev.cap.twin) (standbyDep cyc ecc)))

end Sys2Proof.Machine
end

