-- ==== Sys2Proof/Machine/Commands.lean ====
section
/-!
DEFINITION. The Station command set (14_host_mailboxes.md R405 to R407; 15_consist_boot.md R436; 16_modes_power.md R441;
17_security_debug.md R471, R472), and the frames that firmware sends and receives for the hosts. A command's row is firmware taking
the command from mailbox 3h of host h (0 PCIe, 1 SPI, 2 I2C).
Marks (notes/assumptions): DEDUCED 70, 71, 73; DESIGN CHOICE 72.
-/
namespace Sys2Proof.Machine

/-! ### Frames for the hosts (R407; 08_network.md R237, R238) -/

/-- Do `n` bytes from `a` lie in the control SRAM, in the audio store, or in valid DRAM? -/
def Dev.region (d : Dev) (a n : Nat) : Bool :=
  let z := a + n - 1
  (inSram a && inSram z) || (inAudio a && inAudio z) ||
    (match d.drSeg a, d.drSeg z with
     | some i, some j => (List.range (j - i + 1)).all (fun k => d.drAns (drBase + (i + k) * d.segBytes) == .data)
     | _, _ => false)

/-- Firmware, on Station core 0, writes bytes to a store: true where the write has the error response. -/
def fwStore (a : Nat) (bs : List Byte) (ecc : List EccHit) (w : World) : Bool × World :=
  let bs := bs.map some
  let r := storeWrite (some (.station 0)) 0 a ecc bs w.mem (unitMoves 0 a bs.length true w.dev)
  (r.1, { w with mem := r.2.1, dev := r.2.2.when (!r.1) (drOver a bs) })

/-- Firmware reads bytes; none where the read has the error response. -/
def fwFetch (a n : Nat) (ecc : List EccHit) (w : World) : Option (List Byte) × World :=
  let r := storeRead (w.dev.seen w.mem) 0 a n ecc (unitMoves 0 a n false w.dev)
  (r.1, { w with dev := r.2 })

/-- A frame of FRAME_TX whose descriptor has come back: it is freed, and the host has its reply; FAILED where the frame was not
sent. -/
def txReply (e : Nat × Nat × Nat) (w : World) : World :=
  let (h, tag, k) := e
  if w.dev.net.owner k = 1 then w
  else
    let back := (List.range 3).any (fun p => (w.dev.np p).done.contains k)
    let good := back && !bit (Memory.rd32 w.mem (w.dev.descAt k + 4)) 29
    w.onDev (fun d =>
      let d := (List.range 3).foldl (fun d p => d.setNp p { d.np p with done := (d.np p).done.erase k }) d
      let d := d.when back (fun d => d.freeDesc k)
      let d := d.onHi (fun i => { i with txWait := i.txWait.erase e })
      fwReply h tag (if good then 0 else 6) 0x0060 [] d)

def txReplies (w : World) : World := w.dev.hi.txWait.foldl (fun w e => txReply e w) w

/-- Does firmware keep a frame for itself: PTP, and on NETM ARP and ICMP echo (15_consist_boot.md R438)? -/
def fwConsumes (p : Nat) (bs : List Byte) : Bool :=
  let e := if hasTag bs then 16 else 12
  isPtp bs || (p == 2 && (be bs e 2 == 0x0806 || (be bs e 2 == 0x0800 && byteAt bs (e + 11) == 1 &&
    byteAt bs (e + 2 + 4 * (byteAt bs (e + 2) % 16)) == 8)))

/-- Does firmware hand a frame of port `p` to the host? -/
def RxRing.takes (r : RxRing) (p : Nat) (bs : List Byte) : Bool :=
  (r.ports >>> p) % 2 == 1 && decide (bs.length ≤ 2048) && !fwConsumes p bs &&
    (r.etype == 0 || be bs (if hasTag bs then 16 else 12) 2 == r.etype)

/-- The oldest frame of port `p` that the host takes goes into a free buffer of its ring (FRAME_RX_SET), and its descriptor is free
again: a descriptor that software has released before firmware took the frame is free already (08_network.md R238). It waits while the ring's target is
locked (13_memory.md R377). -/
def rxHand (p : Nat) (ecc : List EccHit) (w : World) : World :=
  match w.dev.hi.ring with
  | none => w
  | some r =>
    let frame (k : Nat) : List Byte := w.dev.frameOf w.mem k
    match (List.range r.count).find? (fun i => !r.busy.contains i),
        (w.dev.np p).rdy.find? (fun k => w.dev.net.owner k == 2 && r.takes p (frame k)) with
    | some i, some k =>
      let a := r.addr + 2048 * i
      let bs := frame k
      if !w.dev.region a 2048 || !w.dev.reach 0 a 2048 then w
      else
        let x := fwStore a bs ecc w
        if x.1 then w
        else x.2.onDev (fun d =>
          let d := d.setNp p { d.np p with rdy := (d.np p).rdy.erase k }
          let d := d.freeDesc k
          let d := d.onHi (fun h => { h with ring := some { r with busy := r.busy ++ [i] } })
          fwEvent 0x8061 [w32 i, w32 (p * 2 ^ 30 + bs.length)] d)
    | _, _ => w

/-- A command of the network that touches the memory, and what firmware makes of it. -/
def okNet (s : State) (g : List Host.Cell → Dev → List Host.Cell × Dev) (h : World → World) : Out :=
  .next (s.onAll (fun w => w.when (!w.dev.asleep) (fun w =>
    let r := g w.mem w.dev
    h { w with mem := r.1, dev := r.2 })))

def execTxDone (p : Fin 3) (r : TxResult) (s : State) : Out := okNet s (txDone p.val r) txReplies
def execCollision (late : Bool) (s : State) : Out := okNet s (collision late) txReplies
/-- The rows of the three kinds of received frame: what a frame is, its bytes say (R245, R257). -/
def execFrameReceive (p : Fin 3) (fr : RxFrame) (s : State) : Out := okNet s (receive p.val fr) (rxHand p.val fr.ecc)
def execStreamPacketRx (p : Fin 3) (fr : RxFrame) (s : State) : Out := okNet s (receive p.val fr) (rxHand p.val fr.ecc)
def execMetadataPacket (p : Fin 3) (fr : RxFrame) (s : State) : Out := okNet s (receive p.val fr) (rxHand p.val fr.ecc)

/-! ### Taking a command (R405, R406) -/

/-- Does host `h` still wait for a reply? -/
def Dev.owes (d : Dev) (h : Nat) : Bool :=
  let mine (r : Option (Nat × Nat)) : Bool := match r with
    | some x => x.1 == h
    | none => false
  !(d.heldOf (3 * h + 1)).isEmpty || d.hi.txWait.any (fun e => e.1 == h) || mine d.md.reply ||
    (match d.ld with
     | some l => mine l.reply
     | none => false) ||
    (match d.se.attempt with
     | some a => mine a.reply
     | none => false)

/-- Does firmware run: no boot is due and no boot load runs? -/
def Dev.fwUp (d : Dev) : Bool :=
  !d.md.boot && (match d.ld with
    | some l => l.src == 3
    | none => true)

/-- The command codes of R407. -/
def fwCodes : List Nat :=
  [0x01, 0x02, 0x03, 0x10, 0x20, 0x30, 0x31, 0x32, 0x40, 0x41, 0x50, 0x60, 0x61, 0x62, 0x70, 0x80, 0x81]

/-- What becomes of a command: a status with reply words, or none while the reply is to follow. -/
abbrev Answer := Option (Nat × List Word)

/-- Firmware takes a command of host `h` with CODE `code` and answers it; a LEN that does not fit the message is BAD_ARG. `f` has the tag
and the argument words. PING's row also answers the codes that R407 does not list, with UNKNOWN. A command that `waits` for a locked target of the fabric is
not taken yet (13_memory.md R377). -/
def fwCmd (h code : Nat) (waits : List Word → Dev → Bool) (f : Nat → List Word → World → Answer × World) (w : World) : World :=
  let w := txReplies w
  match (w.dev.mbx (3 * h)).words with
  | [] => w
  | c :: args =>
    let k := bits c 0 16
    let unknown := code == 0x01 && !fwCodes.contains k
    if !w.dev.fwUp || !(w.dev.mbx (3 * h)).occ || w.dev.owes h || !(k == code || unknown) || waits args w.dev then w
    else
      let w := w.onDev (mbTake (3 * h))
      let tag := bits c 24 8
      let r : Answer × World :=
        if unknown then (some (1, []), w)
        else if bits c 16 5 ≠ args.length then (some (2, []), w)
        else f tag args w
      match r.1 with
      | some (st, ws) => r.2.onDev (fwReply h tag st k ws)
      | none => r.2

/-- A command that is answered at once and touches the device alone. -/
def onDevice (g : List Word → Dev → (Nat × List Word) × Dev) (_tag : Nat) (args : List Word) (w : World) : Answer × World :=
  let r := g args w.dev
  (some r.1, { w with dev := r.2 })

/-- The command's answer where it has `n` argument words, else BAD_ARG. -/
def withArgs (n : Nat) (g : List Word → Dev → (Nat × List Word) × Dev) (args : List Word) (d : Dev) : (Nat × List Word) × Dev :=
  if args.length = n then g args d else ((2, []), d)

/-! ### Identification, status, mode (R407, R441) -/

def ping (args : List Word) (d : Dev) : (Nat × List Word) × Dev := ((0, args), d)

def getInfo (_args : List Word) (d : Dev) : (Nat × List Word) × Dev :=
  ((0, [d.hi.fwVer, w32 (bits (d.rd R.SYS_CAPS) 24 8), w32 (bits (d.rd R.SYS_REV) 0 8), d.rd R.CFG_CHECK]), d)

def getStatus (_args : List Word) (d : Dev) : (Nat × List Word) × Dev :=
  ((0, [w32 d.mode, w32 (d.f F.CFG_FAIL_CAUSE), w32 d.twSt, d.evtSum]), d)

/-- A mode request as the register write does it; one that is ignored is answered with MODE. -/
def setMode (args : List Word) (d : Dev) : (Nat × List Word) × Dev :=
  let goal := (wd args 0).toNat
  let main := goal == mMainline
  if goal > 5 ∨ args.length ≠ (if main then 3 else 2) then ((2, []), d)
  else if d.ld.isSome then ((3, []), d)
  else if d.twCopy && (main || goal == mHalt) then ((4, []), d)
  else
    let was := bit (d.rd R.EVT_SYS) Ev.SYS_REQ_IGN.bit
    let d := d.when main (fun d => d.wr64 R.SYS_RESUME_AT_LO R.SYS_RESUME_AT_HI (32 * pair (wd args 1) (wd args 2)))
    let v := w32 (goal + (if main then 0 else min 256 (wd args 1).toNat * 2 ^ 8))
    let d := modeReqBy (.station 0) v (d.clrBit R.EVT_SYS Ev.SYS_REQ_IGN.bit)
    if bit (d.rd R.EVT_SYS) Ev.SYS_REQ_IGN.bit then ((4, []), d) else ((0, []), d.when was reqIgn)

/-! ### Consist and flash (R436, R437) -/

/-- CONSIST_LOAD: what is refused before anything is fetched changes nothing (R433); a source in DRAM that is not valid ends the load
with SOURCE. -/
def consistLoad (h tag : Nat) (args : List Word) (w : World) : Answer × World :=
  let d := w.dev
  let src := (wd args 0).toNat
  let a := pair (wd args 1) (wd args 2)
  let n := (wd args 3).toNat
  if !d.inMode mShunt ∨ d.trans then (some (4, []), w)
  else if d.ld.isSome then (some (3, []), w)
  else if args.length ≠ 4 ∨ src > 1 ∨ (src = 1 ∧ !d.cap.dram) ∨ n % 4 ≠ 0 ∨ n < 64 ∨ n > 67108864 then (some (2, []), w)
  else if lifeCycle w.fuses = lcRetired then (some (6, [14#32]), w)
  else
    let l : Load := ⟨3, none, src == 1, a, n, [], 0, some (h, tag)⟩
    let good := src == 0 || (inDram a && d.region a n)
    let w := loadStart l (w.onDev dropResume)
    (none, if good then w else loadFail ⟨1, 0, 0, 0⟩ l w)

/-- FLASH_READ: `bytes` is what the flash gives, `good` whether it answered. -/
def flashRead (bytes : List Byte) (good : Bool) (ecc : List EccHit) (_tag : Nat) (args : List Word) (w : World) : Answer × World :=
  let n := (wd args 1).toNat
  let a := pair (wd args 2) (wd args 3)
  if w.dev.ld.isSome then (some (3, []), w)
  else if args.length ≠ 4 ∨ n = 0 ∨ n > 65536 then (some (2, []), w)
  else if !good ∨ bytes.length < n ∨ !w.dev.region a n then (some (6, []), w)
  else
    let r := fwStore a (bytes.take n) ecc w
    (some (if r.1 then 6 else 0, []), r.2)

def flashWrite (good : Bool) (ecc : List EccHit) (_tag : Nat) (args : List Word) (w : World) : Answer × World :=
  let n := (wd args 1).toNat
  let a := pair (wd args 2) (wd args 3)
  if w.dev.ld.isSome then (some (3, []), w)
  else if args.length ≠ 4 ∨ (wd args 0).toNat % 256 ≠ 0 then (some (2, []), w)
  else if !good ∨ (0 < n ∧ !w.dev.region a n) then (some (6, []), w)
  else
    let r := fwFetch a n ecc w
    (some (if r.1.isSome then 0 else 6, []), r.2)

def flashErase (good : Bool) (_tag : Nat) (args : List Word) (w : World) : Answer × World :=
  if w.dev.ld.isSome then (some (3, []), w)
  else if args.length ≠ 2 ∨ (wd args 0).toNat % 4096 ≠ 0 ∨ (wd args 1).toNat % 4096 ≠ 0 then (some (2, []), w)
  else (some (if good then 0 else 6, []), w)

/-! ### Clocks and streams (R407; 09_time_references.md R261) -/

def ptpSetCmd (args : List Word) (d : Dev) : (Nat × List Word) × Dev :=
  let r := ptpSet args d
  ((r.1, []), r.2)

def ptpGet (args : List Word) (d : Dev) : (Nat × List Word) × Dev :=
  let i := (wd args 0).toNat
  if i > 3 then ((2, []), d)
  else
    let x := d.ti i
    ((0, [w32 (d.f (F.TI_STATUS_STATE.of i)), w32 (d.f (F.TI_TAG_TAGP.of i)), wOfInt x.ep, Config.ptpQuality x.cls x.acc]), d)

/-- SDP_GET of a transmit stream, 128 to 255. -/
def sdpGet (args : List Word) (d : Dev) : (Nat × List Word) × Dev :=
  let s := (wd args 0).toNat
  if s < 128 ∨ s > 255 then ((2, []), d)
  else ((0, [w32 (0x10000000 + Config.sdpAddr s % 0x400000), 0#32, w32 (Config.sdpLen s)]), d)

/-! ### Frames (R407) -/

/-- FRAME_TX: the frame goes into the buffer of a free descriptor, which is posted; the reply follows it, FAILED at once where an access has the
error response. -/
def frameTx (h : Nat) (ecc : List EccHit) (tag : Nat) (args : List Word) (w : World) : Answer × World :=
  let p := (wd args 0).toNat
  let n := (wd args 1).toNat
  let a := pair (wd args 2) (wd args 3)
  if args.length ≠ 4 ∨ p > 2 ∨ n = 0 ∨ n > w.dev.bufBytes ∨ !w.dev.region a n then (some (2, []), w)
  else if !w.dev.npHas p then (some (5, []), w)
  else match w.dev.net.free with
    | [] => (some (3, []), w)
    | k :: rest =>
      let e := w.dev.descAt k
      let buf := (descBuf w.mem e).1
      let hi := bits (Memory.rd32 w.mem (e + 4)) 0 8
      let desc := [w32 (p * 2 ^ 27 + n * 2 ^ 10 + hi), 0#32].flatMap wordBytes
      let r := fwFetch a n ecc w
      match r.1 with
      | none => (some (6, []), r.2)
      | some bs =>
        let x := fwStore buf bs ecc r.2
        let y := fwStore (e + 4) desc ecc x.2
        if x.1 || y.1 then (some (6, []), y.2)
        else (none, y.2.onDev (fun d =>
          let d := (d.onNet (fun x => { x with free := rest })).setOwner k 2
          (txPost (.station 0) p (w32 k) y.2.mem d).onHi (fun i => { i with txWait := i.txWait ++ [(h, tag, k)] })))

def frameRxSet (args : List Word) (d : Dev) : (Nat × List Word) × Dev :=
  let ports := (wd args 0).toNat
  if ports > 7 ∨ (wd args 1).toNat ≥ 65536 then ((2, []), d)
  else if ports = 2 ∧ !d.cap.netb then ((5, []), d)
  else ((0, []), d.onHi (fun h => { h with
    ring := some ⟨ports, (wd args 1).toNat, pair (wd args 2) (wd args 3), (wd args 4).toNat, []⟩ }))

/-- FRAME_RX_DONE: the buffer is the ring's again, and a frame that waited for one is handed over. -/
def frameRxDone (ecc : List EccHit) (_tag : Nat) (args : List Word) (w : World) : Answer × World :=
  let i := (wd args 0).toNat
  match w.dev.hi.ring with
  | none => (some (2, []), w)
  | some r =>
    if args.length ≠ 1 ∨ !r.busy.contains i then (some (2, []), w)
    else
      let w := w.onDev (fun d => d.onHi (fun h => { h with ring := some { r with busy := r.busy.erase i } }))
      (some (0, []), (List.range 3).foldl (fun w p => rxHand p ecc w) w)

/-! ### Health and unlock (R407; 12_twin.md R360; 17_security_debug.md R471, R472) -/

/-- The own health report, or on a unit without a twin the same words, whose temperature is measured. -/
def healthGet (_args : List Word) (d : Dev) : (Nat × List Word) × Dev :=
  if d.cap.twin then ((0, (List.range 8).map (fun k => d.rd (R.TWN_HLTH.at k))), d)
  else
    let r := d.fresh
    ((0, healthWords (sgn 16 r.1.toNat) r.2), r.2)

def secChallenge (nonce : List Byte) (_args : List Word) (d : Dev) : (Nat × List Word) × Dev :=
  ((0, d.challenge nonce), issueNonce nonce d)

/-- Parts 0 to 2 are stored in order; part 3 submits the attempt. -/
def secUnlock (h tag : Nat) (args : List Word) (w : World) : Answer × World :=
  let d := w.dev
  let part := bits (wd args 0) 0 2
  let bs := beWords (args.drop 1)
  let got (k : Nat) : List Byte := Tbl.getD d.se.parts k []
  let drop (d : Dev) : Dev := d.onSe (fun s => { s with parts := [] })
  if args.length ≠ 9 then (some (2, []), w)
  else if part ≠ d.se.parts.length then (some (2, []), w.onDev drop)
  else if part < 3 then (some (0, []), w.onDev (fun d => d.onSe (fun s => { s with parts := s.parts ++ [(part, bs)] })))
  else
    let r := submit ⟨bit (wd args 0) 8, got 0, got 1, got 2, bs, none, some (h, tag)⟩ (drop d)
    (r.1.map (fun st => (st, [])), { w with dev := r.2 })

/-! ### Meanings -/

/-- A command row of host `h`. -/
def okCmd (h : Fin 3) (code : Nat) (s : State) (f : Nat → List Word → World → Answer × World) : Out :=
  .next (s.onAll (fun w => w.when (!w.dev.asleep) (fwCmd h.val code (fun _ _ => false) f)))

/-- A command row of host `h` whose arguments 2 and 3 are an address, and 1 a length, that firmware accesses. -/
def okCmdAt (h : Fin 3) (code : Nat) (s : State) (f : Nat → List Word → World → Answer × World) : Out :=
  .next (s.onAll (fun w => w.when (!w.dev.asleep)
    (fwCmd h.val code (fun args d => !d.reach 0 (pair (wd args 2) (wd args 3)) (min (wd args 1).toNat 65536)) f)))

def execPing (h : Fin 3) (s : State) : Out := okCmd h 0x01 s (onDevice ping)
def execGetInfo (h : Fin 3) (s : State) : Out := okCmd h 0x02 s (onDevice (withArgs 0 getInfo))
def execGetStatus (h : Fin 3) (s : State) : Out := okCmd h 0x03 s (onDevice (withArgs 0 getStatus))
def execSetMode (h : Fin 3) (s : State) : Out := okCmd h 0x10 s (onDevice setMode)
def execConsistLoad (h : Fin 3) (s : State) : Out := okCmd h 0x20 s (consistLoad h.val)
def execFlashRead (h : Fin 3) (bytes : List Byte) (good : Bool) (ecc : List EccHit) (s : State) : Out :=
  okCmdAt h 0x30 s (flashRead bytes good ecc)
def execFlashWrite (h : Fin 3) (good : Bool) (ecc : List EccHit) (s : State) : Out := okCmdAt h 0x31 s (flashWrite good ecc)
def execFlashErase (h : Fin 3) (good : Bool) (s : State) : Out := okCmd h 0x32 s (flashErase good)
def execPtpSet (h : Fin 3) (s : State) : Out := okCmd h 0x40 s (onDevice ptpSetCmd)
def execPtpGet (h : Fin 3) (s : State) : Out := okCmd h 0x41 s (onDevice (withArgs 1 ptpGet))
def execSdpGet (h : Fin 3) (s : State) : Out := okCmd h 0x50 s (onDevice (withArgs 1 sdpGet))
def execFrameTx (h : Fin 3) (ecc : List EccHit) (s : State) : Out := okCmdAt h 0x60 s (frameTx h.val ecc)
def execFrameRxSet (h : Fin 3) (s : State) : Out := okCmd h 0x61 s (onDevice (withArgs 5 frameRxSet))
def execFrameRxDone (h : Fin 3) (ecc : List EccHit) (s : State) : Out := okCmd h 0x62 s (frameRxDone ecc)
def execHealthGet (h : Fin 3) (s : State) : Out := okCmd h 0x70 s (onDevice (withArgs 0 healthGet))
def execSecChallenge (h : Fin 3) (nonce : List Byte) (s : State) : Out := okCmd h 0x80 s (onDevice (withArgs 0 (secChallenge nonce)))
def execSecUnlock (h : Fin 3) (s : State) : Out := okCmd h 0x81 s (secUnlock h.val)

end Sys2Proof.Machine
end

