-- ==== Sys2Proof/Machine/HostBus.lean ====
section
/-!
DEFINITION. The SPI and I2C slaves (14_host_mailboxes.md R390 to R394).
Marks (notes/assumptions): DEDUCED 10, 16, 20.
-/
namespace Sys2Proof.Machine

/-! ### SPI (R390, R391) -/

/-- The next word's address wraps within its 4 KiB page. -/
def pageNext (a : Nat) : Nat := a / 4096 * 4096 + (a + 4) % 4096

/-- The SPI host's words that wait for the fabric. -/
def Dev.spiWaiting (d : Dev) : Nat := (d.ms.fq.filter (fun x => x.req.agent == some .spi && x.req.write)).length

/-- A word of a frame is issued: whether an access of the frame has the error response, and what follows. -/
def spiTry (write : Bool) (a : Nat) (v : Word) (w : World) : Bool × World :=
  let was := bit (w.dev.rd R.HIF_SPI_STAT) 0
  let w0 := w.onDev (fun d => (d.answers []).clrBit R.HIF_SPI_STAT 0)
  let x := issueNow false (w0.dev.wordReq .spi 0 write a v false []) w0
  (bit (x.dev.rd R.HIF_SPI_STAT) 0, x.onDev (fun d => d.when was (fun d => d.setBit R.HIF_SPI_STAT 0)))

/-- The words of a write frame, until an access has the error response; while sixteen words wait for the fabric, a further one is dropped and WOVF
sets. -/
def spiWords (ws : List Word) (a : Nat) (w : World) : World :=
  match ws with
  | [] => w
  | v :: rest =>
    if w.dev.spiWaiting ≥ 16 then spiWords rest (pageNext a) (w.onDev (fun d => d.setBit R.HIF_SPI_STAT 2))
    else
      let x := spiTry true a v w
      if x.1 then x.2 else spiWords rest (pageNext a) x.2

/-- The read of DRAM that the fabric has just queued, if the controller may serve it at once (13_memory.md R374, R383). -/
def Dev.dramNow (d : Dev) (was : Nat) : Option DReq :=
  (d.ms.ready.filter (fun q => decide (was ≤ q.seq) && q.port == 2 && q.master == Agent.spi.master && !q.write)).head?

/-- A read of the SPI host still waits for the fabric; the one just issued is the youngest of the port's one ID (13_memory.md R375), so it waits
exactly when any does. -/
def Dev.spiReadWaits (d : Dev) : Bool := d.ms.fq.any (fun x => x.req.agent == some .spi && !x.req.write)

/-- The words of a read frame: a word with the error response reads 0 and the frame's later words are ignored; a word that the fabric does not
serve at once is not ready in time. -/
def spiReads (a : Nat) (w : World) : (n : Nat) → List Word × World
  | 0 => ([], w)
  | n + 1 =>
    let x := spiTry false a 0#32 w
    let y := match x.2.dev.dramNow w.dev.ms.seq with
      | some q =>
        let r := drServe q [] x.2.mem (drIssue q x.2.dev)
        { x.2 with mem := r.1, dev := r.2 }.sends x.2
      | none => x.2
    if x.1 || (y.dev.resp.err && !x.2.dev.resp.err) then (List.replicate (n + 1) 0#32, y)
    else match (if y.dev.spiReadWaits then [] else y.dev.resp.data) with
      | v :: _ =>
        let r := spiReads (pageNext a) y n
        (v :: r.1, r.2)
      | [] =>
        let r := spiReads (pageNext a) (y.onDev (fun d => d.setBit R.HIF_SPI_STAT 1)) n
        (0#32 :: r.1, r.2)

def spiRead (a n : Nat) (w : World) : World :=
  let r := spiReads a w n
  r.2.onDev (fun d => d.answers r.1)

/-- The status byte, then cleared; READY stays. -/
def spiStatus (d : Dev) : Dev :=
  if d.dark then d.answer 0#32
  else (d.answer (d.rd R.HIF_SPI_STAT ||| 0x80#32)).setF ⟨R.HIF_SPI_STAT, 0, 3⟩ 0

/-! ### I2C (R392 to R394) -/

/-- The registers of the always-on domain: the Depot block, the jack pins, the slave's own status. -/
def i2cOn (b : Nat) : Bool := b == 16 || b == 11 || b == 15

/-- A register of the main domain is reached over the fabric (13_memory.md R372). -/
def i2cGrant (b : Nat) (write : Bool) (d : Dev) : Dev := d.when (!i2cOn b) (granted 11 11 write)

def i2cErr (d : Dev) : Dev := d.setBit R.HIF_I2C_STAT 0

/-- A word at the pointer: while the main domain is off, its locations read 0 and ignore writes. -/
def i2cPut (p : Nat) (v : Word) (d : Dev) : Dev :=
  match i2cReg p with
  | none => i2cErr d
  | some (b, off) =>
    if d.dark && (!i2cOn b || (b == 16 && off == 0x010)) then d else devWrite .i2c b off v (i2cGrant b true d)

def i2cGet (p : Nat) (z : Fuses) (d : Dev) : Dev :=
  match i2cReg p with
  | none => i2cErr (d.answer 0#32)
  | some (b, off) => if d.dark && !i2cOn b then d.answer 0#32 else regRead .i2c b off z (i2cGrant b false d)

def Dev.i2cMove (d : Dev) (p : Nat) : Dev := d.onHi (fun h => { h with i2cPtr := p % 65536 })

/-- The complete words of a write transfer. -/
def i2cPuts (bs : List Byte) (d : Dev) : Dev :=
  match bs with
  | b0 :: b1 :: b2 :: b3 :: rest =>
    i2cPuts rest ((notify d (i2cPut d.hi.i2cPtr ((packWords [b0, b1, b2, b3])[0]?.getD 0#32) d)).i2cMove (d.hi.i2cPtr + 4))
  | _ => d

/-- `k` words of a read transfer; where it is cut short (`cut`), the pointer stays on the last word. -/
def i2cGets (z : Fuses) (cut : Bool) (d : Dev) : (k : Nat) → List Word × Dev
  | 0 => ([], d)
  | k + 1 =>
    let g := notify d (i2cGet d.hi.i2cPtr z d)
    let w := (g.resp.data[0]?).getD 0#32
    let r := i2cGets z cut (if cut && k == 0 then g else g.i2cMove (d.hi.i2cPtr + 4)) k
    (w :: r.1, r.2)

/-- An address match is a wake source in Depot and Siding (16_modes_power.md R452). -/
def i2cMatch (d : Dev) : Dev := d.when (d.inMode mDepot || d.inMode mSiding) (latchWake 1)

def i2cWrite (bs : List Byte) (d : Dev) : Dev :=
  match bs with
  | hi :: lo :: rest => i2cPuts rest ((notify d (i2cMatch d)).i2cMove (hi.toNat * 256 + lo.toNat))
  | _ => notify d (i2cMatch d)

def i2cRead (n : Nat) (w : World) : World :=
  let r := i2cGets w.fuses (n % 4 != 0) (notify w.dev (i2cMatch w.dev)) ((n + 3) / 4)
  w.onDev (fun _ => r.2.answers r.1)

/-! ### Accesses that came in Siding (16_modes_power.md R452) -/

/-- A word's access by its agent. -/
def lateWord (m : Agent) (a : Nat) (write : Bool) (v : Word) (w : World) : World :=
  if m == .spi then (if write then spiWords [v] a w else spiRead a 1 w)
  else ((accessAt m a write (if write then addrWrite m a v else fun w => w.onDev (addrRead m a w.fuses))) w).sends w

def lateAct (w : World) (x : LateAcc) : World :=
  match x with
  | .word m a write v => lateWord m a write v w
  | .spiWrite a ws => spiWords ws (a % 2 ^ 32) w
  | .spiRead a n => spiRead (a % 2 ^ 32) n w
  | .spiStatus => (w.onDev spiStatus).sends w

/-- After the exit the accesses that waited are made, in their order. -/
def lateAll (w : World) : World :=
  w.when (!w.dev.asleep) (fun w => w.dev.hi.late.foldl lateAct (w.onDev (fun d => d.onHi (fun h => { h with late := [] }))))

/-! ### Meanings -/

def execTransitionStepEnd (s : State) : Out := .next (s.onAllWords (fun w => lateAll ((stepEndAll w).sends w)))

def execSpiWrite (addr : Nat) (ws : List Word) (s : State) : Out := okFrame .spi (.spiWrite addr ws) s (fun w => spiWords ws (addr % 2 ^ 32) w)
def execSpiRead (addr n : Nat) (s : State) : Out := okFrame .spi (.spiRead addr n) s (fun w => spiRead (addr % 2 ^ 32) n w)
def execSpiStatus (s : State) : Out :=
  .next (s.onDev (fun d => if d.knocks .spi then knock .spiStatus d else spiStatus d))
def execI2cWrite (bytes : List Byte) (s : State) : Out := .next (s.onAllWords (fun w => w.onDev (i2cWrite bytes)))
def execI2cRead (n : Nat) (s : State) : Out := .next (s.onAllWords (i2cRead n))

end Sys2Proof.Machine
end

