-- ==== Sys2Proof/Machine/Dispatch.lean ====
section
/-!
DEFINITION. The dispatcher: one arm per command, each a direct call of its meaning.
-/
namespace Sys2Proof.Machine

def exec (i : Instr) (s : State) : Host.Outcome State Fault Refusal :=
  match i with
  | .departure cyc ecc => Sys2Proof.Machine.execDeparture cyc ecc s
  | .ticketAuditCompare => Sys2Proof.Machine.execTicketAuditCompare s
  | .queueSlotFilled q => Sys2Proof.Machine.execQueueSlotFilled q s
  | .ticketReturn q => Sys2Proof.Machine.execTicketReturn q s
  | .regWrite m addr v => Sys2Proof.Machine.execRegWrite m addr v s
  | .wideLoRead m addr => Sys2Proof.Machine.execWideLoRead m addr s
  | .wideLoWrite m addr v => Sys2Proof.Machine.execWideLoWrite m addr v s
  | .wideHiWrite m addr v => Sys2Proof.Machine.execWideHiWrite m addr v s
  | .peakRegWrite m addr v => Sys2Proof.Machine.execPeakRegWrite m addr v s
  | .unmappedAccess m write addr v => Sys2Proof.Machine.execUnmappedAccess m write addr v s
  | .tkaClr m v => Sys2Proof.Machine.execTkaClr m v s
  | .objUpdStage m k v => Sys2Proof.Machine.execObjUpdStage m k v s
  | .objPost m v => Sys2Proof.Machine.execObjPost m v s
  | .gsvRingHead m v => Sys2Proof.Machine.execGsvRingHead m v s
  | .gsvRingEnable m v => Sys2Proof.Machine.execGsvRingEnable m v s
  | .ringRecordFetched r => Sys2Proof.Machine.execRingRecordFetched r s
  | .ringStallEnd => Sys2Proof.Machine.execRingStallEnd s
  | .ringErr => Sys2Proof.Machine.execRingErr s
  | .flush m v => Sys2Proof.Machine.execFlush m v s
  | .solveBlock => Sys2Proof.Machine.execSolveBlock s
  | .gsvCntClr m v => Sys2Proof.Machine.execGsvCntClr m v s
  | .nodeWr m v ecc => Sys2Proof.Machine.execNodeWr m v ecc s
  | .nodeCaptureRead m => Sys2Proof.Machine.execNodeCaptureRead m s
  | .copy m v => Sys2Proof.Machine.execCopy m v s
  | .copyDone => Sys2Proof.Machine.execCopyDone s
  | .qclr m v => Sys2Proof.Machine.execQclr m v s
  | .nzClr m v => Sys2Proof.Machine.execNzClr m v s
  | .crmSwap m v => Sys2Proof.Machine.execCrmSwap m v s
  | .crmRenderGroup ecc => Sys2Proof.Machine.execCrmRenderGroup ecc s
  | .blkGo m v => Sys2Proof.Machine.execBlkGo m v s
  | .blkRecordApply ecc => Sys2Proof.Machine.execBlkRecordApply ecc s
  | .blkErr => Sys2Proof.Machine.execBlkErr s
  | .crmCntClr m v => Sys2Proof.Machine.execCrmCntClr m v s
  | .cceFeedBlock feed cyc tailReady ecc => Sys2Proof.Machine.execCceFeedBlock feed cyc tailReady ecc s
  | .tailWaitEnd feed cyc => Sys2Proof.Machine.execTailWaitEnd feed cyc s
  | .fcDlyWrite m v => Sys2Proof.Machine.execFcDlyWrite m v s
  | .fcSosCoefAccess m write v => Sys2Proof.Machine.execFcSosCoefAccess m write v s
  | .fcSosBypWrite m v => Sys2Proof.Machine.execFcSosBypWrite m v s
  | .fldGo m v => Sys2Proof.Machine.execFldGo m v s
  | .fldStartAfterSwap => Sys2Proof.Machine.execFldStartAfterSwap s
  | .fldDone ecc => Sys2Proof.Machine.execFldDone ecc s
  | .fldErr done => Sys2Proof.Machine.execFldErr done s
  | .fcSwap m v => Sys2Proof.Machine.execFcSwap m v s
  | .cceSwap m v => Sys2Proof.Machine.execCceSwap m v s
  | .cceCntClr m v => Sys2Proof.Machine.execCceCntClr m v s
  | .vNop e o => Sys2Proof.Machine.execVNop e o s
  | .vMov e o => Sys2Proof.Machine.execVMov e o s
  | .vAdd e o => Sys2Proof.Machine.execVAdd e o s
  | .vSub e o => Sys2Proof.Machine.execVSub e o s
  | .vAdds e o => Sys2Proof.Machine.execVAdds e o s
  | .vSubs e o => Sys2Proof.Machine.execVSubs e o s
  | .vNegs e o => Sys2Proof.Machine.execVNegs e o s
  | .vAbss e o => Sys2Proof.Machine.execVAbss e o s
  | .vAnd e o => Sys2Proof.Machine.execVAnd e o s
  | .vOr e o => Sys2Proof.Machine.execVOr e o s
  | .vXor e o => Sys2Proof.Machine.execVXor e o s
  | .vNot e o => Sys2Proof.Machine.execVNot e o s
  | .vShl e o => Sys2Proof.Machine.execVShl e o s
  | .vShr e o => Sys2Proof.Machine.execVShr e o s
  | .vShrl e o => Sys2Proof.Machine.execVShrl e o s
  | .vMin e o => Sys2Proof.Machine.execVMin e o s
  | .vMax e o => Sys2Proof.Machine.execVMax e o s
  | .vCmp e o => Sys2Proof.Machine.execVCmp e o s
  | .vNsb e o => Sys2Proof.Machine.execVNsb e o s
  | .vMpy e o => Sys2Proof.Machine.execVMpy e o s
  | .vMac e o => Sys2Proof.Machine.execVMac e o s
  | .vMsu e o => Sys2Proof.Machine.execVMsu e o s
  | .vMac2 e o => Sys2Proof.Machine.execVMac2 e o s
  | .vAclr e o => Sys2Proof.Machine.execVAclr e o s
  | .vAmov e o => Sys2Proof.Machine.execVAmov e o s
  | .vAadd e o => Sys2Proof.Machine.execVAadd e o s
  | .vAshl e o => Sys2Proof.Machine.execVAshl e o s
  | .vAshr e o => Sys2Proof.Machine.execVAshr e o s
  | .vArd e o => Sys2Proof.Machine.execVArd e o s
  | .vAld e o => Sys2Proof.Machine.execVAld e o s
  | .vTapm e o => Sys2Proof.Machine.execVTapm e o s
  | .vBxv e o => Sys2Proof.Machine.execVBxv e o s
  | .vCmac e o => Sys2Proof.Machine.execVCmac e o s
  | .vBfly e o => Sys2Proof.Machine.execVBfly e o s
  | .vMvc e o => Sys2Proof.Machine.execVMvc e o s
  | .vMcv e o => Sys2Proof.Machine.execVMcv e o s
  | .loadWord e y sl other ce => Sys2Proof.Machine.execLoadWord e y sl other ce s
  | .storeWord e y sl other ce => Sys2Proof.Machine.execStoreWord e y sl other ce s
  | .loadPair e y sl other ce => Sys2Proof.Machine.execLoadPair e y sl other ce s
  | .storePair e y sl other ce => Sys2Proof.Machine.execStorePair e y sl other ce s
  | .storeAcc e y sl other ce => Sys2Proof.Machine.execStoreAcc e y sl other ce s
  | .registerCopy e y sl other ce => Sys2Proof.Machine.execRegisterCopy e y sl other ce s
  | .ldi e r => Sys2Proof.Machine.execLdi e r s
  | .ldip e r => Sys2Proof.Machine.execLdip e r s
  | .ldim e r => Sys2Proof.Machine.execLdim e r s
  | .ldil e r => Sys2Proof.Machine.execLdil e r s
  | .addi e r => Sys2Proof.Machine.execAddi e r s
  | .addip e r => Sys2Proof.Machine.execAddip e r s
  | .mvp e r => Sys2Proof.Machine.execMvp e r s
  | .mpv e r => Sys2Proof.Machine.execMpv e r s
  | .controlNop e c => Sys2Proof.Machine.execControlNop e c s
  | .bra e c => Sys2Proof.Machine.execBra e c s
  | .call e c => Sys2Proof.Machine.execCall e c s
  | .ret e c => Sys2Proof.Machine.execRet e c s
  | .loop e c => Sys2Proof.Machine.execLoop e c s
  | .loopr e c => Sys2Proof.Machine.execLoopr e c s
  | .endItem e c => Sys2Proof.Machine.execEndItem e c s
  | .prot e c => Sys2Proof.Machine.execProt e c s
  | .unprot e c => Sys2Proof.Machine.execUnprot e c s
  | .xgo e c => Sys2Proof.Machine.execXgo e c s
  | .xwait e c => Sys2Proof.Machine.execXwait e c s
  | .brk e c => Sys2Proof.Machine.execBrk e c s
  | .xferStartAfterWait e c => Sys2Proof.Machine.execXferStartAfterWait e c s
  | .xferDone e c waited ecc => Sys2Proof.Machine.execXferDone e c waited ecc s
  | .xferErr e c waited => Sys2Proof.Machine.execXferErr e c waited s
  | .qputTicketArrive e c => Sys2Proof.Machine.execQputTicketArrive e c s
  | .protTimeout e => Sys2Proof.Machine.execProtTimeout e s
  | .itemStart e => Sys2Proof.Machine.execItemStart e s
  | .itemDone e cyc => Sys2Proof.Machine.execItemDone e cyc s
  | .itemAbort e ecc cyc => Sys2Proof.Machine.execItemAbort e ecc cyc s
  | .preemptAct e => Sys2Proof.Machine.execPreemptAct e s
  | .contextSaved e cyc => Sys2Proof.Machine.execContextSaved e cyc s
  | .contextRestored e => Sys2Proof.Machine.execContextRestored e s
  | .engCntClr m e v => Sys2Proof.Machine.execEngCntClr m e v s
  | .dispatch cyc => Sys2Proof.Machine.execDispatch cyc s
  | .stageDone item cyc => Sys2Proof.Machine.execStageDone item cyc s
  | .releaseExpire item cyc => Sys2Proof.Machine.execReleaseExpire item cyc s
  | .deadlineExpire item cyc => Sys2Proof.Machine.execDeadlineExpire item cyc s
  | .daudit cyc => Sys2Proof.Machine.execDaudit cyc s
  | .gldGo m v => Sys2Proof.Machine.execGldGo m v s
  | .gldStartAfterOld => Sys2Proof.Machine.execGldStartAfterOld s
  | .gldDone ecc => Sys2Proof.Machine.execGldDone ecc s
  | .sbGswap m v => Sys2Proof.Machine.execSbGswap m v s
  | .traceClr m v => Sys2Proof.Machine.execTraceClr m v s
  | .traceCaptureRead m => Sys2Proof.Machine.execTraceCaptureRead m s
  | .sbCntClr m v => Sys2Proof.Machine.execSbCntClr m v s
  | .portEnable m v => Sys2Proof.Machine.execPortEnable m v s
  | .portDisable m v => Sys2Proof.Machine.execPortDisable m v s
  | .tdmFrame p fr => Sys2Proof.Machine.execTdmFrame p fr s
  | .portLock p => Sys2Proof.Machine.execPortLock p s
  | .started p => Sys2Proof.Machine.execStarted p s
  | .slotZcSwitch p tx slot => Sys2Proof.Machine.execSlotZcSwitch p tx slot s
  | .zcTo p => Sys2Proof.Machine.execZcTo p s
  | .stopped p => Sys2Proof.Machine.execStopped p s
  | .loss p => Sys2Proof.Machine.execLoss p s
  | .rate p => Sys2Proof.Machine.execRate p s
  | .rejoin p phaseChanged => Sys2Proof.Machine.execRejoin p phaseChanged s
  | .tdmGroupStart m v => Sys2Proof.Machine.execTdmGroupStart m v s
  | .tdmGroupStop m v => Sys2Proof.Machine.execTdmGroupStop m v s
  | .groupMemberLeft p => Sys2Proof.Machine.execGroupMemberLeft p s
  | .aesRxLock r => Sys2Proof.Machine.execAesRxLock r s
  | .aes3Frame tx r fr => Sys2Proof.Machine.execAes3Frame tx r fr s
  | .channelStatusBlock r sub bytes => Sys2Proof.Machine.execChannelStatusBlock r sub bytes s
  | .arCsCaptureRead m r => Sys2Proof.Machine.execArCsCaptureRead m r s
  | .atCsStage m t k v => Sys2Proof.Machine.execAtCsStage m t k v s
  | .atCs5Commit m t v => Sys2Proof.Machine.execAtCs5Commit m t v s
  | .csBlockBegin t => Sys2Proof.Machine.execCsBlockBegin t s
  | .srcLocked a ratio => Sys2Proof.Machine.execSrcLocked a ratio s
  | .srcRelock a => Sys2Proof.Machine.execSrcRelock a s
  | .tioCntClr m v => Sys2Proof.Machine.execTioCntClr m v s
  | .nbPoolCreate m v => Sys2Proof.Machine.execNbPoolCreate m v s
  | .nbAlloc m => Sys2Proof.Machine.execNbAlloc m s
  | .nbRelease m v => Sys2Proof.Machine.execNbRelease m v s
  | .npTxpost m p v => Sys2Proof.Machine.execNpTxpost m p v s
  | .txDone p r => Sys2Proof.Machine.execTxDone p r s
  | .frameReceive p fr => Sys2Proof.Machine.execFrameReceive p fr s
  | .npTxdonePop m p => Sys2Proof.Machine.execNpTxdonePop m p s
  | .npRxrdyPop m p => Sys2Proof.Machine.execNpRxrdyPop m p s
  | .streamEnable m v => Sys2Proof.Machine.execStreamEnable m v s
  | .streamPacketRx p fr => Sys2Proof.Machine.execStreamPacketRx p fr s
  | .streamPacketTx st => Sys2Proof.Machine.execStreamPacketTx st s
  | .prpEntryExpire src seq => Sys2Proof.Machine.execPrpEntryExpire src seq s
  | .netLinkChange p up speed => Sys2Proof.Machine.execNetLinkChange p up speed s
  | .txSelect p guard cyc => Sys2Proof.Machine.execTxSelect p guard cyc s
  | .gclEntryAdvance p => Sys2Proof.Machine.execGclEntryAdvance p s
  | .gclGo m p v => Sys2Proof.Machine.execGclGo m p v s
  | .gclSwap p => Sys2Proof.Machine.execGclSwap p s
  | .collision late => Sys2Proof.Machine.execCollision late s
  | .backoffExpire => Sys2Proof.Machine.execBackoffExpire s
  | .deferExpire => Sys2Proof.Machine.execDeferExpire s
  | .tsQueuePop m p tx => Sys2Proof.Machine.execTsQueuePop m p tx s
  | .metadataPacket p fr => Sys2Proof.Machine.execMetadataPacket p fr s
  | .mdCfgWrite m v => Sys2Proof.Machine.execMdCfgWrite m v s
  | .netCntClr m v => Sys2Proof.Machine.execNetCntClr m v s
  | .ptpMessage pm => Sys2Proof.Machine.execPtpMessage pm s
  | .tiOfsp m v cyc => Sys2Proof.Machine.execTiOfsp m v cyc s
  | .tiOfss m v => Sys2Proof.Machine.execTiOfss m v s
  | .primaryTimeout k cyc => Sys2Proof.Machine.execPrimaryTimeout k cyc s
  | .shadowTimeout k cyc => Sys2Proof.Machine.execShadowTimeout k cyc s
  | .clrBias m v => Sys2Proof.Machine.execClrBias m v s
  | .timeCaptureRead m cyc => Sys2Proof.Machine.execTimeCaptureRead m cyc s
  | .mediaClockTick mck n cyc => Sys2Proof.Machine.execMediaClockTick mck n cyc s
  | .realign m mck v => Sys2Proof.Machine.execRealign m mck v s
  | .pulseArm m k v cyc => Sys2Proof.Machine.execPulseArm m k v cyc s
  | .pulseEdge k cyc => Sys2Proof.Machine.execPulseEdge k cyc s
  | .captureEdge c rising n cyc width => Sys2Proof.Machine.execCaptureEdge c rising n cyc width s
  | .capturePop m c => Sys2Proof.Machine.execCapturePop m c s
  | .tuCntClr m v => Sys2Proof.Machine.execTuCntClr m v s
  | .refTick ms cs => Sys2Proof.Machine.execRefTick ms cs s
  | .refInputLoss k => Sys2Proof.Machine.execRefInputLoss k s
  | .holdoffExpire k => Sys2Proof.Machine.execHoldoffExpire k s
  | .reselect m v => Sys2Proof.Machine.execReselect m v s
  | .force m v => Sys2Proof.Machine.execForce m v s
  | .switchEnd ch phi => Sys2Proof.Machine.execSwitchEnd ch phi s
  | .acquireLock ch => Sys2Proof.Machine.execAcquireLock ch s
  | .histValid ch => Sys2Proof.Machine.execHistValid ch s
  | .ruCntClr m v => Sys2Proof.Machine.execRuCntClr m v s
  | .aiEnable m v => Sys2Proof.Machine.execAiEnable m v s
  | .aiDisable m v => Sys2Proof.Machine.execAiDisable m v s
  | .aiSync m v => Sys2Proof.Machine.execAiSync m v s
  | .syncDone g => Sys2Proof.Machine.execSyncDone g s
  | .fvalidSet n => Sys2Proof.Machine.execFvalidSet n s
  | .pgaWrite m v => Sys2Proof.Machine.execPgaWrite m v s
  | .pgaStep n => Sys2Proof.Machine.execPgaStep n s
  | .pgaTo n => Sys2Proof.Machine.execPgaTo n s
  | .adcSample n idx words overload => Sys2Proof.Machine.execAdcSample n idx words overload s
  | .thrOff n => Sys2Proof.Machine.execThrOff n s
  | .mbEnable m k v => Sys2Proof.Machine.execMbEnable m k v s
  | .mbDisable m k v => Sys2Proof.Machine.execMbDisable m k v s
  | .mbDwellEnd k lim => Sys2Proof.Machine.execMbDwellEnd k lim s
  | .mbOc k => Sys2Proof.Machine.execMbOc k s
  | .mbOpen k => Sys2Proof.Machine.execMbOpen k s
  | .aiCntClr m v => Sys2Proof.Machine.execAiCntClr m v s
  | .jackMeasure n ohms => Sys2Proof.Machine.execJackMeasure n ohms s
  | .jackTypeAccept n => Sys2Proof.Machine.execJackTypeAccept n s
  | .aoEnable m v => Sys2Proof.Machine.execAoEnable m v s
  | .aoDisable m v => Sys2Proof.Machine.execAoDisable m v s
  | .aoDwellEnd c => Sys2Proof.Machine.execAoDwellEnd c s
  | .slewUpdate c => Sys2Proof.Machine.execSlewUpdate c s
  | .seqDone c => Sys2Proof.Machine.execSeqDone c s
  | .aoSpanWrite m v => Sys2Proof.Machine.execAoSpanWrite m v s
  | .aoSosCoefAccess m write v => Sys2Proof.Machine.execAoSosCoefAccess m write v s
  | .aoSosCommit m v => Sys2Proof.Machine.execAoSosCommit m v s
  | .exCfgWrite m k v => Sys2Proof.Machine.execExCfgWrite m k v s
  | .expressRampDone k => Sys2Proof.Machine.execExpressRampDone k s
  | .expressFadeDone c => Sys2Proof.Machine.execExpressFadeDone c s
  | .aoCntClr m v => Sys2Proof.Machine.execAoCntClr m v s
  | .pairUp m v => Sys2Proof.Machine.execPairUp m v s
  | .switchTwin m v => Sys2Proof.Machine.execSwitchTwin m v s
  | .take m v => Sys2Proof.Machine.execTake m v s
  | .giveup m v => Sys2Proof.Machine.execGiveup m v s
  | .resync m v => Sys2Proof.Machine.execResync m v s
  | .hello h => Sys2Proof.Machine.execHello h s
  | .mark k => Sys2Proof.Machine.execMark k s
  | .block b => Sys2Proof.Machine.execBlock b s
  | .switchFrame good blk => Sys2Proof.Machine.execSwitchFrame good blk s
  | .ack f => Sys2Proof.Machine.execAck f s
  | .chunk c => Sys2Proof.Machine.execChunk c s
  | .crcpass c => Sys2Proof.Machine.execCrcpass c s
  | .bulk b => Sys2Proof.Machine.execBulk b s
  | .check good blk crc late => Sys2Proof.Machine.execCheck good blk crc late s
  | .health good words => Sys2Proof.Machine.execHealth good words s
  | .fault good cause blk => Sys2Proof.Machine.execFault good cause blk s
  | .ephamLinkUp lane => Sys2Proof.Machine.execEphamLinkUp lane s
  | .ephamLinkDown lane => Sys2Proof.Machine.execEphamLinkDown lane s
  | .linkSilence => Sys2Proof.Machine.execLinkSilence s
  | .markSend => Sys2Proof.Machine.execMarkSend s
  | .standbyDeparture cyc ecc => Sys2Proof.Machine.execStandbyDeparture cyc ecc s
  | .pinInstant blk => Sys2Proof.Machine.execPinInstant blk s
  | .clockSkewFault => Sys2Proof.Machine.execClockSkewFault s
  | .healthReport temp => Sys2Proof.Machine.execHealthReport temp s
  | .transferEnd => Sys2Proof.Machine.execTransferEnd s
  | .catchupEnd => Sys2Proof.Machine.execCatchupEnd s
  | .synced => Sys2Proof.Machine.execSynced s
  | .twnCntClr m v => Sys2Proof.Machine.execTwnCntClr m v s
  | .scrubVisit st addr err => Sys2Proof.Machine.execScrubVisit st addr err s
  | .fabricGrant g => Sys2Proof.Machine.execFabricGrant g s
  | .lockedRead m addr ecc => Sys2Proof.Machine.execLockedRead m addr ecc s
  | .unlockingWrite m addr v ecc => Sys2Proof.Machine.execUnlockingWrite m addr v ecc s
  | .lockTo t => Sys2Proof.Machine.execLockTo t s
  | .msRemapWrite m v => Sys2Proof.Machine.execMsRemapWrite m v s
  | .selfCheck res => Sys2Proof.Machine.execSelfCheck res s
  | .drSegWrite m v => Sys2Proof.Machine.execDrSegWrite m v s
  | .drInitDone n => Sys2Proof.Machine.execDrInitDone n s
  | .dramRequest r => Sys2Proof.Machine.execDramRequest r s
  | .drTrainDone gib lanes => Sys2Proof.Machine.execDrTrainDone gib lanes s
  | .dramTrack steps => Sys2Proof.Machine.execDramTrack steps s
  | .retrain m v => Sys2Proof.Machine.execRetrain m v s
  | .msCntClr m v => Sys2Proof.Machine.execMsCntClr m v s
  | .spiWrite addr ws => Sys2Proof.Machine.execSpiWrite addr ws s
  | .spiRead addr n => Sys2Proof.Machine.execSpiRead addr n s
  | .spiStatus => Sys2Proof.Machine.execSpiStatus s
  | .i2cWrite bytes => Sys2Proof.Machine.execI2cWrite bytes s
  | .i2cRead n => Sys2Proof.Machine.execI2cRead n s
  | .pcieReset kind => Sys2Proof.Machine.execPcieReset kind s
  | .pcieLink up speed width => Sys2Proof.Machine.execPcieLink up speed width s
  | .qsCmdGo m v => Sys2Proof.Machine.execQsCmdGo m v s
  | .qsDone bytes good => Sys2Proof.Machine.execQsDone bytes good s
  | .mbStageWrite m k v => Sys2Proof.Machine.execMbStageWrite m k v s
  | .mbDb m v => Sys2Proof.Machine.execMbDb m v s
  | .mbAck m v => Sys2Proof.Machine.execMbAck m v s
  | .mbTimeout x => Sys2Proof.Machine.execMbTimeout x s
  | .sideRst m v => Sys2Proof.Machine.execSideRst m v s
  | .stationCoreReset k wdog => Sys2Proof.Machine.execStationCoreReset k wdog s
  | .mbAudit => Sys2Proof.Machine.execMbAudit s
  | .mbCntClr m v => Sys2Proof.Machine.execMbCntClr m v s
  | .lockRead m k => Sys2Proof.Machine.execLockRead m k s
  | .lockWrite m k v => Sys2Proof.Machine.execLockWrite m k v s
  | .gpioEdge pin rising => Sys2Proof.Machine.execGpioEdge pin rising s
  | .heldReplyPost x => Sys2Proof.Machine.execHeldReplyPost x s
  | .ping h => Sys2Proof.Machine.execPing h s
  | .getInfo h => Sys2Proof.Machine.execGetInfo h s
  | .getStatus h => Sys2Proof.Machine.execGetStatus h s
  | .setMode h => Sys2Proof.Machine.execSetMode h s
  | .consistLoad h => Sys2Proof.Machine.execConsistLoad h s
  | .flashRead h bytes good ecc => Sys2Proof.Machine.execFlashRead h bytes good ecc s
  | .flashWrite h good ecc => Sys2Proof.Machine.execFlashWrite h good ecc s
  | .flashErase h good => Sys2Proof.Machine.execFlashErase h good s
  | .ptpSet h => Sys2Proof.Machine.execPtpSet h s
  | .ptpGet h => Sys2Proof.Machine.execPtpGet h s
  | .sdpGet h => Sys2Proof.Machine.execSdpGet h s
  | .frameTx h ecc => Sys2Proof.Machine.execFrameTx h ecc s
  | .frameRxSet h => Sys2Proof.Machine.execFrameRxSet h s
  | .frameRxDone h ecc => Sys2Proof.Machine.execFrameRxDone h ecc s
  | .healthGet h => Sys2Proof.Machine.execHealthGet h s
  | .secChallenge h nonce => Sys2Proof.Machine.execSecChallenge h nonce s
  | .secUnlock h => Sys2Proof.Machine.execSecUnlock h s
  | .carReceived c => Sys2Proof.Machine.execCarReceived c s
  | .boot sel dir => Sys2Proof.Machine.execBoot sel dir s
  | .haltRequest m v => Sys2Proof.Machine.execHaltRequest m v s
  | .resumeRequest m v => Sys2Proof.Machine.execResumeRequest m v s
  | .shuntRequest m v => Sys2Proof.Machine.execShuntRequest m v s
  | .inspectionRequest m v => Sys2Proof.Machine.execInspectionRequest m v s
  | .sidingRequest m v => Sys2Proof.Machine.execSidingRequest m v s
  | .depotRequest m v => Sys2Proof.Machine.execDepotRequest m v s
  | .transitionStepEnd => Sys2Proof.Machine.execTransitionStepEnd s
  | .wakeN => Sys2Proof.Machine.execWakeN s
  | .rtcAlarm => Sys2Proof.Machine.execRtcAlarm s
  | .wake src => Sys2Proof.Machine.execWake src s
  | .railStepEnd => Sys2Proof.Machine.execRailStepEnd s
  | .powerOnReset strap => Sys2Proof.Machine.execPowerOnReset strap s
  | .resetN => Sys2Proof.Machine.execResetN s
  | .sysRst m v => Sys2Proof.Machine.execSysRst m v s
  | .sysBlkrst m v => Sys2Proof.Machine.execSysBlkrst m v s
  | .railUndervoltage => Sys2Proof.Machine.execRailUndervoltage s
  | .secLcReq m v => Sys2Proof.Machine.execSecLcReq m v s
  | .lcBurnDone ok => Sys2Proof.Machine.execLcBurnDone ok s
  | .fusePgm m v => Sys2Proof.Machine.execFusePgm m v s
  | .pgmDone ok => Sys2Proof.Machine.execPgmDone ok s
  | .monitorTrip => Sys2Proof.Machine.execMonitorTrip s
  | .trstN => Sys2Proof.Machine.execTrstN s
  | .idcode => Sys2Proof.Machine.execIdcode s
  | .bypass => Sys2Proof.Machine.execBypass s
  | .samplePreload pins => Sys2Proof.Machine.execSamplePreload pins s
  | .extest pins => Sys2Proof.Machine.execExtest pins s
  | .dbgChal nonce => Sys2Proof.Machine.execDbgChal nonce s
  | .dbgResp v => Sys2Proof.Machine.execDbgResp v s
  | .dbgMem write addr v ecc => Sys2Proof.Machine.execDbgMem write addr v ecc s
  | .dbgAttach => Sys2Proof.Machine.execDbgAttach s
  | .dbgInsp => Sys2Proof.Machine.execDbgInsp s
  | .dbgRelease => Sys2Proof.Machine.execDbgRelease s
  | .dbgSubmit => Sys2Proof.Machine.execDbgSubmit s
  | .unlockVerified => Sys2Proof.Machine.execUnlockVerified s
  | .nonceExpire => Sys2Proof.Machine.execNonceExpire s
  | .relock m v => Sys2Proof.Machine.execRelock m v s
  | .dramPatternTest good => Sys2Proof.Machine.execDramPatternTest good s
  | .builtInTest e good => Sys2Proof.Machine.execBuiltInTest e good s
  | .consistFetchFailure => Sys2Proof.Machine.execConsistFetchFailure s

end Sys2Proof.Machine
end

