-- ==== Sys2Proof/Safety.lean ====
section
/-!
DEFINITION. What a safe state is, in the terms the statements use: tables in canonical form, and what a step may not undo.
-/
namespace Sys2Proof

open Machine

/-- The state invariant: memory and fuse bank are in canonical form, so that equal contents are equal data. -/
def Inv (s : State) : Prop :=
  Memory.wf s.mem = true ∧ Tbl.wf s.fuses 0#32 = true

/-- No burned fuse bit of `a` is unburned in `b` (18_variants_fuses.md R479). -/
def fusesKept (a b : Fuses) : Prop := ∀ k, fuse a k &&& fuse b k = fuse a k

end Sys2Proof
end

