-- ==== Sys2Proof/Certificates/Slice0/Obligations.lean ====
section
/-!
DEFINITION. The statements for the provers: for each family of commands, that the command completes and what it leaves
(`Completes`), what it leaves unchanged (the frames), and what every step keeps. The functions before them only abbreviate.
-/

open Sys2Proof Sys2Proof.Machine

/-- The units take commands: the part is neither dark (16_modes_power.md R451, R453) nor in Siding (R449). -/
abbrev Sys2Proof.Awake (s : State) : Prop := s.dev.asleep = false

/-- An access by agent `m` acts: the units take commands, and its master holds no target locked (13_memory.md R377). -/
abbrev Sys2Proof.Serves (s : State) (m : Agent) : Prop := s.dev.asleep = false ∧ s.dev.lockedBy m.master = none

/-- The command answers a next state, and that state has the property. -/
def Sys2Proof.Completes (i : Instr) (s : State) (P : State → Prop) : Prop := ∃ t, exec i s = .next t ∧ P t

/-- No ramp, resume, change of mode or block reset waits for a boundary (16_modes_power.md R442 to R445, R455). -/
abbrev Sys2Proof.Quiet (s : State) : Prop :=
  s.dev.md.leave = none ∧ s.dev.md.change = none ∧ s.dev.md.resume = none ∧ s.dev.md.blkrst = []

/-- Bit `i` of EVT of block `b`. -/
def Sys2Proof.evtBit (d : Dev) (e : EvBit) : Bool := bit (d.rd (evtReg e.blk)) e.bit

/-- Master `m` reaches the word at `a` of the control SRAM with ID `id`: no request waits at a target, none with that ID in the DRAM queue, the
target serves the master, fewer than 32 are outstanding (13_memory.md R374, R375, R377); the word is good, no load runs, and the consist does not
mirror it. -/
abbrev Sys2Proof.SramWord (s : State) (m id a : Nat) : Prop :=
  inSram a = true ∧ a % 4 = 0 ∧ s.dev.ms.fq = [] ∧ s.dev.held [] 9 m id = false ∧ s.dev.serves 9 m = true ∧
  s.dev.outstanding m < 32 ∧ s.dev.badWord (a / 8 * 8) = false ∧ s.dev.ld = none ∧
  s.dev.mirrored a = false

/-- A counter register one up, held at its largest value. -/
def Sys2Proof.oneUp (w : Word) : Word := w32 (min (w.toNat + 1) (2 ^ 32 - 1))

/-- Word `i` of an SPI frame from `a` (14_host_mailboxes.md R390). -/
def Sys2Proof.spiAddr (a i : Nat) : Nat := a / 4096 * 4096 + (a + 4 * i) % 4096

/-- The bulk node loader's next record is there and good (03_crosspoint.md R104, R105; 12_twin.md R346; 13_memory.md R368, R377). -/
abbrev Sys2Proof.RecordGood (s : State) (ecc : List EccHit) : Prop :=
  s.dev.loadWaits .node 8 = false ∧
  s.dev.loadGets .node s.dev.crm.ldAddr 8 (s.dev.crm.ldAddr + 4)
    (s.dev.canFetch s.dev.crm.ldAddr && s.dev.canFetch (s.dev.crm.ldAddr + 7)) = true ∧
  (s.dev.bulkHas .node 8 = true ∨
    (s.dev.reach 5 s.dev.crm.ldAddr 8 = true ∧ (wordsIn s.dev.crm.ldAddr 8).all (fun w => !s.dev.loses ecc w) = true))

/-- No word of the `n` bytes from `a` is uncorrectable (13_memory.md R368). -/
abbrev Sys2Proof.AllGood (s : State) (ecc : List EccHit) (a n : Nat) : Prop := (wordsIn a n).all (fun w => !s.dev.loses ecc w) = true

/-- The FIR load `l` may take its `n` taps: none waits for BULK data, nor at a locked target (12_twin.md R346; 13_memory.md R377). -/
abbrev Sys2Proof.TapsReady (s : State) (l : FirLoad) (n : Nat) : Prop :=
  s.dev.loadWaits .fir (4 * n) = false ∧ (s.dev.bulkHas .fir (4 * n) = true ∨ s.dev.reach 6 l.addr (4 * n) = true)

/-- The memory system is as it was, but for what its targets granted last and how often (13_memory.md R376, R388). -/
abbrev Sys2Proof.MsKept (s t : State) : Prop := t.dev.ms = { s.dev.ms with granted := t.dev.ms.granted, reqs := t.dev.ms.reqs }

/-- The request that the DRAM controller serves: of those that wait and those that arrive (13_memory.md R383, R384). -/
abbrev Sys2Proof.drServed (s : State) (r : DramReq) : Option DReq :=
  (r.arrive.foldl (fun d q => drArrive q d) (drTook 1 r.took1 (drTook 0 r.took0 s.dev))).drNext r.old

/-! ### Virif bundles (05_virif_engines.md R150 to R165) -/

abbrev Sys2Proof.ctxOf (s : State) (e : Nat) : Ctx := (s.dev.eng e).ctx

/-- What the X and the Y slot of the bundle `o` do on engine `e`. -/
def Sys2Proof.xMove (s : State) (e : Nat) (o : Std) : Move := slotMove (rdLocal s.mem e false) (ctxOf s e) false o.x
def Sys2Proof.yMove (s : State) (e : Nat) (o : Std) : Move := slotMove (rdLocal s.mem e true) (ctxOf s e) true o.y

/-- Engine `e` issues the bundle `b` at its PC: it runs and waits for nothing, good words of its program memory hold the bundle there
(05_virif_engines.md R142, R144, R150), and a bundle follows. -/
abbrev Sys2Proof.Fetches (s : State) (e : Nat) (b : Bundle) : Prop :=
  Awake s ∧ s.dev.issues e = true ∧ s.dev.fetches s.mem e b = true ∧ (ctxOf s e).pc < 8191

/-- Are all words that the slots of the bundle `o` load good (R144)? -/
def Sys2Proof.loadsGood (s : State) (e : Nat) (o : Std) : Bool :=
  ((xMove s e o).ld == [] || (xMove s e o).touch.all (fun w => !s.dev.badWord (localAddr e false w))) &&
  ((yMove s e o).ld == [] || (yMove s e o).touch.all (fun w => !s.dev.badWord (localAddr e true w)))

/-- Engine `e` issues the standard bundle `o` with operation code `opc`: its move slots are legal, none meets a busy channel, and what they
load is good. -/
abbrev Sys2Proof.Fires (opc : Nat) (s : State) (e : Nat) (o : Std) : Prop :=
  Fetches s e (.std opc { o with ce := 0 }) ∧ (xMove s e o).bad = none ∧ (yMove s e o).bad = none ∧
  (ctxOf s e).meets false (xMove s e o).touch (xMove s e o).store = false ∧
  (ctxOf s e).meets true (yMove s e o).touch (yMove s e o).store = false ∧ loadsGood s e o = true

/-- Engine `e` issues an immediate bundle of code `iop`, or a control bundle of code `cop`, whose reserved bits are 0 (R153, R154). -/
abbrev Sys2Proof.IssuesImm (iop : Nat) (s : State) (e : Nat) (r : Imm) : Prop :=
  Fetches s e (.imm iop { r with ce := 0 }) ∧ r.rsv.val = 0
abbrev Sys2Proof.IssuesCtl (cop : Nat) (s : State) (e : Nat) (c : Ctl) : Prop :=
  Fetches s e (.ctl cop { c with ce := 0 }) ∧ c.rsv.val = 0

/-- The row writes `val` to D[DST], no accumulator, and neither N nor Z. -/
def Sys2Proof.WritesD (opc : Nat) (i : Fin 16 → Std → Instr) (val : Ctx → Std → Word) : Prop :=
  ∀ s e o, Fires opc s e.val o → o.md = 0 → Completes (i e o) s (fun t =>
    (ctxOf t e).dr o.dst.val = val (ctxOf s e) o ∧ (ctxOf t e).a = (ctxOf s e).a ∧
    (ctxOf t e).flags.n = (ctxOf s e).flags.n ∧ (ctxOf t e).flags.z = (ctxOf s e).flags.z)

/-- The row writes `val` to D[DST] saturated to 32 bits, and NOV records a saturation (R165). -/
def Sys2Proof.WritesSat (opc : Nat) (i : Fin 16 → Std → Instr) (val : Ctx → Std → Int) : Prop :=
  ∀ s e o, Fires opc s e.val o → o.md = 0 → Completes (i e o) s (fun t =>
    (ctxOf t e).dr o.dst.val = wOfInt (sat 32 (val (ctxOf s e) o)) ∧ (ctxOf t e).a = (ctxOf s e).a ∧
    (fits 32 (val (ctxOf s e) o) = false → (ctxOf t e).flags.nov = true))

/-- The row writes `val` to A[ACC] modulo 2^80, and GOV records a wrap (R164); `legal` is what the row asks of the bundle. -/
def Sys2Proof.WritesA (opc : Nat) (i : Fin 16 → Std → Instr) (legal : Std → Prop) (val : Ctx → Std → Int) : Prop :=
  ∀ s e o, Fires opc s e.val o → legal o → Completes (i e o) s (fun t =>
    (ctxOf t e).ac o.acc.val = sgn 80 (unsgn 80 (val (ctxOf s e) o)) ∧
    (∀ k, k ≠ o.acc.val → (ctxOf t e).ac k = (ctxOf s e).ac k) ∧
    (ctxOf t e).flags.gov = ((ctxOf s e).flags.gov || !fits 80 (val (ctxOf s e) o)) ∧
    (ctxOf t e).flags.n = (ctxOf s e).flags.n ∧ (ctxOf t e).flags.z = (ctxOf s e).flags.z)

/-- Address of a move of slot `sl` on the side that `y` says (R146, R149). -/
def Sys2Proof.moveAddr (c : Ctx) (y : Bool) (sl : Slot) (step : Int) : Nat :=
  (address c (if y then 8 + sl.ptr.val else sl.ptr.val) sl.am.val step).1

/-- The bundle that engine `e` runs next after one of `n` cycles that does not branch (R154, R156). -/
def Sys2Proof.GoesOn (s t : State) (e n : Nat) (g : Ctx → Ctx) : Prop :=
  let c := g (ctxOf s e)
  ({ c with cyc := c.cyc + n } : Ctx).advance = some (ctxOf t e)

/-- The rows of the arithmetic slot that take MOD = 0 alone (R157), by operation code. -/
def Sys2Proof.plainRows : List (Nat × (Fin 16 → Std → Instr)) :=
  [(0x00, .vNop), (0x01, .vMov), (0x02, .vAdd), (0x03, .vSub), (0x04, .vAdds), (0x05, .vSubs), (0x06, .vNegs), (0x07, .vAbss)] ++
  [(0x08, .vAnd), (0x09, .vOr), (0x0A, .vXor), (0x0B, .vNot), (0x0C, .vShl), (0x0D, .vShr), (0x0E, .vShrl), (0x0F, .vMin)] ++
  [(0x10, .vMax), (0x11, .vCmp), (0x12, .vNsb), (0x28, .vAclr), (0x29, .vAmov), (0x2A, .vAadd), (0x2B, .vAshl), (0x2C, .vAshr)] ++
  [(0x2D, .vArd), (0x2E, .vAld), (0x31, .vBxv), (0x38, .vMvc), (0x39, .vMcv)]

/-- The row of a move operation MOP (R152). -/
def Sys2Proof.moveRow (n : Fin 8) (e : Fin 16) (y : Bool) (sl other : Slot) (ce : Fin 8) : Instr :=
  match n.val with
  | 1 => .loadWord e y sl other ce
  | 2 => .storeWord e y sl other ce
  | 3 => .loadPair e y sl other ce
  | 4 => .storePair e y sl other ce
  | 5 => .storeAcc e y sl other ce
  | _ => .registerCopy e y sl other ce

/-- The word of a BFLY result: `x` scaled down by 31 + MOD bits and narrowed (R163, R165). -/
def Sys2Proof.bflyWord (c : Ctx) (md : Nat) (x : Int) : Word :=
  let v := x / (2 ^ (31 + md) : Nat)
  if fits 32 v then wOfInt v else if c.sat then wOfInt (sat 32 v) else wOfInt v

/-- The bundle stops engine `e` with the fault `cause` at its own place, and stores nothing (R174). -/
def Sys2Proof.Stops (s : State) (e cause : Nat) (t : State) : Prop :=
  (t.dev.eng e).fault = some (cause, (ctxOf s e).pc) ∧ t.mem = s.mem

/-- Departures and tickets (01_architecture.md R25, R34 to R36, R39 to R41). A departure advances the departure index by one, or to where a
REALIGN of MCK0 that waits sets the counter; where the part renders it is DEP_IDX and, with the audit on, captures every account; a
boundary that is only counted leaves DEP_IDX and renders nothing. A filled slot and a returned ticket move one ticket in the account of their
queue; a slot that waits for the ticket is written with it (R37). A comparison that finds every capture balanced reports it; one that does not raises TKA_FAIL, records the queue in TKA_FMAP and the
first failure in TKA_FIRST; with the audit off nothing is compared. CLR clears the audit's counts and records, and EN is written, but for a 0 while the twin is enabled. -/
def Obligations.ArchComplete : Prop :=
  (∀ s cyc ecc, Awake s → Quiet s → (s.dev.mc 0).realign = false → s.dev.renders = true →
    Completes (.departure cyc ecc) s (fun t =>
      t.mem = s.mem ∧ t.dev.nextDep = s.dev.nextDep + 1 ∧ t.dev.rd R.DEP_IDX_LO = w32 s.dev.nextDep ∧
      t.dev.rd R.DEP_IDX_HI = w32 (s.dev.nextDep / 2 ^ 32) ∧
      (s.dev.auditOn = true → t.dev.q.audit = true ∧ t.dev.q.capBlk = s.dev.nextDep ∧ t.dev.f F.TKA_STATUS_BUSY = 1))) ∧
  (∀ s cyc ecc, Awake s → Quiet s → (s.dev.mc 0).realign = false → s.dev.renders = false →
    Completes (.departure cyc ecc) s (fun t =>
      t.mem = s.mem ∧ t.dev.nextDep = s.dev.nextDep + 1 ∧ t.dev.rd R.DEP_IDX_LO = s.dev.rd R.DEP_IDX_LO ∧
      t.dev.rd R.DEP_IDX_HI = s.dev.rd R.DEP_IDX_HI ∧ t.dev.q.audit = s.dev.q.audit ∧ t.dev.q.cap = s.dev.q.cap)) ∧
  (∀ s cyc ecc, Awake s → Quiet s → (s.dev.mc 0).realign = true →
    Completes (.departure cyc ecc) s (fun t =>
      let n := (((32 * (s.dev.nextDep + 1) : Nat) : Int) * 256 - (s.dev.mc 0).beta + 128) / 256
      t.mem = s.mem ∧ (t.dev.mc 0).realign = false ∧ (t.dev.mc 0).n = n.toNat ∧ (t.dev.mc 0).beta = 0 ∧
      t.dev.nextDep = n.toNat / 32)) ∧
  (∀ s, Awake s → s.dev.q.audit = true → s.dev.auditOn = true → (∀ e ∈ s.dev.q.cap, e.1 ≠ 300 → e.2.balanced = true) →
    Completes .ticketAuditCompare s (fun t =>
      t.dev.q.audit = false ∧ t.dev.f F.TKA_STATUS_BUSY = 0 ∧ t.dev.f F.TKA_STATUS_LAST_OK = 1 ∧
      t.dev.f F.TKA_STATUS_FAIL_COUNT = s.dev.f F.TKA_STATUS_FAIL_COUNT)) ∧
  (∀ s e, Awake s → s.dev.q.audit = true → s.dev.auditOn = true → (∀ x ∈ s.dev.q.cap, x.1 < 384) → e ∈ s.dev.q.cap → e.1 ≠ 300 → e.2.balanced = false →
    Completes .ticketAuditCompare s (fun t =>
      t.dev.q.audit = false ∧ t.dev.f F.TKA_STATUS_BUSY = 0 ∧ t.dev.f F.TKA_STATUS_LAST_OK = 0 ∧
      t.dev.f F.TKA_STATUS_FAIL_COUNT = min (s.dev.f F.TKA_STATUS_FAIL_COUNT + 1) 65535 ∧
      bit (t.dev.rd (R.TKA_FMAP.at (e.1 / 32))) (e.1 % 32) = true ∧ t.dev.fb F.TKA_FIRST_VALID = true ∧
      (s.dev.fb F.TKA_FIRST_VALID = true → t.dev.rd R.TKA_FIRST = s.dev.rd R.TKA_FIRST) ∧
      evtBit t.dev (auditEvt e.1) = true ∧ evtBit t.dev Ev.SYS_TKA_FAIL = true)) ∧
  (∀ s, Awake s → s.dev.auditOn = false → Completes .ticketAuditCompare s (fun t =>
    t.dev.regs = s.dev.regs ∧ t.dev.q = s.dev.q)) ∧
  (∀ s q, Awake s → (s.dev.q.get q).f > 0 → Completes (.queueSlotFilled q) s (fun t =>
    t.dev.q.get q = { s.dev.q.get q with f := (s.dev.q.get q).f - 1, s := (s.dev.q.get q).s + 1 } ∧
    ∀ k, k ≠ q → t.dev.q.get k = s.dev.q.get k)) ∧
  (∀ s q, Awake s → (s.dev.q.get q).ret > 0 → s.dev.q.waiting q = [] → Completes (.ticketReturn q) s (fun t =>
    t.dev.q.get q = { s.dev.q.get q with ret := (s.dev.q.get q).ret - 1, h := (s.dev.q.get q).h + 1 } ∧
    ∀ k, k ≠ q → t.dev.q.get k = s.dev.q.get k)) ∧
  (∀ s q b rest, Awake s → (s.dev.q.get q).ret > 0 → s.dev.q.waiting q = b :: rest → Completes (.ticketReturn q) s (fun t =>
    t.dev.q.get q = { s.dev.q.get q with ret := (s.dev.q.get q).ret - 1, s := (s.dev.q.get q).s + 1 } ∧
    t.dev.q.waiting q = rest ∧ t.dev.q.slotsOf q = s.dev.q.slotsOf q ++ [b] ∧ ∀ k, k ≠ q → t.dev.q.get k = s.dev.q.get k)) ∧
  (∀ s m v, Serves s m → bit v 1 = true → Completes (.tkaClr m v) s (fun t =>
    t.dev.f F.TKA_STATUS_FAIL_COUNT = 0 ∧ t.dev.rd R.TKA_FIRST = 0#32 ∧ t.dev.rd R.LATE_COUNT = 0#32 ∧
    t.dev.rd R.LATE_FIRST = 0#32)) ∧
  (∀ s m v, Serves s m → Completes (.tkaClr m v) s (fun t =>
    t.dev.fb F.TKA_CTRL_EN =
      if bit v 0 = true ∨ s.dev.twinOn = false then bit v 0 else s.dev.fb F.TKA_CTRL_EN))

/-- Register accesses (00_scope.md R12 to R15, R511, R513). A write of EVT_EN sets the enables its block implements and a write of EVT
clears the bits written 1; of a 64-bit value the write of the lower word is staged for its agent and acts with the write of the upper
word, and the read of the lower word holds the upper one for its agent; a 0 clears a peak and no other value changes it; an access
outside every region completes with the error response, and a read of an offset that an engine's window does not list answers 0. -/
def Obligations.BusComplete : Prop :=
  (∀ s m b v, Serves s m → b ≤ 16 → s.dev.absent b 8 = false → m.reaches (evtEnReg b).addr = true →
    Completes (.regWrite m ((evtEnReg b).addr) v) s (fun t =>
      ∃ row, rowAt b 8 = some row ∧ t.dev.rd (evtEnReg b) = merge (s.dev.rd (evtEnReg b)) (w32 row.wmask) v)) ∧
  (∀ s m b v, Serves s m → b ≤ 16 → s.dev.absent b 4 = false → m.reaches (evtReg b).addr = true →
    Completes (.regWrite m ((evtReg b).addr) v) s (fun t =>
      ∃ row, rowAt b 4 = some row ∧ t.dev.rd (evtReg b) = s.dev.rd (evtReg b) &&& ~~~(v &&& w32 row.cmask))) ∧
  (∀ s m, Serves s m → m.reaches R.DEP_IDX_LO.addr = true → Completes (.wideLoRead m R.DEP_IDX_LO.addr) s (fun t =>
    t.dev.resp = ⟨[s.dev.rd R.DEP_IDX_LO], false⟩ ∧ t.dev.hold R.DEP_IDX_HI m = s.dev.rd R.DEP_IDX_HI)) ∧
  (∀ s m v, Serves s m → m.reaches R.SYS_RESUME_AT_LO.addr = true →
    Completes (.wideLoWrite m R.SYS_RESUME_AT_LO.addr v) s (fun t =>
      t.dev.staged R.SYS_RESUME_AT_LO m = v ∧ t.dev.regs = s.dev.regs)) ∧
  (∀ s m v, Serves s m → m.reaches R.SYS_RESUME_AT_HI.addr = true →
    Completes (.wideHiWrite m R.SYS_RESUME_AT_HI.addr v) s (fun t =>
      t.dev.rd R.SYS_RESUME_AT_HI = v ∧
      t.dev.rd R.SYS_RESUME_AT_LO = merge (s.dev.rd R.SYS_RESUME_AT_LO) 0xFFFFFFE0#32 (s.dev.staged R.SYS_RESUME_AT_LO m))) ∧
  (∀ s m r v, Serves s m → s.dev.twCopy = false → r ∈ [R.GSV_WR_PEAK, R.CRM_CYC_PEAK, R.CCE_CYC_PEAK, R.SB_INST_PEAK] →
    m.reaches r.addr = true →
    Completes (.peakRegWrite m r.addr v) s (fun t => t.dev.rd r = if v = 0#32 then 0#32 else s.dev.rd r)) ∧
  (∀ s m w a v, Serves s m → mapped a = false → listed m a = false → m.reaches a = true →
    Completes (.unmappedAccess m w a v) s (fun t => t.dev.resp = ⟨[], true⟩)) ∧
  (∀ s m a v, Serves s m → inVirif a = true → s.dev.virifMem a = false → engOf a = none → m.reaches a = true →
    Completes (.unmappedAccess m false a v) s (fun t => t.dev.resp = ⟨[0#32], false⟩))

/-- The serial host interfaces (14_host_mailboxes.md R390 to R394). An SPI frame writes and reads words at consecutive addresses, the
status byte reads and clears; a frame that comes in Siding wakes the part and waits (16_modes_power.md R452); an I2C write transfer sets the pointer, a read transfer answers the words from it and moves it. -/
def Obligations.HostBusComplete : Prop :=
  (∀ s addr ws, Serves s .spi → (∀ i, i < ws.length → SramWord s 11 0 (spiAddr addr i)) → addr % 4 = 0 →
    addr < 2 ^ 32 →
    Completes (.spiWrite addr ws) s (fun t =>
      t.mem = ws.zipIdx.foldl (fun m e => Memory.wr32 m (spiAddr addr e.2) e.1) s.mem)) ∧
  (∀ s addr n, Serves s .spi → (∀ i, i < n → SramWord s 11 0 (spiAddr addr i)) → addr % 4 = 0 → addr < 2 ^ 32 →
    Completes (.spiRead addr n) s (fun t =>
      t.mem = s.mem ∧ t.dev.resp = ⟨(List.range n).map (fun i => Memory.rd32 s.mem (spiAddr addr i)), false⟩)) ∧
  (∀ s addr ws, s.dev.knocks .spi = true → Completes (.spiWrite addr ws) s (fun t =>
    t.dev.hi.late = s.dev.hi.late ++ [.spiWrite addr ws] ∧ bit (t.dev.rd R.DP_WAKE_CAUSE) 5 = true ∧ t.mem = s.mem)) ∧
  (∀ s, Awake s → Completes .spiStatus s (fun t =>
    t.dev.resp = ⟨[s.dev.rd R.HIF_SPI_STAT ||| 0x80#32], false⟩ ∧ bits (t.dev.rd R.HIF_SPI_STAT) 0 3 = 0)) ∧
  (∀ s (hi lo : Byte), Awake s → Completes (.i2cWrite [hi, lo]) s (fun t => t.dev.hi.i2cPtr = hi.toNat * 256 + lo.toNat)) ∧
  (∀ s (b0 b1 b2 b3 : Byte), Awake s → Completes (.i2cWrite [0, 0x30, b0, b1, b2, b3]) s (fun t =>
    t.dev.rd (R.DP_SCRATCH.at 0) = w32 (b0.toNat + b1.toNat * 2 ^ 8 + b2.toNat * 2 ^ 16 + b3.toNat * 2 ^ 24) ∧
    t.dev.hi.i2cPtr = 0x34)) ∧
  (∀ s, Awake s → s.dev.hi.i2cPtr = 0x30 → Completes (.i2cRead 4) s (fun t =>
    t.dev.resp = ⟨[s.dev.rd (R.DP_SCRATCH.at 0)], false⟩ ∧ t.dev.hi.i2cPtr = 0x34))

/-- The fabric (13_memory.md R374 to R378, 17_security_debug.md R469). A granted burst acts at its target and is counted; a locked
read opens a sequence and the unlocking write ends it; a locked access to another target, or an access of the same master to a register, ends it
with LOCK_ERR; an overdue sequence is ended with LOCK_TO; at debug level 3, DBG_MEM reads and writes a word and captures it with DONE. -/
def Obligations.FabricComplete : Prop :=
  (∀ s (q : FabReq) cyc, Awake s → q.write = false → carries q.master.val q.agent = true → q.inView = true → q.ecc = [] →
    q.size = 4 → (q.master.val = 13 → q.id.val ≠ 15) →
    s.dev.lockedBy q.master.val = none → SramWord s q.master.val q.id.val q.addr →
    Completes (.fabricGrant ⟨9, false, cyc, [q]⟩) s (fun t =>
      t.mem = s.mem ∧ t.dev.resp = ⟨[Memory.rd32 s.mem q.addr], false⟩ ∧ t.dev.ms.fq = [] ∧
      Tbl.getD t.dev.ms.reqs 9 0 = Tbl.getD s.dev.ms.reqs 9 0 + 1)) ∧
  (∀ s (q : FabReq) (v : Word) cyc, Awake s → q.write = true → carries q.master.val q.agent = true → q.inView = true → q.ecc = [] →
    q.size = 4 → (q.master.val = 13 → q.id.val ≠ 15) →
    q.data = (List.range 4).map (fun i => some (byteOf v.toNat i)) →
    s.dev.lockedBy q.master.val = none → SramWord s q.master.val q.id.val q.addr →
    Completes (.fabricGrant ⟨9, true, cyc, [q]⟩) s (fun t => t.mem = Memory.wr32 s.mem q.addr v ∧ t.dev.ms.fq = [])) ∧
  (∀ s (q : FabReq) cyc n, Awake s → q.write = false → s.dev.ms.fq = [] → s.dev.mayIssue q = true → s.dev.targetOf q.addr = some n → n ≠ 9 →
    Completes (.fabricGrant ⟨9, false, cyc, [q]⟩) s (fun t =>
      t.mem = s.mem ∧ t.dev.ms.fq = [⟨{ q with addr := s.dev.real q.addr, lock := false }, n, false⟩])) ∧
  (∀ s (m : Agent) a, Awake s → m.locks = true → s.dev.ms.late.contains m.master = false → s.dev.lockedBy m.master = none →
    SramWord s m.master 0 a →
    Completes (.lockedRead m a []) s (fun t =>
      Tbl.get? t.dev.ms.locks 9 = some m.master ∧ t.mem = s.mem ∧ t.dev.resp = ⟨[Memory.rd32 s.mem a], false⟩)) ∧
  (∀ s (m : Agent) a v, Awake s → m.locks = true → s.dev.ms.late.contains m.master = false → s.dev.lockedBy m.master = some 9 →
    SramWord s m.master 0 a →
    Completes (.unlockingWrite m a v []) s (fun t => Tbl.get? t.dev.ms.locks 9 = none ∧ t.mem = Memory.wr32 s.mem a v)) ∧
  (∀ s (m : Agent) a u n, Awake s → m.locks = true → s.dev.ms.late.contains m.master = false →
    s.dev.lockedBy m.master = some u → s.dev.targetOf a = some n → n ≠ u → s.dev.ms.fq = [] → s.dev.held [] n m.master 0 = false →
    s.dev.serves n m.master = true → s.dev.outstanding m.master < 32 →
    Completes (.lockedRead m a []) s (fun t =>
      Tbl.get? t.dev.ms.locks u = none ∧ t.mem = s.mem ∧ t.dev.resp = ⟨[], true⟩ ∧ evtBit t.dev Ev.MS_LOCK_ERR = true)) ∧
  (∀ s (m : Agent) a v u n, Awake s → m.reaches a = true → s.dev.targetOf a = some n → msixAt m a = none →
    s.dev.lockedBy m.master = some u →
    Completes (.regWrite m a v) s (fun t =>
      Tbl.get? t.dev.ms.locks u = none ∧ t.mem = s.mem ∧ t.dev.resp = ⟨[], true⟩ ∧ evtBit t.dev Ev.MS_LOCK_ERR = true)) ∧
  (∀ s k m, Awake s → Tbl.get? s.dev.ms.locks k = some m →
    Completes (.lockTo k) s (fun t =>
      Tbl.get? t.dev.ms.locks k = none ∧ m ∈ t.dev.ms.late ∧ evtBit t.dev Ev.MS_LOCK_TO = true)) ∧
  (∀ s a v, Awake s → s.dev.level = 3 → s.dev.lockedBy 13 = none → SramWord s 13 0 a →
    Completes (.dbgMem false a v []) s (fun t =>
      t.mem = s.mem ∧ t.dev.se.ir = 0x13 ∧ t.dev.se.dr = a + (Memory.rd32 s.mem a).toNat * 2 ^ 40 + 2 ^ 74)) ∧
  (∀ s a v, Awake s → s.dev.level = 3 → s.dev.lockedBy 13 = none → SramWord s 13 0 a →
    Completes (.dbgMem true a v []) s (fun t =>
      t.mem = Memory.wr32 s.mem a v ∧ t.dev.se.ir = 0x13 ∧ t.dev.se.dr = a + v.toNat * 2 ^ 40 + 2 ^ 72 + 2 ^ 74))

/-- The gain solver (02_gain_solver.md R49 to R59, R75). A staged word waits for its agent; an accepted update joins its object's queue
with its effective block, a rejected one is counted with its cause, one without a ticket is dropped; the ring posts a fetched record and
advances TAIL, goes past a rejected one, or waits for a ticket; a failed fetch, and any fetch while the PCIe link is down, stops the ring (14_host_mailboxes.md R389); a flush waits for its block; solving fills a slot of QID 295 for the
next block. -/
def Obligations.GsvComplete : Prop :=
  (∀ s m (k : Fin 7) v, Serves s m → s.dev.twCopy = false → s.dev.objSel m < s.dev.objCount →
    Completes (.objUpdStage m k v) s (fun t => t.dev.staged (R.OBJ_UPD.at k) m = v ∧ t.dev.gsv = s.dev.gsv)) ∧
  (∀ s m v, Serves s m → s.dev.twCopy = false → s.dev.objSel m < s.dev.objCount →
    postKind s.dev (s.dev.objSel m) (stagedRec s.dev m v) = .done →
    Completes (.objPost m v) s (fun t =>
      (t.dev.gsv.obj (s.dev.objSel m)).queue = (s.dev.gsv.obj (s.dev.objSel m)).queue ++
        [⟨(stagedRec s.dev m v).forObj (s.dev.objSel m), effOf s.dev ((stagedRec s.dev m v).forObj (s.dev.objSel m))⟩] ∧
      ∀ o, o ≠ s.dev.objSel m → t.dev.gsv.obj o = s.dev.gsv.obj o)) ∧
  (∀ s m v, Serves s m → s.dev.twCopy = false → s.dev.objSel m < s.dev.objCount →
    postKind s.dev (s.dev.objSel m) (stagedRec s.dev m v) = .rejected →
    Completes (.objPost m v) s (fun t =>
      t.dev.gsv = s.dev.gsv ∧ evtBit t.dev Ev.GSV_UPD_REJ = true ∧
      t.dev.f F.GSV_REJ_INFO_CAUSE = rejCause s.dev (s.dev.objSel m) (stagedRec s.dev m v))) ∧
  (∀ s m v, Serves s m → s.dev.twCopy = false → s.dev.objSel m < s.dev.objCount →
    postKind s.dev (s.dev.objSel m) (stagedRec s.dev m v) = .noTicket →
    Completes (.objPost m v) s (fun t => t.dev.gsv = s.dev.gsv ∧ evtBit t.dev Ev.GSV_UPD_DROP = true)) ∧
  (∀ s m v, Serves s m → s.dev.twCopy = false →
    Completes (.gsvRingHead m v) s (fun t => t.dev.rd R.GSV_RING_HEAD = w32 (bits v 0 16))) ∧
  (∀ s m v, Serves s m → s.dev.twCopy = false → s.dev.fb F.GSV_RING_CTRL_EN = false → bit v 0 = true →
    Completes (.gsvRingEnable m v) s (fun t =>
      t.dev.fb F.GSV_RING_CTRL_EN = true ∧ t.dev.f F.GSV_RING_CTRL_SIZE = min (bits v 1 4) 12 ∧
      t.dev.rd R.GSV_RING_TAIL = w32 (s.dev.gsv.ringKeep % 2 ^ (min (bits v 1 4) 12 + 4)))) ∧
  (∀ s m v, Serves s m → s.dev.twCopy = false → s.dev.fb F.GSV_RING_CTRL_EN = true → bit v 0 = false →
    Completes (.gsvRingEnable m v) s (fun t =>
      t.dev.fb F.GSV_RING_CTRL_EN = false ∧ t.dev.gsv.ringKeep = (s.dev.rd R.GSV_RING_HEAD).toNat)) ∧
  (∀ s r, Awake s → s.dev.fb F.GSV_RING_CTRL_EN = true → ringFill s.dev ≠ 0 → s.dev.fb F.STATUS_HIF_LINK = true →
    s.dev.gsv.ringWait = none → postKind s.dev r.objNo r = .done →
    Completes (.ringRecordFetched r) s (fun t =>
      (t.dev.gsv.obj r.objNo).queue = (s.dev.gsv.obj r.objNo).queue ++ [⟨r.forObj r.objNo, effOf s.dev (r.forObj r.objNo)⟩] ∧
      t.dev.rd R.GSV_RING_TAIL = w32 (((s.dev.rd R.GSV_RING_TAIL).toNat + 1) % ringSize s.dev))) ∧
  (∀ s r, Awake s → s.dev.fb F.GSV_RING_CTRL_EN = true → ringFill s.dev ≠ 0 → s.dev.fb F.STATUS_HIF_LINK = true →
    s.dev.gsv.ringWait = none → postKind s.dev r.objNo r = .rejected →
    Completes (.ringRecordFetched r) s (fun t =>
      t.dev.gsv = s.dev.gsv ∧ evtBit t.dev Ev.GSV_UPD_REJ = true ∧ t.dev.f F.GSV_REJ_INFO_SRC = 1 ∧
      t.dev.f F.GSV_REJ_INFO_CAUSE = rejCause s.dev r.objNo r ∧
      t.dev.rd R.GSV_RING_TAIL = w32 (((s.dev.rd R.GSV_RING_TAIL).toNat + 1) % ringSize s.dev))) ∧
  (∀ s r, Awake s → s.dev.fb F.GSV_RING_CTRL_EN = true → ringFill s.dev ≠ 0 → s.dev.fb F.STATUS_HIF_LINK = true →
    s.dev.gsv.ringWait = none → postKind s.dev r.objNo r = .noTicket →
    Completes (.ringRecordFetched r) s (fun t =>
      t.dev.gsv.ringWait = some r ∧ t.dev.regs = s.dev.regs)) ∧
  (∀ s r, Awake s → s.dev.gsv.ringWait = some r → postKind s.dev r.objNo r = .done →
    Completes .ringStallEnd s (fun t =>
      t.dev.gsv.ringWait = none ∧
      (t.dev.gsv.obj r.objNo).queue = (s.dev.gsv.obj r.objNo).queue ++ [⟨r.forObj r.objNo, effOf s.dev (r.forObj r.objNo)⟩])) ∧
  (∀ s, Awake s → s.dev.fb F.GSV_RING_CTRL_EN = true →
    Completes .ringErr s (fun t =>
      t.dev.fb F.GSV_RING_CTRL_EN = false ∧ t.dev.gsv.ringKeep = (s.dev.rd R.GSV_RING_HEAD).toNat ∧
      evtBit t.dev Ev.GSV_RING_ERR = true)) ∧
  (∀ s m v, Serves s m → s.dev.twCopy = false → bit v 0 = true → s.dev.objSel m < s.dev.objCount →
    Completes (.flush m v) s (fun t =>
      t.dev.gsv.flushes = s.dev.gsv.flushes ++ [(s.dev.objSel m, s.dev.effBlk + s.dev.lead)])) ∧
  (∀ s, Awake s → canSolve s.dev = true →
    Completes .solveBlock s (fun t =>
      t.dev.gsv.next = s.dev.gsv.next + 1 ∧
      (∃ sl, t.dev.gsv.slots = s.dev.gsv.slots ++ [sl] ∧ sl.blk = s.dev.gsv.next) ∧
      (t.dev.q.get 295).h = (s.dev.q.get 295).h - 1)) ∧
  (∀ s m v r o, Serves s m → bit v 0 = true → r ∈ gsvCounters → o < 65536 →
    Completes (.gsvCntClr m v) s (fun t => t.dev.rd (r.of o) = 0#32)) ∧
  (∀ s r, Awake s → s.dev.fb F.GSV_RING_CTRL_EN = true → ringFill s.dev ≠ 0 → s.dev.fb F.STATUS_HIF_LINK = false →
    s.dev.gsv.ringWait = none →
    Completes (.ringRecordFetched r) s (fun t =>
      t.dev.fb F.GSV_RING_CTRL_EN = false ∧ t.dev.gsv.ringKeep = (s.dev.rd R.GSV_RING_HEAD).toNat ∧
      evtBit t.dev Ev.GSV_RING_ERR = true))

/-- The crosspoint (03_crosspoint.md R81 to R86, R94 to R97, R101, R103 to R107). A write of NODE_WR stores gain and delay in the inactive bank
of a host-owned node, at once, or on top of what the last departed block brings that has not begun and flips or copies; a double-bit error that it finds silences the record; on a
solver-owned node it is ignored. A read of NODE_A_GAIN captures the record, zeros beyond the matrix. COPY, QCLR and NZ_CLR are taken for
their block; a swap request is queued, or counted as without effect; a rendered group hands over its feeds, the last one ends the block and
the next departed one begins; the bulk loader starts, applies a record, ends after the last or with an error, also at a
record that no store holds. -/
def Obligations.CrmComplete : Prop :=
  (∀ s m v ecc, Serves s m → s.dev.twCopy = false → s.dev.nodeSel m = true → s.dev.solverOwned (s.dev.inSel m) = false →
    s.dev.crm.wait.reverse.find? CrmDep.stirs = none → nodeLost ecc (s.dev.inSel m) (s.dev.outSel m) = false →
    Completes (.nodeWr m v ecc) s (fun t =>
      let n := t.dev.crm.node (s.dev.inSel m) (s.dev.outSel m)
      n.gainOf (!s.dev.crm.live) = (if gainLimited (bits v 0 24) = true then 0x7FFFFF else bits v 0 24) ∧
      n.dlyOf (!s.dev.crm.live) = bits (s.dev.rd (R.NODE_WDLY.of m.num)) 0 11 ∧
      n.gainOf s.dev.crm.live = (s.dev.crm.node (s.dev.inSel m) (s.dev.outSel m)).gainOf s.dev.crm.live ∧
      (gainLimited (bits v 0 24) = true → evtBit t.dev Ev.CRM_GAIN_LIM = true))) ∧
  (∀ s m v ecc p, Serves s m → s.dev.twCopy = false → s.dev.nodeSel m = true → s.dev.solverOwned (s.dev.inSel m) = false →
    s.dev.crm.wait.reverse.find? CrmDep.stirs = some p → nodeLost ecc (s.dev.inSel m) (s.dev.outSel m) = false →
    Completes (.nodeWr m v ecc) s (fun t =>
      t.dev.crm.nodes = s.dev.crm.nodes ∧
      t.dev.crm.wait = s.dev.crm.wait.map (fun q => if q.blk = p.blk then { q with posts := q.posts ++
        [(s.dev.inSel m, s.dev.outSel m, bits v 0 24, bits (s.dev.rd (R.NODE_WDLY.of m.num)) 0 11)] } else q) ∧
      (gainLimited (bits v 0 24) = true → evtBit t.dev Ev.CRM_GAIN_LIM = true))) ∧
  (∀ s m v ecc, Serves s m → s.dev.twCopy = false → s.dev.nodeSel m = true → s.dev.solverOwned (s.dev.inSel m) = false →
    nodeLost ecc (s.dev.inSel m) (s.dev.outSel m) = true →
    Completes (.nodeWr m v ecc) s (fun t =>
      t.dev.crm.node (s.dev.inSel m) (s.dev.outSel m) = { Node.zero with eccx := true } ∧
      evtBit t.dev Ev.CRM_NODE_ECC = true)) ∧
  (∀ s m v ecc, Serves s m → s.dev.twCopy = false → s.dev.nodeSel m = true → s.dev.solverOwned (s.dev.inSel m) = true →
    Completes (.nodeWr m v ecc) s (fun t => t.dev.crm = s.dev.crm ∧ evtBit t.dev Ev.GSV_NODE_WR_IGN = true)) ∧
  (∀ s m, Serves s m →
    Completes (.nodeCaptureRead m) s (fun t =>
      let n := if s.dev.nodeSel m = true then s.dev.crm.node (s.dev.inSel m) (s.dev.outSel m) else Node.zero
      t.dev.resp = ⟨[w32 n.aGain], false⟩ ∧ t.dev.hold R.NODE_A_DLY m = w32 n.aDly ∧ t.dev.hold R.NODE_B_GAIN m = w32 n.bGain ∧
      t.dev.hold R.NODE_B_DLY m = w32 n.bDly ∧ t.dev.hold R.NODE_LIVE_GAIN m = w32 n.liveGain ∧
      t.dev.hold R.NODE_LIVE_DLY m = n.liveWord)) ∧
  (∀ s m v, Serves s m → s.dev.twCopy = false → bit v 0 = true →
    Completes (.copy m v) s (fun t =>
      t.dev.crm.copyAt = if s.dev.crm.copyAt.isSome then s.dev.crm.copyAt else some s.dev.effBlk)) ∧
  (∀ s, Awake s → s.dev.crm.copyRun = true →
    Completes .copyDone s (fun t => t.dev.crm.copyRun = false ∧ evtBit t.dev Ev.CRM_COPY_DONE = true)) ∧
  (∀ s m v, Serves s m → s.dev.twCopy = false → bit v 1 = true →
    Completes (.qclr m v) s (fun t => t.dev.crm.queued = none)) ∧
  (∀ s m v, Serves s m → s.dev.twCopy = false → bit v 2 = true →
    Completes (.nzClr m v) s (fun t => t.dev.crm.nzAt = some s.dev.effBlk)) ∧
  (∀ s m v, Serves s m → s.dev.twCopy = false → bit v 0 ≠ s.dev.crm.next.1 →
    Completes (.crmSwap m v) s (fun t =>
      let at' := s.dev.rd64 R.CRM_SWAP_AT_LO R.CRM_SWAP_AT_HI
      t.dev.crm.queued = some ⟨bit v 0, max 1 (min (bits v 1 9) 256), bit v 31,
        if bit v 31 = true then max at' s.dev.effBlk else s.dev.effBlk,
        bit v 31 && decide (at' < s.dev.effBlk) && !s.dev.within at'⟩ ∧
      (s.dev.crm.queued.isSome = true → evtBit t.dev Ev.CRM_SWAP_REPL = true))) ∧
  (∀ s m v, Serves s m → s.dev.twCopy = false → bit v 0 = s.dev.crm.next.1 →
    Completes (.crmSwap m v) s (fun t =>
      t.dev.crm = s.dev.crm ∧
      t.dev.rd R.CRM_SWAP_NOP_CNT = oneUp (s.dev.rd R.CRM_SWAP_NOP_CNT))) ∧
  (∀ s ecc r, Awake s → canRender (sbAll s.dev) = true → s.dev.crm.rend = some r → 4 * (r.grp + 1) < s.dev.crm.nout →
    Completes (.crmRenderGroup ecc) s (fun t =>
      (∃ r', t.dev.crm.rend = some r' ∧ r'.blk = r.blk ∧ r'.grp = r.grp + 1) ∧
      ∀ o ∈ groupFeeds s.dev r.grp, ∃ ys, Tbl.getD t.dev.crm.fbuf o [] = Tbl.getD s.dev.crm.fbuf o [] ++ [(r.blk, ys)])) ∧
  (∀ s ecc r, Awake s → canRender (sbAll s.dev) = true → s.dev.crm.rend = some r → s.dev.crm.nout ≤ 4 * (r.grp + 1) →
    Completes (.crmRenderGroup ecc) s (fun t =>
      t.dev.crm.wait = s.dev.crm.wait.drop 1 ∧
      t.dev.crm.rend = s.dev.crm.wait.head?.map (fun p => ⟨p.blk, 0, 0, 0, 64⟩) ∧
      (∀ b e, s.dev.crm.run = some (b, e) → e ≤ r.blk + 1 → evtBit t.dev Ev.CRM_SWAP_DONE = true) ∧
      ∀ o ∈ groupFeeds s.dev r.grp, ∃ ys, Tbl.getD t.dev.crm.fbuf o [] = Tbl.getD s.dev.crm.fbuf o [] ++ [(r.blk, ys)])) ∧
  (∀ s m v, Serves s m → s.dev.twCopy = false → bit v 0 = true → s.dev.crm.ldRun = false → s.dev.rd R.CRM_BLK_COUNT ≠ 0#32 →
    Completes (.blkGo m v) s (fun t =>
      t.dev.crm.ldRun = true ∧ t.dev.crm.ldAddr = s.dev.rd64 R.CRM_BLK_ADDR_LO R.CRM_BLK_ADDR_HI ∧
      t.dev.crm.ldLeft = (s.dev.rd R.CRM_BLK_COUNT).toNat ∧ t.dev.rd R.CRM_BLK_DONE = 0#32 ∧
      t.dev.rd R.CRM_BLK_SKIP = 0#32)) ∧
  (∀ s m v, Serves s m → s.dev.twCopy = false → bit v 0 = true → s.dev.crm.ldRun = false → s.dev.rd R.CRM_BLK_COUNT = 0#32 →
    Completes (.blkGo m v) s (fun t =>
      t.dev.crm.ldRun = false ∧ t.dev.rd R.CRM_BLK_DONE = 0#32 ∧ evtBit t.dev Ev.CRM_BLK_DONE = true)) ∧
  (∀ s ecc, Awake s → s.dev.crm.ldRun = true → RecordGood s ecc →
    s.dev.tw.loadq.all (fun c => c.loader != .node) = true →
    Completes (.blkRecordApply ecc) s (fun t =>
      t.dev.rd R.CRM_BLK_DONE = oneUp (s.dev.rd R.CRM_BLK_DONE) ∧
      (if 1 < s.dev.crm.ldLeft then
        t.dev.crm.ldRun = true ∧ t.dev.crm.ldAddr = s.dev.crm.ldAddr + 8 ∧ t.dev.crm.ldLeft = s.dev.crm.ldLeft - 1
      else t.dev.crm.ldRun = false ∧ evtBit t.dev Ev.CRM_BLK_DONE = true))) ∧
  (∀ s ecc w0 w1, Awake s → s.dev.crm.ldRun = true → RecordGood s ecc →
    w0 = Memory.rd32 (s.dev.loadSrc .node s.dev.crm.ldAddr 8 (s.dev.seen s.mem)) s.dev.crm.ldAddr →
    w1 = Memory.rd32 (s.dev.loadSrc .node s.dev.crm.ldAddr 8 (s.dev.seen s.mem)) (s.dev.crm.ldAddr + 4) →
    s.dev.tw.loadq.all (fun c => c.loader != .node) = true →
    bit w0 31 = false → bits w1 24 8 = 0 → bits w0 0 10 < s.dev.crm.nin → bits w0 10 10 < s.dev.crm.nout →
    s.dev.solverOwned (bits w0 0 10) = false → s.dev.crm.wait.reverse.find? CrmDep.stirs = none → nodeLost ecc (bits w0 0 10) (bits w0 10 10) = false →
    Completes (.blkRecordApply ecc) s (fun t =>
      let n := t.dev.crm.node (bits w0 0 10) (bits w0 10 10)
      n.gainOf (!s.dev.crm.live) = (if gainLimited (bits w1 0 24) = true then 0x7FFFFF else bits w1 0 24) ∧
      n.dlyOf (!s.dev.crm.live) = bits w0 20 11)) ∧
  (∀ s ecc, Awake s → s.dev.crm.ldRun = true → s.dev.loadWaits .node 8 = false → s.dev.bulkHas .node 8 = false →
    s.dev.reach 5 s.dev.crm.ldAddr 8 = true → s.dev.tw.loadq.all (fun c => c.loader != .node) = true →
    (s.dev.canFetch s.dev.crm.ldAddr = false ∨ s.dev.canFetch (s.dev.crm.ldAddr + 7) = false) →
    Completes (.blkRecordApply ecc) s (fun t =>
      t.dev.crm.ldRun = false ∧ evtBit t.dev Ev.CRM_BLK_ERR = true ∧ t.dev.crm.nodes = s.dev.crm.nodes)) ∧
  (∀ s, Awake s → s.dev.crm.ldRun = true → s.dev.tw.loadq.all (fun c => c.loader != .node) = true →
    Completes .blkErr s (fun t => t.dev.crm.ldRun = false ∧ evtBit t.dev Ev.CRM_BLK_ERR = true)) ∧
  (∀ s m v r o, Serves s m → bit v 0 = true → r ∈ crmCounters → o < 65536 →
    Completes (.crmCntClr m v) s (fun t => t.dev.rd (r.of o) = 0#32))

/-- The correction engine (04_correction.md R108 to R140). A feed whose samples the CRM has handed over takes them and runs its chain,
or waits for DRAM data; what its reads of the stores find is reported. Delay, sections and bypass go to the selected feed, coefficients to the
inactive bank unless its swap runs; the FIR loader starts, has nothing to load, waits for a swap, ends, or fails at the first tap that it cannot fetch; swaps are queued per feed,
or counted as without effect; while the consist has no more feeds than the part (00_scope.md R1), CLR clears the counters. -/
def Obligations.CceComplete : Prop :=
  (∀ s o cyc ecc c xs, Awake s → (sbAll s.dev).feedDue o = some (c, xs) → s.dev.cce.cut = false →
    Completes (.cceFeedBlock o cyc true ecc) s (fun t =>
      let r := feedBlock (feedRead ecc o (sbAll s.dev)) o c xs
      Tbl.getD t.dev.crm.fbuf o [] = (Tbl.getD s.dev.crm.fbuf o []).drop 1 ∧ Tbl.get? t.dev.cce.done o = some r.out ∧
      t.dev.cce.feed o = r.feed ∧ (r.out.any (fun p => p.2) = true → evtBit t.dev Ev.CCE_CLIP = true) ∧
      (ecc.any StoreHit.double = true → evtBit t.dev Ev.CCE_COEF_ECC = true ∧ (t.dev.cce.feed o).eccx = true))) ∧
  (∀ s o cyc ecc, Awake s → ((sbAll s.dev).feedDue o).isSome = true → s.dev.cce.waits.contains o = false →
    Completes (.cceFeedBlock o cyc false ecc) s (fun t =>
      t.dev.cce.waits = o :: s.dev.cce.waits ∧ t.dev.cce.waited = true ∧ t.dev.cce.done = s.dev.cce.done ∧
      (s.dev.cce.waited = false → evtBit t.dev Ev.CCE_TAIL_WAIT = true))) ∧
  (∀ s o cyc c xs, Awake s → s.dev.cce.waits.contains o = true → s.dev.feedDue o = some (c, xs) → s.dev.cce.cut = false →
    Completes (.tailWaitEnd o cyc) s (fun t =>
      t.dev.cce.waits.contains o = false ∧ Tbl.getD t.dev.crm.fbuf o [] = (Tbl.getD s.dev.crm.fbuf o []).drop 1 ∧
      Tbl.get? t.dev.cce.done o = some (feedBlock s.dev o c xs).out ∧ t.dev.cce.feed o = (feedBlock s.dev o c xs).feed)) ∧
  (∀ s m v, Serves s m → s.dev.twCopy = false → s.dev.feedSelOk m = true →
    Completes (.fcDlyWrite m v) s (fun t =>
      t.dev.rd (R.FC_DLY.of (s.dev.feedSel m)) =
        w32 (min (bits v 0 16) (s.dev.rd (R.FC_DLYCAP.of (s.dev.feedSel m))).toNat) ∧
      ((s.dev.rd (R.FC_DLYCAP.of (s.dev.feedSel m))).toNat < bits v 0 16 → evtBit t.dev Ev.CCE_DLY_LIM = true))) ∧
  (∀ s m v, Serves s m → s.dev.twCopy = false → s.dev.feedSelOk m = true → s.dev.swapping (s.dev.feedSel m) = false →
    bits (s.dev.rd (R.FC_SOS_SEL.of m.num)) 0 3 < 5 →
    Completes (.fcSosCoefAccess m true v) s (fun t =>
      let f := s.dev.cce.feed (s.dev.feedSel m)
      let w := s.dev.rd (R.FC_SOS_SEL.of m.num)
      let f' := t.dev.cce.feed (s.dev.feedSel m)
      Tbl.getD (f'.bank (!f.live)).coef (5 * bits w 4 4 + bits w 0 3) 0#32 = v ∧ f'.bank f.live = f.bank f.live)) ∧
  (∀ s m v, Serves s m → s.dev.twCopy = false → s.dev.feedSelOk m = true → s.dev.swapping (s.dev.feedSel m) = true →
    bits (s.dev.rd (R.FC_SOS_SEL.of m.num)) 0 3 < 5 →
    Completes (.fcSosCoefAccess m true v) s (fun t => t.dev.cce = s.dev.cce ∧ evtBit t.dev Ev.CCE_COEF_BUSY = true)) ∧
  (∀ s m v, Serves s m → s.dev.feedSelOk m = true → bits (s.dev.rd (R.FC_SOS_SEL.of m.num)) 0 3 < 5 →
    Completes (.fcSosCoefAccess m false v) s (fun t =>
      let w := s.dev.rd (R.FC_SOS_SEL.of m.num)
      let f := s.dev.cce.feed (s.dev.feedSel m)
      t.dev.cce = s.dev.cce ∧ t.dev.resp = ⟨[Tbl.getD (f.bank (bit w 8)).coef (5 * bits w 4 4 + bits w 0 3) 0#32], false⟩)) ∧
  (∀ s m v, Serves s m → s.dev.twCopy = false → s.dev.feedSelOk m = true → s.dev.swapping (s.dev.feedSel m) = false →
    Completes (.fcSosBypWrite m v) s (fun t =>
      let f := s.dev.cce.feed (s.dev.feedSel m)
      let f' := t.dev.cce.feed (s.dev.feedSel m)
      (f'.bank (!f.live)).byp = bits v 0 16 ∧ (f'.bank (!f.live)).ef = bit v 31 ∧ f'.bank f.live = f.bank f.live)) ∧
  (∀ s m v, Serves s m → s.dev.twCopy = false → s.dev.cce.load = none → bit v 0 = true → bits v 16 10 < s.dev.crm.nout →
    (s.dev.layoutOf (bits v 16 10)).on = true →
    Completes (.fldGo m v) s (fun t =>
      t.dev.cce.load = some ⟨bits v 16 10, s.dev.rd64 R.CCE_FLD_ADDR_LO R.CCE_FLD_ADDR_HI, (s.dev.rd R.CCE_FLD_COUNT).toNat,
        s.dev.swapping (bits v 16 10)⟩ ∧ t.dev.rd R.CCE_FLD_DONE = 0#32)) ∧
  (∀ s m v, Serves s m → s.dev.twCopy = false → s.dev.cce.load = none → bit v 0 = true →
    (s.dev.crm.nout ≤ bits v 16 10 ∨ (s.dev.layoutOf (bits v 16 10)).on = false) →
    Completes (.fldGo m v) s (fun t =>
      t.dev.cce.load = none ∧ t.dev.rd R.CCE_FLD_DONE = 0#32 ∧ evtBit t.dev Ev.CCE_FLD_TRUNC = true ∧
      evtBit t.dev Ev.CCE_FLD_DONE = true)) ∧
  (∀ s l, Awake s → s.dev.cce.load = some l → l.wait = true → s.dev.swapping l.feed = false →
    Completes .fldStartAfterSwap s (fun t => t.dev.cce.load = some { l with wait := false })) ∧
  (∀ s l n ecc, Awake s → s.dev.cce.load = some l → l.wait = false → n = min l.count (s.dev.layoutOf l.feed).cover →
    TapsReady s l n → l.goodTaps n ecc s.dev = n → s.dev.tw.loadq.all (fun c => c.loader != .fir) = true →
    Completes (.fldDone ecc) s (fun t =>
      let f := s.dev.cce.feed l.feed
      t.dev.cce.load = none ∧ evtBit t.dev Ev.CCE_FLD_DONE = true ∧ t.dev.rd R.CCE_FLD_DONE = w32 n ∧
      ((t.dev.cce.feed l.feed).bank (!f.live)).taps =
        loadTaps (s.dev.loadSrc .fir l.addr (4 * n) (s.dev.seen s.mem)) l l.count (s.dev.layoutOf l.feed).cover ∧
      ((t.dev.cce.feed l.feed).bank (!f.live)).whole = true ∧ (t.dev.cce.feed l.feed).bank f.live = f.bank f.live)) ∧
  (∀ s l n ecc, Awake s → s.dev.cce.load = some l → l.wait = false → n = min l.count (s.dev.layoutOf l.feed).cover →
    TapsReady s l n → l.goodTaps n ecc s.dev < n → s.dev.tw.loadq.all (fun c => c.loader != .fir) = true →
    Completes (.fldDone ecc) s (fun t =>
      t.dev.cce.load = none ∧ evtBit t.dev Ev.CCE_FLD_ERR = true ∧ t.dev.rd R.CCE_FLD_DONE = w32 (l.goodTaps n ecc s.dev) ∧
      ((t.dev.cce.feed l.feed).bank (!(s.dev.cce.feed l.feed).live)).whole = false)) ∧
  (∀ s l n, Awake s → s.dev.cce.load = some l → l.wait = false → s.dev.tw.loadq.all (fun c => c.loader != .fir) = true →
    Completes (.fldErr n) s (fun t =>
      let f := s.dev.cce.feed l.feed
      t.dev.cce.load = none ∧ evtBit t.dev Ev.CCE_FLD_ERR = true ∧
      t.dev.rd R.CCE_FLD_DONE = w32 (min n (min l.count (s.dev.layoutOf l.feed).cover)) ∧
      ((t.dev.cce.feed l.feed).bank (!f.live)).whole = false)) ∧
  (∀ s m v, Serves s m → s.dev.twCopy = false → s.dev.feedSelOk m = true → bit v 0 ≠ s.dev.cce.bankOf (s.dev.feedSel m) →
    Completes (.fcSwap m v) s (fun t =>
      let at' := s.dev.rd64 R.CCE_SWAP_AT_LO R.CCE_SWAP_AT_HI
      (t.dev.cce.feed (s.dev.feedSel m)).queued = some ⟨bit v 0, max 1 (min (bits v 1 9) 64),
        if bit v 31 = true then max at' s.dev.effBlk else s.dev.effBlk, false⟩ ∧
      (bit v 31 = true → at' < s.dev.effBlk → s.dev.within at' = false → evtBit t.dev Ev.CCE_SWAP_LATE = true))) ∧
  (∀ s m v, Serves s m → s.dev.twCopy = false → s.dev.feedSelOk m = true → bit v 0 = s.dev.cce.bankOf (s.dev.feedSel m) →
    Completes (.fcSwap m v) s (fun t =>
      t.dev.cce = s.dev.cce ∧
      t.dev.rd R.CCE_SWAP_NOP_CNT = oneUp (s.dev.rd R.CCE_SWAP_NOP_CNT))) ∧
  (∀ s m v o b, Serves s m → s.dev.twCopy = false → o < s.dev.crm.nout →
    bit (s.dev.rd R.CCE_SWAP_GRP) (s.dev.f (F.FC_INFO_GROUP.of o)) = true → bit v 0 ≠ s.dev.cce.bankOf o →
    b = (if bit v 31 = true then max (s.dev.rd64 R.CCE_SWAP_AT_LO R.CCE_SWAP_AT_HI) s.dev.effBlk else s.dev.effBlk) →
    (∀ q, (s.dev.cce.feed o).queued = some q → q.grp = true ∨ q.blk ≠ b) →
    Completes (.cceSwap m v) s (fun t =>
      (t.dev.cce.feed o).queued = some ⟨bit v 0, max 1 (min (bits v 1 9) 64), b, true⟩)) ∧
  (∀ s m v r o, Serves s m → s.dev.crm.nout ≤ 1024 → bit v 0 = true → r ∈ cceCounters → o < 65536 →
    Completes (.cceCntClr m v) s (fun t => t.dev.rd (r.of o) = 0#32))

/-- The logic operations of a Virif engine, its saturating arithmetic and the compare (05_virif_engines.md R157, R158, R161, R165): what each
writes to D[DST]; a MOD other than 0 makes the bundle of these rows illegal (R150, R174). -/
def Obligations.VirifLogic : Prop :=
  WritesD 0x01 .vMov (fun c o => c.dr o.sa.val) ∧
  WritesD 0x02 .vAdd (fun c o => c.dr o.sa.val + c.dr o.sb.val) ∧
  WritesD 0x03 .vSub (fun c o => c.dr o.sa.val - c.dr o.sb.val) ∧
  WritesD 0x08 .vAnd (fun c o => c.dr o.sa.val &&& c.dr o.sb.val) ∧
  WritesD 0x09 .vOr (fun c o => c.dr o.sa.val ||| c.dr o.sb.val) ∧
  WritesD 0x0A .vXor (fun c o => c.dr o.sa.val ^^^ c.dr o.sb.val) ∧
  WritesD 0x0B .vNot (fun c o => ~~~(c.dr o.sa.val)) ∧
  WritesD 0x0C .vShl (fun c o => c.dr o.sa.val <<< bits (c.dr o.sb.val) 0 5) ∧
  WritesD 0x0D .vShr (fun c o => (c.dr o.sa.val).sshiftRight (bits (c.dr o.sb.val) 0 5)) ∧
  WritesD 0x0E .vShrl (fun c o => c.dr o.sa.val >>> bits (c.dr o.sb.val) 0 5) ∧
  WritesD 0x0F .vMin (fun c o => if (c.dr o.sa.val).slt (c.dr o.sb.val) then c.dr o.sa.val else c.dr o.sb.val) ∧
  WritesD 0x10 .vMax (fun c o => if (c.dr o.sa.val).slt (c.dr o.sb.val) then c.dr o.sb.val else c.dr o.sa.val) ∧
  WritesD 0x12 .vNsb (fun c o => w32 (nsb (c.dr o.sa.val))) ∧
  (∀ s (e : Fin 16) o, Fires 0x00 s e.val o → o.md = 0 → Completes (.vNop e o) s (fun t =>
    (ctxOf t e).a = (ctxOf s e).a ∧ (ctxOf t e).flags.n = (ctxOf s e).flags.n ∧ (ctxOf t e).flags.z = (ctxOf s e).flags.z ∧
    (∀ k, (∀ p ∈ (xMove s e o).dw ++ (yMove s e o).dw, p.1 ≠ k) → (ctxOf t e).dr k = (ctxOf s e).dr k))) ∧
  (∀ p ∈ plainRows, ∀ s (e : Fin 16) o, Fetches s e.val (.std p.1 { o with ce := 0 }) → o.md ≠ 0 →
    Completes (p.2 e o) s (Stops s e.val 1)) ∧
  WritesSat 0x04 .vAdds (fun c o => (c.dr o.sa.val).toInt + (c.dr o.sb.val).toInt) ∧
  WritesSat 0x05 .vSubs (fun c o => (c.dr o.sa.val).toInt - (c.dr o.sb.val).toInt) ∧
  WritesSat 0x06 .vNegs (fun c o => -(c.dr o.sa.val).toInt) ∧
  WritesSat 0x07 .vAbss (fun c o => ((c.dr o.sa.val).toInt.natAbs : Int)) ∧
  (∀ s (e : Fin 16) o, Fires 0x11 s e.val o → o.md = 0 → Completes (.vCmp e o) s (fun t =>
    ((ctxOf t e).flags.n = true ↔ (ctxOf s e).sd o.sa.val < (ctxOf s e).sd o.sb.val) ∧
    ((ctxOf t e).flags.z = true ↔ (ctxOf s e).dr o.sa.val = (ctxOf s e).dr o.sb.val) ∧ (ctxOf t e).a = (ctxOf s e).a))

/-- The accumulator operations (05_virif_engines.md R157, R164): the exact result modulo 2^80, with GOV. -/
def Obligations.VirifAccumulator : Prop :=
  WritesA 0x20 .vMpy (fun _ => True) (fun c o => mulTerm c o 0) ∧
  WritesA 0x21 .vMac (fun _ => True) (fun c o => c.ac o.acc.val + mulTerm c o 0) ∧
  WritesA 0x22 .vMsu (fun _ => True) (fun c o => c.ac o.acc.val - mulTerm c o 0) ∧
  WritesA 0x23 .vMac2 (fun o => o.sa.val % 2 = 0 ∧ o.sb.val % 2 = 0) (fun c o => c.ac o.acc.val + mulTerm c o 0 + mulTerm c o 1) ∧
  WritesA 0x28 .vAclr (fun o => o.md = 0) (fun _ _ => 0) ∧
  WritesA 0x29 .vAmov (fun o => o.md = 0) (fun c o => c.ac (o.sb.val % 4)) ∧
  WritesA 0x2A .vAadd (fun o => o.md = 0) (fun c o => c.ac o.acc.val + c.ac (o.sb.val % 4)) ∧
  WritesA 0x2B .vAshl (fun o => o.md = 0) (fun c o => c.ac o.acc.val * (2 ^ o.sb.val : Nat)) ∧
  WritesA 0x2C .vAshr (fun o => o.md = 0) (fun c o => c.ac o.acc.val / (2 ^ o.sb.val : Nat)) ∧
  WritesA 0x2E .vAld (fun o => o.md = 0) (fun c o => c.sd o.sa.val * (2 ^ 31 : Nat)) ∧
  WritesD 0x2D .vArd (fun c o => (narrow62 c.sat (c.ac o.acc.val * (2 ^ o.sb.val : Nat))).1)

/-- The special operations and the control registers (05_virif_engines.md R160 to R163, R166), and the operands that make
the bundles of MAC2, TAPM, CMAC and BFLY illegal (R150, R174). -/
def Obligations.VirifSpecial : Prop :=
  (∀ s (e : Fin 16) (o : Std) wx wy ay, Fires 0x30 s e.val o → o.x.mop = 1 → o.y.mop = 1 → o.dst = 0 → o.sa = 0 → o.sb = 0 → o.md = 0 →
    (xMove s e o).ld = [wx] → (yMove s e o).ld = [wy] → (yMove s e o).touch = [ay] →
    (ctxOf s e).meets true [(ay + 1) % 32768] true = false → s.dev.badWord (localAddr e true (ay + 1)) = false →
    Completes (.vTapm e o) s (fun t =>
      (ctxOf t e).ac o.acc.val = sgn 80 (unsgn 80 ((ctxOf s e).ac o.acc.val + wInt wx * wInt wy)) ∧
      rdLocal t.mem e.val true (ay + 1) = wy)) ∧
  (∀ s (e : Fin 16) o, Fires 0x31 s e.val o → o.md = 0 → Completes (.vBxv e o) s (fun t =>
    (ctxOf t e).dr o.dst.val =
      wOfInt (((xMove s e o).ld ++ (yMove s e o).ld).foldl (fun m w => min m (nsb w : Int)) ((ctxOf s e).sd o.dst.val)))) ∧
  (∀ s (e : Fin 16) (o : Std), Fires 0x34 s e.val o → o.sa.val % 2 = 0 → o.sb.val % 2 = 0 → o.acc.val % 2 = 0 → o.md = 0 →
    Completes (.vCmac e o) s (fun t =>
      let c := ctxOf s e
      let d (k : Nat) := c.sd k
      (ctxOf t e).ac o.acc.val = sgn 80 (unsgn 80 (c.ac o.acc.val + (d o.sa.val * d o.sb.val - d (o.sa.val + 1) * d (o.sb.val + 1)))) ∧
      (ctxOf t e).ac (o.acc.val + 1) =
        sgn 80 (unsgn 80 (c.ac (o.acc.val + 1) + (d o.sa.val * d (o.sb.val + 1) + d (o.sa.val + 1) * d o.sb.val))))) ∧
  (∀ s (e : Fin 16) (o : Std), Fires 0x34 s e.val o → o.sa.val % 2 = 0 → o.sb.val % 2 = 0 → o.acc.val % 2 = 0 → o.md = 1 →
    Completes (.vCmac e o) s (fun t =>
      let c := ctxOf s e
      let d (k : Nat) := c.sd k
      (ctxOf t e).ac o.acc.val = sgn 80 (unsgn 80 (c.ac o.acc.val + (d o.sa.val * d o.sb.val + d (o.sa.val + 1) * d (o.sb.val + 1)))) ∧
      (ctxOf t e).ac (o.acc.val + 1) =
        sgn 80 (unsgn 80 (c.ac (o.acc.val + 1) + (d (o.sa.val + 1) * d o.sb.val - d o.sa.val * d (o.sb.val + 1)))))) ∧
  (∀ s (e : Fin 16) (o : Std), Fires 0x35 s e.val o → o.dst.val % 2 = 0 → o.sa.val % 2 = 0 → o.sb.val % 2 = 0 → o.dst ≠ o.sa → o.md.val < 3 →
    Completes (.vBfly e o) s (fun t =>
      let c := ctxOf s e
      let re := c.sd o.sa.val * c.sd o.sb.val - c.sd (o.sa.val + 1) * c.sd (o.sb.val + 1)
      let im := c.sd o.sa.val * c.sd (o.sb.val + 1) + c.sd (o.sa.val + 1) * c.sd o.sb.val
      (ctxOf t e).dr o.dst.val = bflyWord c o.md.val (c.sd o.dst.val * (2 ^ 31 : Nat) + re) ∧
      (ctxOf t e).dr (o.dst.val + 1) = bflyWord c o.md.val (c.sd (o.dst.val + 1) * (2 ^ 31 : Nat) + im) ∧
      (ctxOf t e).dr o.sa.val = bflyWord c o.md.val (c.sd o.dst.val * (2 ^ 31 : Nat) - re) ∧
      (ctxOf t e).dr (o.sa.val + 1) = bflyWord c o.md.val (c.sd (o.dst.val + 1) * (2 ^ 31 : Nat) - im))) ∧
  (∀ s (e : Fin 16) (o : Std), Fires 0x38 s e.val o → o.md = 0 → Completes (.vMvc e o) s (fun t =>
    let v := (ctxOf s e).dr o.sa.val
    let k := (o.dst.val - 16) / 4
    (ctxOf t e).sat = (if o.dst.val = 1 then bit v 0 else (ctxOf s e).sat) ∧
    (o.dst.val = 2 → (ctxOf t e).flags.protx = bit v 11 ∧ (ctxOf t e).flags.qempty = bit v 10) ∧
    (o.dst.val < 16 → (ctxOf t e).ch = (ctxOf s e).ch) ∧
    (16 ≤ o.dst.val → o.dst.val % 4 = 0 → ((ctxOf t e).chan k).loc = w32 (bits v 0 16)) ∧
    (16 ≤ o.dst.val → o.dst.val % 4 = 1 → ((ctxOf t e).chan k).extLo = v) ∧
    (16 ≤ o.dst.val → o.dst.val % 4 = 2 → ((ctxOf t e).chan k).extHi = w32 (bits v 0 8)) ∧
    (16 ≤ o.dst.val → o.dst.val % 4 = 3 → ((ctxOf t e).chan k).ctl = v &&& 0x3000FFFF#32))) ∧
  (∀ s (e : Fin 16) o, Fires 0x39 s e.val o → o.md = 0 → Completes (.vMcv e o) s (fun t =>
    (ctxOf t e).dr o.dst.val = s.dev.engReg e o.sa.val)) ∧
  (∀ s (e : Fin 16) (o : Std), Fetches s e.val (.std 0x23 { o with ce := 0 }) → o.sa.val % 2 = 1 ∨ o.sb.val % 2 = 1 →
    Completes (.vMac2 e o) s (Stops s e.val 1)) ∧
  (∀ s (e : Fin 16) (o : Std), Fetches s e.val (.std 0x30 { o with ce := 0 }) → o.x.mop ≠ 1 ∨ o.y.mop ≠ 1 ∨ o.dst ≠ 0 ∨ o.sa ≠ 0 ∨ o.sb ≠ 0 ∨ o.md ≠ 0 →
    Completes (.vTapm e o) s (Stops s e.val 1)) ∧
  (∀ s (e : Fin 16) (o : Std), Fetches s e.val (.std 0x34 { o with ce := 0 }) → o.sa.val % 2 = 1 ∨ o.sb.val % 2 = 1 ∨ o.acc.val % 2 = 1 ∨ 1 < o.md.val →
    Completes (.vCmac e o) s (Stops s e.val 1)) ∧
  (∀ s (e : Fin 16) (o : Std), Fetches s e.val (.std 0x35 { o with ce := 0 }) → o.dst.val % 2 = 1 ∨ o.sa.val % 2 = 1 ∨ o.sb.val % 2 = 1 ∨ o.dst = o.sa ∨ o.md.val = 3 →
    Completes (.vBfly e o) s (Stops s e.val 1))

/-- The move slots (05_virif_engines.md R146, R149, R152, R155, R165, R168): what the slot on the side that `y` says loads, stores or copies,
beside any legal slot on the other side. A load of the X slot gives way to one of the Y slot into the same register. A single word stored
into half of an uncorrectable word is not written (13_memory.md R369). A move that meets a busy channel's range waits with its bundle; a pair
move through an odd register makes the bundle illegal (cause 1), one at an odd address aborts the item with MISALIGN (cause 2), and neither
stores. -/
def Obligations.VirifMoves : Prop :=
  (∀ s (e : Fin 16) y sl other ce, Fires 0 s e.val (slotBundle y sl other ce 1) →
    (y = true ∨ ∀ p ∈ (yMove s e (slotBundle y sl other ce 1)).dw, p.1 ≠ sl.reg.val) →
    Completes (.loadWord e y sl other ce) s (fun t =>
      (ctxOf t e).dr sl.reg.val = rdLocal s.mem e y (moveAddr (ctxOf s e) y sl 1))) ∧
  (∀ s (e : Fin 16) y sl other ce, Fires 0 s e.val (slotBundle y sl other ce 2) →
    s.dev.badWord (localAddr e y (moveAddr (ctxOf s e) y sl 1)) = false →
    Completes (.storeWord e y sl other ce) s (fun t =>
      rdLocal t.mem e y (moveAddr (ctxOf s e) y sl 1) = (ctxOf s e).dr sl.reg.val)) ∧
  (∀ s (e : Fin 16) y sl other ce, Fires 0 s e.val (slotBundle y sl other ce 2) →
    s.dev.badWord (localAddr e y (moveAddr (ctxOf s e) y sl 1)) = true →
    Completes (.storeWord e y sl other ce) s (fun t =>
      rdLocal t.mem e y (moveAddr (ctxOf s e) y sl 1) = rdLocal s.mem e y (moveAddr (ctxOf s e) y sl 1) ∧
      evtBit t.dev Ev.MS_UE = true)) ∧
  (∀ s (e : Fin 16) y sl other ce, Fires 0 s e.val (slotBundle y sl other ce 3) →
    (y = true ∨ ∀ p ∈ (yMove s e (slotBundle y sl other ce 3)).dw, p.1 ≠ sl.reg.val ∧ p.1 ≠ sl.reg.val + 1) →
    Completes (.loadPair e y sl other ce) s (fun t =>
      (ctxOf t e).dr sl.reg.val = rdLocal s.mem e y (moveAddr (ctxOf s e) y sl 2) ∧
      (ctxOf t e).dr (sl.reg.val + 1) = rdLocal s.mem e y (moveAddr (ctxOf s e) y sl 2 + 1))) ∧
  (∀ s (e : Fin 16) y sl other ce, Fires 0 s e.val (slotBundle y sl other ce 4) →
    Completes (.storePair e y sl other ce) s (fun t =>
      rdLocal t.mem e y (moveAddr (ctxOf s e) y sl 2) = (ctxOf s e).dr sl.reg.val ∧
      rdLocal t.mem e y (moveAddr (ctxOf s e) y sl 2 + 1) = (ctxOf s e).dr (sl.reg.val + 1))) ∧
  (∀ s (e : Fin 16) y sl other ce, Fires 0 s e.val (slotBundle y sl other ce 5) →
    s.dev.badWord (localAddr e y (moveAddr (ctxOf s e) y sl 1)) = false →
    Completes (.storeAcc e y sl other ce) s (fun t =>
      rdLocal t.mem e y (moveAddr (ctxOf s e) y sl 1) = (narrow62 (ctxOf s e).sat ((ctxOf s e).ac (sl.reg.val % 4))).1)) ∧
  (∀ s (e : Fin 16) y sl other ce, Fires 0 s e.val (slotBundle y sl other ce 6) →
    (y = true ∨ ∀ p ∈ (yMove s e (slotBundle y sl other ce 6)).dw, p.1 ≠ sl.ptr.val * 8 + sl.am.val) →
    Completes (.registerCopy e y sl other ce) s (fun t =>
      (ctxOf t e).dr (sl.ptr.val * 8 + sl.am.val) = (ctxOf s e).dr sl.reg.val)) ∧
  (∀ s (e : Fin 16) y sl other ce (n : Fin 8), 0 < n.val → n.val < 7 → Fetches s e.val (.std 0 { slotBundle y sl other ce n with ce := 0 }) →
    (xMove s e (slotBundle y sl other ce n)).bad = some 1 ∨ (yMove s e (slotBundle y sl other ce n)).bad = some 1 →
    Completes (moveRow n e y sl other ce) s (Stops s e.val 1)) ∧
  (∀ s (e : Fin 16) y sl other ce (n : Fin 8), n.val = 3 ∨ n.val = 4 → Fetches s e.val (.std 0 { slotBundle y sl other ce n with ce := 0 }) →
    sl.reg.val % 2 = 1 → Completes (moveRow n e y sl other ce) s (Stops s e.val 1)) ∧
  (∀ s (e : Fin 16) y sl other ce (n : Fin 8), n.val = 3 ∨ n.val = 4 → Fetches s e.val (.std 0 { slotBundle y sl other ce n with ce := 0 }) →
    (xMove s e (slotBundle y sl other ce n)).bad ≠ some 1 → (yMove s e (slotBundle y sl other ce n)).bad ≠ some 1 →
    moveAddr (ctxOf s e) y sl 2 % 2 = 1 → Completes (moveRow n e y sl other ce) s (Stops s e.val 2)) ∧
  (∀ s (e : Fin 16) y sl other ce (n : Fin 8), 0 < n.val → n.val < 7 → Fetches s e.val (.std 0 { slotBundle y sl other ce n with ce := 0 }) →
    (xMove s e (slotBundle y sl other ce n)).bad = none → (yMove s e (slotBundle y sl other ce n)).bad = none →
    (ctxOf s e).meets y (if y then yMove s e (slotBundle y sl other ce n) else xMove s e (slotBundle y sl other ce n)).touch
      (if y then yMove s e (slotBundle y sl other ce n) else xMove s e (slotBundle y sl other ce n)).store = true →
    Completes (moveRow n e y sl other ce) s (fun t =>
      (t.dev.eng e).wait ≠ .go ∧ ctxOf t e = ctxOf s e ∧ (t.dev.eng e).fault = none ∧ t.mem = s.mem))

/-- The immediate bundles (05_virif_engines.md R153): each takes one cycle and goes on to the next bundle with one register written. -/
def Obligations.VirifImmediate : Prop :=
  (∀ s (e : Fin 16) r, IssuesImm 0 s e.val r → Completes (.ldi e r) s (fun t =>
    GoesOn s t e 1 (fun c => c.setD r.reg.val r.imm))) ∧
  (∀ s (e : Fin 16) r, IssuesImm 1 s e.val r → Completes (.ldip e r) s (fun t =>
    GoesOn s t e 1 (fun c => c.setP (r.reg.val % 16) (bits r.imm 0 15)))) ∧
  (∀ s (e : Fin 16) r, IssuesImm 2 s e.val r → Completes (.ldim e r) s (fun t =>
    GoesOn s t e 1 (fun c => c.setM (r.reg.val % 16) (bits r.imm 0 16)))) ∧
  (∀ s (e : Fin 16) r, IssuesImm 3 s e.val r → Completes (.ldil e r) s (fun t =>
    GoesOn s t e 1 (fun c => c.setL (r.reg.val % 16) (bits r.imm 0 15)))) ∧
  (∀ s (e : Fin 16) r, IssuesImm 4 s e.val r → Completes (.addi e r) s (fun t =>
    GoesOn s t e 1 (fun c => c.setD r.reg.val (c.dr r.reg.val + r.imm)))) ∧
  (∀ s (e : Fin 16) r, IssuesImm 5 s e.val r → Completes (.addip e r) s (fun t =>
    GoesOn s t e 1 (fun c =>
      c.setP (r.reg.val % 16) (upd (c.lr (r.reg.val % 16)) (c.pr (r.reg.val % 16)) (sgn 16 (bits r.imm 0 16)))))) ∧
  (∀ s (e : Fin 16) r, IssuesImm 6 s e.val r → Completes (.mvp e r) s (fun t =>
    GoesOn s t e 1 (fun c => c.setP (r.reg.val % 16) (bits (c.dr r.reg2.val) 0 15)))) ∧
  (∀ s (e : Fin 16) r, IssuesImm 7 s e.val r → Completes (.mpv e r) s (fun t =>
    GoesOn s t e 1 (fun c => c.setD r.reg.val (w32 (c.pr (r.reg2.val % 16))))))

/-- The control bundles (05_virif_engines.md R154, R156, R168, R171, R173, R174; 17_security_debug.md R475), a bundle with reserved bits set
among them, and the PC past the last bundle. -/
def Obligations.VirifControl : Prop :=
  (∀ s (e : Fin 16) c, IssuesCtl 0x00 s e.val c → Completes (.controlNop e c) s (fun t => GoesOn s t e 1 id)) ∧
  (∀ s (e : Fin 16) c, Awake s → s.dev.issues e.val = true → s.dev.fetches s.mem e.val (.ctl 0 { c with ce := 0 }) = true → c.rsv.val = 0 →
    (ctxOf s e).pc = 8191 → (ctxOf s e).loops = [] → Completes (.controlNop e c) s (fun t =>
      (t.dev.eng e).fault = some (5, 8191) ∧ t.mem = s.mem)) ∧
  (∀ s (e : Fin 16) c, Fetches s e.val (.ctl 0 { c with ce := 0 }) → c.rsv.val ≠ 0 → Completes (.controlNop e c) s (Stops s e.val 1)) ∧
  (∀ s (e : Fin 16) c, IssuesCtl 0x01 s e.val c → (ctxOf s e).cond c.cond.val = true → Completes (.bra e c) s (fun t =>
    (ctxOf t e).pc = c.target.val ∧ (ctxOf t e).cyc = (ctxOf s e).cyc + 3)) ∧
  (∀ s (e : Fin 16) c, IssuesCtl 0x01 s e.val c → (ctxOf s e).cond c.cond.val = false → Completes (.bra e c) s (fun t => GoesOn s t e 1 id)) ∧
  (∀ s (e : Fin 16) c, IssuesCtl 0x02 s e.val c → (ctxOf s e).cond c.cond.val = true → (ctxOf s e).calls.length < 8 →
    Completes (.call e c) s (fun t =>
      (ctxOf t e).pc = c.target.val ∧ (ctxOf t e).calls = ((ctxOf s e).pc + 1) :: (ctxOf s e).calls)) ∧
  (∀ s (e : Fin 16) c, IssuesCtl 0x02 s e.val c → (ctxOf s e).cond c.cond.val = false → Completes (.call e c) s (fun t => GoesOn s t e 1 id)) ∧
  (∀ s (e : Fin 16) c r rest, IssuesCtl 0x03 s e.val c → (ctxOf s e).cond c.cond.val = true → (ctxOf s e).calls = r :: rest →
    Completes (.ret e c) s (fun t => (ctxOf t e).pc = r ∧ (ctxOf t e).calls = rest)) ∧
  (∀ s (e : Fin 16) c, IssuesCtl 0x03 s e.val c → (ctxOf s e).cond c.cond.val = false → Completes (.ret e c) s (fun t => GoesOn s t e 1 id)) ∧
  (∀ s (e : Fin 16) c, IssuesCtl 0x04 s e.val c → (ctxOf s e).pc < c.target.val → (ctxOf s e).loops.length < 4 →
    Completes (.loop e c) s (fun t =>
      (ctxOf t e).pc = (ctxOf s e).pc + 1 ∧
      (ctxOf t e).loops =
        ⟨(ctxOf s e).pc + 1, c.target.val, if c.count.val = 0 then 65536 else c.count.val⟩ :: (ctxOf s e).loops)) ∧
  (∀ s (e : Fin 16) c, IssuesCtl 0x05 s e.val c → (ctxOf s e).pc < c.target.val → (ctxOf s e).loops.length < 4 →
    bits ((ctxOf s e).dr c.reg.val) 0 17 ≠ 0 →
    Completes (.loopr e c) s (fun t =>
      (ctxOf t e).pc = (ctxOf s e).pc + 1 ∧
      (ctxOf t e).loops =
        ⟨(ctxOf s e).pc + 1, c.target.val, min (bits ((ctxOf s e).dr c.reg.val) 0 17) 65536⟩ :: (ctxOf s e).loops)) ∧
  (∀ s (e : Fin 16) c, IssuesCtl 0x05 s e.val c → (ctxOf s e).pc < c.target.val → c.target.val < 8191 → (ctxOf s e).loops.length < 4 →
    bits ((ctxOf s e).dr c.reg.val) 0 17 = 0 →
    Completes (.loopr e c) s (fun t =>
      (ctxOf t e).pc = c.target.val + 1 ∧ (ctxOf t e).loops = (ctxOf s e).loops)) ∧
  (∀ s (e : Fin 16) c, IssuesCtl 0x06 s e.val c → Completes (.endItem e c) s (fun t =>
    (t.dev.eng e).wait = .ending ∧ (ctxOf t e).prot = false ∧ (ctxOf t e).cyc = (ctxOf s e).cyc + 1)) ∧
  (∀ s (e : Fin 16) c, IssuesCtl 0x07 s e.val c → Completes (.prot e c) s (fun t => GoesOn s t e 1 (fun c => { c with prot := true }))) ∧
  (∀ s (e : Fin 16) c, IssuesCtl 0x08 s e.val c → Completes (.unprot e c) s (fun t => GoesOn s t e 1 (fun c => { c with prot := false }))) ∧
  (∀ s (e : Fin 16) c, IssuesCtl 0x0A s e.val c → (ctxOf s e).busyIn (c.count.val % 16) = true → Completes (.xwait e c) s (fun t =>
    (t.dev.eng e).wait = .xwait (c.count.val % 16) ∧ ctxOf t e = ctxOf s e)) ∧
  (∀ s (e : Fin 16) c, IssuesCtl 0x0A s e.val c → (ctxOf s e).busyIn (c.count.val % 16) = false → Completes (.xwait e c) s (fun t =>
    GoesOn s t e 1 id)) ∧
  (∀ s (e : Fin 16) c, IssuesCtl 0x0B s e.val c → s.dev.inMode mInspection = true → s.dev.fb F.STATUS_SEC_ATTACH = true → s.dev.level = 3 →
    Completes (.brk e c) s (fun t => (t.dev.eng e).wait = .stopped ∧ GoesOn s t e 1 id)) ∧
  (∀ s (e : Fin 16) c, IssuesCtl 0x0B s e.val c →
    s.dev.inMode mInspection = false ∨ s.dev.fb F.STATUS_SEC_ATTACH = false ∨ s.dev.level ≠ 3 → Completes (.brk e c) s (fun t =>
    (t.dev.eng e).wait = .go ∧ GoesOn s t e 1 id)) ∧
  (∀ s (e : Fin 16) c, IssuesCtl 0x02 s e.val c → (ctxOf s e).cond c.cond.val = true → 8 ≤ (ctxOf s e).calls.length →
    Completes (.call e c) s (Stops s e.val 4)) ∧
  (∀ s (e : Fin 16) c, IssuesCtl 0x03 s e.val c → (ctxOf s e).cond c.cond.val = true → (ctxOf s e).calls = [] →
    Completes (.ret e c) s (Stops s e.val 4)) ∧
  (∀ s (e : Fin 16) c, IssuesCtl 0x04 s e.val c → (ctxOf s e).pc < c.target.val → 4 ≤ (ctxOf s e).loops.length →
    Completes (.loop e c) s (Stops s e.val 3)) ∧
  (∀ s (e : Fin 16) c, IssuesCtl 0x04 s e.val c → c.target.val ≤ (ctxOf s e).pc → Completes (.loop e c) s (Stops s e.val 1))

/-- What channel `k` of engine `e` moves when an XGO starts it (05_virif_engines.md R167). -/
abbrev Sys2Proof.memXfer (s : State) (e k : Nat) : Xfer :=
  let x := (ctxOf s e).chan k
  ⟨x.kind, bit x.loc 15, bits x.loc 0 15, bits x.ctl 0 16, pair x.extLo x.extHi / 4 * 4, false, [], (ctxOf s e).pc⟩

/-- Channel `k` of engine `e` can start a transfer between local memory and a store (05_virif_engines.md R167, R168). -/
abbrev Sys2Proof.CanXfer (s : State) (e k : Nat) : Prop :=
  ((ctxOf s e).chan k).kind < 2 ∧ 0 < bits ((ctxOf s e).chan k).ctl 0 16 ∧
  bits ((ctxOf s e).chan k).loc 0 15 + bits ((ctxOf s e).chan k).ctl 0 16 ≤ 32768 ∧
  s.dev.extOk (pair ((ctxOf s e).chan k).extLo ((ctxOf s e).chan k).extHi / 4 * 4) (bits ((ctxOf s e).chan k).ctl 0 16) = true ∧
  (ctxOf s e).xgoWaits k (bit ((ctxOf s e).chan k).loc 15) (bits ((ctxOf s e).chan k).loc 0 15) (bits ((ctxOf s e).chan k).ctl 0 16) = false

/-- Queue transfer of kind `kind` on channel `k`: its queue is bound to the item in that direction, its range fits and meets no busy channel
(05_virif_engines.md R167 to R169). -/
abbrev Sys2Proof.CanQueue (s : State) (e k kind : Nat) : Prop :=
  ((ctxOf s e).chan k).kind = kind ∧ bound (ctxOf s e).run.qb (kind == 3) ((ctxOf s e).chan k).qid = true ∧
  bits ((ctxOf s e).chan k).loc 0 15 + s.dev.xferLen ((ctxOf s e).chan k) ≤ 32768 ∧
  (ctxOf s e).xgoWaits k (bit ((ctxOf s e).chan k).loc 15) (bits ((ctxOf s e).chan k).loc 0 15) (s.dev.xferLen ((ctxOf s e).chan k)) = false

/-- Channel `k` of engine `e` carries the transfer `x` (05_virif_engines.md R167). -/
abbrev Sys2Proof.Moves (s : State) (e k : Nat) (x : Xfer) : Prop :=
  Awake s ∧ ((ctxOf s e).chan k).act = some x ∧ x.tick = false ∧ x.word + x.n ≤ 32768

/-- Transfers (05_virif_engines.md R144, R154, R166 to R169, R173, R174; 12_twin.md R345; 13_memory.md R368, R377, R383). XGO starts its channel, waits for a busy one, moves nothing for a
length of 0, or aborts the item; a QGET takes its slot and a QPUT its ticket, if there is one. A waiting XGO starts once it can; a transfer that
ends has moved its data, what it reads with the writes that wait in the DRAM queue, unless it met an uncorrectable word, writes a window that a
copy holds, or its target serves another master; an error aborts; a returned ticket lets a QPUT go on. -/
def Obligations.VirifTransfers : Prop :=
  (∀ s (e : Fin 16) c, IssuesCtl 0x09 s e.val c → CanXfer s e (c.reg.val % 4) → Completes (.xgo e c) s (fun t =>
    ((ctxOf t e).chan (c.reg.val % 4)).act = some (memXfer s e (c.reg.val % 4)) ∧
    ((ctxOf t e).chan (c.reg.val % 4)).err = false ∧ (t.dev.eng e).wait = .go)) ∧
  (∀ s (e : Fin 16) c, IssuesCtl 0x09 s e.val c → ((ctxOf s e).chan (c.reg.val % 4)).kind < 2 → bits ((ctxOf s e).chan (c.reg.val % 4)).ctl 0 16 = 0 →
    ((ctxOf s e).chan (c.reg.val % 4)).act = none → Completes (.xgo e c) s (fun t =>
    ((ctxOf t e).chan (c.reg.val % 4)).act = none ∧ ((ctxOf t e).chan (c.reg.val % 4)).err = false ∧ t.mem = s.mem)) ∧
  (∀ s (e : Fin 16) c sl rest, IssuesCtl 0x09 s e.val c → CanQueue s e (c.reg.val % 4) 2 →
    s.dev.q.slotsOf ((ctxOf s e).chan (c.reg.val % 4)).qid = sl :: rest → Completes (.xgo e c) s (fun t =>
    (((ctxOf t e).chan (c.reg.val % 4)).act.map Xfer.data) = some sl.words ∧
    t.dev.q.slotsOf ((ctxOf s e).chan (c.reg.val % 4)).qid = rest)) ∧
  (∀ s (e : Fin 16) c, IssuesCtl 0x09 s e.val c → CanQueue s e (c.reg.val % 4) 2 →
    s.dev.q.slotsOf ((ctxOf s e).chan (c.reg.val % 4)).qid = [] → Completes (.xgo e c) s (fun t =>
    (((ctxOf t e).chan (c.reg.val % 4)).act.map Xfer.data) = some (List.replicate (s.dev.xferLen ((ctxOf s e).chan (c.reg.val % 4))) 0#32) ∧
    (ctxOf t e).flags.qempty = true)) ∧
  (∀ s (e : Fin 16) c, IssuesCtl 0x09 s e.val c → CanQueue s e (c.reg.val % 4) 3 → Completes (.xgo e c) s (fun t =>
    (((ctxOf t e).chan (c.reg.val % 4)).act.map Xfer.tick) = some (decide ((s.dev.q.get ((ctxOf s e).chan (c.reg.val % 4)).qid).h = 0)) ∧
    (t.dev.q.get ((ctxOf s e).chan (c.reg.val % 4)).qid).h = (s.dev.q.get ((ctxOf s e).chan (c.reg.val % 4)).qid).h - 1)) ∧
  (∀ s (e : Fin 16) c, IssuesCtl 0x09 s e.val c → 2 ≤ ((ctxOf s e).chan (c.reg.val % 4)).kind →
    bound (ctxOf s e).run.qb (((ctxOf s e).chan (c.reg.val % 4)).kind == 3) ((ctxOf s e).chan (c.reg.val % 4)).qid = false →
    Completes (.xgo e c) s (Stops s e.val 7)) ∧
  (∀ s (e : Fin 16) c, IssuesCtl 0x09 s e.val c → ((ctxOf s e).chan (c.reg.val % 4)).kind < 2 →
    32768 < bits ((ctxOf s e).chan (c.reg.val % 4)).loc 0 15 + bits ((ctxOf s e).chan (c.reg.val % 4)).ctl 0 16 →
    0 < bits ((ctxOf s e).chan (c.reg.val % 4)).ctl 0 16 → Completes (.xgo e c) s (Stops s e.val 8)) ∧
  (∀ s (e : Fin 16) c, IssuesCtl 0x09 s e.val c → ((ctxOf s e).chan (c.reg.val % 4)).kind < 2 → 0 < bits ((ctxOf s e).chan (c.reg.val % 4)).ctl 0 16 →
    bits ((ctxOf s e).chan (c.reg.val % 4)).loc 0 15 + bits ((ctxOf s e).chan (c.reg.val % 4)).ctl 0 16 ≤ 32768 →
    (ctxOf s e).xgoWaits (c.reg.val % 4) (bit ((ctxOf s e).chan (c.reg.val % 4)).loc 15) (bits ((ctxOf s e).chan (c.reg.val % 4)).loc 0 15)
      (bits ((ctxOf s e).chan (c.reg.val % 4)).ctl 0 16) = false →
    s.dev.extOk (pair ((ctxOf s e).chan (c.reg.val % 4)).extLo ((ctxOf s e).chan (c.reg.val % 4)).extHi / 4 * 4)
      (bits ((ctxOf s e).chan (c.reg.val % 4)).ctl 0 16) = false →
    Completes (.xgo e c) s (fun t => Stops s e.val 6 t ∧ ((ctxOf t e).chan (c.reg.val % 4)).err = true)) ∧
  (∀ s (e : Fin 16) c, IssuesCtl 0x09 s e.val c → ((ctxOf s e).chan (c.reg.val % 4)).kind < 2 →
    bits ((ctxOf s e).chan (c.reg.val % 4)).loc 0 15 + bits ((ctxOf s e).chan (c.reg.val % 4)).ctl 0 16 ≤ 32768 →
    (ctxOf s e).xgoWaits (c.reg.val % 4) (bit ((ctxOf s e).chan (c.reg.val % 4)).loc 15) (bits ((ctxOf s e).chan (c.reg.val % 4)).loc 0 15)
      (bits ((ctxOf s e).chan (c.reg.val % 4)).ctl 0 16) = true →
    Completes (.xgo e c) s (fun t => (t.dev.eng e).wait = .xgo (c.reg.val % 4) ∧ ctxOf t e = ctxOf s e)) ∧
  (∀ s (e : Fin 16) (k : Fin 4), Awake s → (s.dev.eng e).wait = .xgo k.val → (ctxOf s e).pc < 8191 →
    CanXfer s e k → Completes (.xferStartAfterWait e k) s (fun t =>
      ((ctxOf t e).chan k).act = some (memXfer s e k) ∧ (t.dev.eng e).wait = .go)) ∧
  (∀ s (e : Fin 16) (k : Fin 4) w ecc x, Moves s e k x → x.kind = 0 → s.dev.reach 4 x.ext (4 * x.n) = true →
    AllGood s ecc x.ext (4 * x.n) → AllGood s ecc (localAddr e x.y x.word) (4 * x.n) →
    Completes (.xferDone e k w ecc) s (fun t =>
      ((ctxOf t e).chan k).act = none ∧
      t.mem = Memory.wrWords s.mem (localAddr e x.y x.word) (Memory.rdWords (s.dev.seen s.mem) x.ext x.n))) ∧
  (∀ s (e : Fin 16) (k : Fin 4) w ecc x, Moves s e k x → x.kind = 1 → s.dev.reach 4 x.ext (4 * x.n) = true →
    AllGood s ecc x.ext (4 * x.n) → AllGood s ecc (localAddr e x.y x.word) (4 * x.n) →
    s.dev.mirrorHeld (some (.virif e)) x.ext (4 * x.n) = false →
    Completes (.xferDone e k w ecc) s (fun t =>
      ((ctxOf t e).chan k).act = none ∧ t.mem = Memory.wrWords s.mem x.ext (rdLocals s.mem e x.y x.word x.n))) ∧
  (∀ s (e : Fin 16) (k : Fin 4) w ecc x, Moves s e k x → x.kind = 2 → AllGood s ecc (localAddr e x.y x.word) (4 * x.n) → x.data.length = x.n →
    Completes (.xferDone e k w ecc) s (fun t =>
      ((ctxOf t e).chan k).act = none ∧ t.mem = Memory.wrWords s.mem (localAddr e x.y x.word) x.data)) ∧
  (∀ s (e : Fin 16) (k : Fin 4) w ecc x, Moves s e k x → x.kind = 3 → AllGood s ecc (localAddr e x.y x.word) (4 * x.n) →
    0 < (s.dev.q.get x.ext).f →
    Completes (.xferDone e k w ecc) s (fun t =>
      ((ctxOf t e).chan k).act = none ∧ t.mem = s.mem ∧ (t.dev.q.get x.ext).s = (s.dev.q.get x.ext).s + 1 ∧
      t.dev.q.slotsOf x.ext = s.dev.q.slotsOf x.ext ++
        [⟨(ctxOf s e).run.blk, chunk32 (rdLocals s.mem e x.y x.word x.n) x.n⟩])) ∧
  (∀ s (e : Fin 16) (k : Fin 4) w ecc x, Moves s e k x → x.kind < 2 → s.dev.reach 4 x.ext (4 * x.n) = true →
    (s.dev.eng e).fault = none → ¬ AllGood s ecc (if x.kind = 0 then x.ext else localAddr e x.y x.word) (4 * x.n) →
    Completes (.xferDone e k w ecc) s (fun t =>
      ((ctxOf t e).chan k).act = none ∧ t.mem = s.mem ∧ (t.dev.eng e).fault = some (if x.kind = 0 then 6 else 9, x.pc))) ∧
  (∀ s (e : Fin 16) (k : Fin 4) w ecc x, Moves s e k x → x.kind = 1 → s.dev.reach 4 x.ext (4 * x.n) = true →
    (s.dev.eng e).fault = none → AllGood s ecc (localAddr e x.y x.word) (4 * x.n) →
    s.dev.mirrorHeld (some (.virif e)) x.ext (4 * x.n) = true →
    Completes (.xferDone e k w ecc) s (fun t =>
      ((ctxOf t e).chan k).act = none ∧ ((ctxOf t e).chan k).err = true ∧ t.mem = s.mem ∧ (t.dev.eng e).fault = some (6, x.pc))) ∧
  (∀ s (e : Fin 16) (k : Fin 4) w ecc x, Moves s e k x → x.kind < 2 → s.dev.reach 4 x.ext (4 * x.n) = false →
    Completes (.xferDone e k w ecc) s (fun t => ctxOf t e = ctxOf s e ∧ t.mem = s.mem)) ∧
  (∀ s (e : Fin 16) (k : Fin 4) w x, Awake s → ((ctxOf s e).chan k).act = some x → x.tick = false → x.kind < 2 →
    (s.dev.eng e).fault = none →
    Completes (.xferErr e k w) s (fun t =>
      ((ctxOf t e).chan k).act = none ∧ ((ctxOf t e).chan k).err = true ∧ (t.dev.eng e).fault = some (6, x.pc))) ∧
  (∀ s (e : Fin 16) (k : Fin 4) x, Awake s → ((ctxOf s e).chan k).act = some x → x.tick = true → 0 < (s.dev.q.get x.ext).h →
    Completes (.qputTicketArrive e k) s (fun t =>
      ((ctxOf t e).chan k).act = some { x with tick := false } ∧ (t.dev.q.get x.ext).h = (s.dev.q.get x.ext).h - 1)) ∧
  (∀ s (e : Fin 16), Awake s → (s.dev.eng e).run = true → (ctxOf s e).prot = true → Completes (.protTimeout e) s (fun t =>
    (ctxOf t e).prot = false ∧ (ctxOf t e).flags.protx = true)) ∧
  (∀ s m (e : Fin 16) v, Serves s m → bit v 0 = true → Completes (.engCntClr m e v) s (fun t =>
    t.dev.rd (R.ENG_RUNS.of e) = 0#32 ∧ t.dev.rd (R.ENG_FAULT.of e) = 0#32))

/-- Work items on an engine (05_virif_engines.md R170 to R174; 06_signal_box.md R186, R190): start, completion, abort, what follows them,
preemption, save and restore. -/
def Obligations.VirifItems : Prop :=
  (∀ s (e : Fin 16), Awake s → (s.dev.eng e).run = true → (s.dev.eng e).wait = .starting →
    Completes (.itemStart e) s (fun t =>
      (t.dev.eng e).run = true ∧ (t.dev.eng e).wait = .go ∧ ctxOf t e = ctxOf s e)) ∧
  (∀ s (e : Fin 16) cyc, Awake s → (s.dev.eng e).run = true → (s.dev.eng e).wait = .ending → (s.dev.eng e).fault = none →
    (ctxOf s e).anyBusy = false → (s.dev.eng e).next = none → (s.dev.eng e).saved = [] →
    Completes (.itemDone e cyc) s (fun t =>
      (t.dev.eng e).run = false ∧
      t.dev.rd (R.ENG_RUNS.of e) = oneUp (s.dev.rd (R.ENG_RUNS.of e)))) ∧
  (∀ s (e : Fin 16) cyc r, Awake s → (s.dev.eng e).run = true → (s.dev.eng e).wait = .ending → (s.dev.eng e).fault = none →
    (ctxOf s e).anyBusy = false → (s.dev.eng e).next = some r →
    Completes (.itemDone e cyc) s (fun t =>
      (t.dev.eng e).run = true ∧ ctxOf t e = Ctx.start r ∧ (t.dev.eng e).next = none ∧ (t.dev.eng e).saved = (s.dev.eng e).saved)) ∧
  (∀ s (e : Fin 16) cyc c rest, Awake s → (s.dev.eng e).run = true → (s.dev.eng e).wait = .ending → (s.dev.eng e).fault = none →
    (ctxOf s e).anyBusy = false → (s.dev.eng e).next = none → (s.dev.eng e).saved = c :: rest →
    Completes (.itemDone e cyc) s (fun t =>
      (t.dev.eng e).run = true ∧ ctxOf t e = c ∧ (t.dev.eng e).wait = .restoring ∧ (t.dev.eng e).saved = rest)) ∧
  (∀ s (e : Fin 16) ecc cyc cause pc, Awake s → (s.dev.eng e).fault = some (cause, pc) → (s.dev.eng e).run = true →
    (ctxOf s e).moving = false → (s.dev.eng e).next = none → (s.dev.eng e).saved = [] →
    Completes (.itemAbort e ecc cyc) s (fun t =>
      (t.dev.eng e).run = false ∧ (t.dev.eng e).fault = none ∧
      t.dev.rd (R.ENG_FAULT.of e) = w32 (2 ^ 31 + cause * 2 ^ 24 + (ctxOf s e).run.item) ∧
      t.dev.rd (R.ENG_FAULT_PC.of e) = w32 pc)) ∧
  (∀ s (e : Fin 16) ecc cyc, Awake s → s.dev.issues e = true → (s.dev.eng e).next = none → (s.dev.eng e).saved = [] → (ctxOf s e).moving = false →
    ecc.isSome = true ∨ s.dev.badWord (bundleAddr e (ctxOf s e).pc) = true ∨ bundleAt s.mem e (ctxOf s e).pc = .illegal →
    Completes (.itemAbort e ecc cyc) s (fun t =>
      (t.dev.eng e).run = false ∧
      t.dev.rd (R.ENG_FAULT.of e) = w32 (2 ^ 31 +
        (if ecc.isSome ∨ s.dev.badWord (bundleAddr e (ctxOf s e).pc) then 9 else 1) * 2 ^ 24 + (ctxOf s e).run.item) ∧
      t.dev.rd (R.ENG_FAULT_PC.of e) = w32 (ctxOf s e).pc)) ∧
  (∀ s (e : Fin 16), Awake s → s.dev.issues e = true → (s.dev.eng e).next.isSome = true → (ctxOf s e).prot = false →
    Completes (.preemptAct e) s (fun t => (t.dev.eng e).wait = .saving)) ∧
  (∀ s (e : Fin 16) cyc r, Awake s → (s.dev.eng e).next = some r → (s.dev.eng e).wait = .saving → (ctxOf s e).moving = false →
    (s.dev.eng e).fault = none →
    Completes (.contextSaved e cyc) s (fun t =>
      (t.dev.eng e).saved = ctxOf s e :: (s.dev.eng e).saved ∧ ctxOf t e = Ctx.start r ∧ (t.dev.eng e).wait = .go)) ∧
  (∀ s (e : Fin 16), Awake s → (s.dev.eng e).wait = .restoring → Completes (.contextRestored e) s (fun t =>
    (t.dev.eng e).wait = .go))

/-- Item `j` of the instance of block `b` stands in state `st`. -/
abbrev Sys2Proof.itemIs (d : Dev) (b j : Nat) (st : IState) : Prop := (d.sb.inst b).map (fun i => (i.run j).st) = some st

/-- The graph image that the loader takes, and which of its words it gets (06_signal_box.md R181; 12_twin.md R346; 13_memory.md R368, R383). -/
def Sys2Proof.gldSize (s : State) : Nat :=
  gldBytes (s.dev.loadSrc .graph s.dev.sb.ldAddr 8 (s.dev.seen s.mem)) s.dev.sb.ldAddr
def Sys2Proof.gldImage (s : State) (ecc : List EccHit) : Sum (Nat × Nat) Graph :=
  loadGraph (s.dev.loadSrc .graph s.dev.sb.ldAddr (gldSize s) (s.dev.seen s.mem))
    (fun x => s.dev.loadGets .graph s.dev.sb.ldAddr (gldSize s) x (s.dev.canFetch x && !s.dev.loses ecc x))
    s.dev.sb.ldAddr s.dev.cap.engines (fun q => (Tbl.get? s.dev.vf.gslot q).isSome)

/-- The graph loader can finish its load: its data is there, no target it fetches from serves another master alone, and no command waits for it. -/
abbrev Sys2Proof.GldReady (s : State) : Prop :=
  Awake s ∧ s.dev.gldWaits = false ∧ s.dev.sb.ld = some false ∧ s.dev.tw.loadq.all (fun c => c.loader != .graph) = true ∧
  (s.dev.bulkHas .graph (gldSize s) = true ∨ s.dev.reach 7 s.dev.sb.ldAddr (gldSize s) = true)

/-- The running stage item `j` that a STAGE_DONE in core cycle `cyc` is about stands in `i` (06_signal_box.md R177). -/
abbrev Sys2Proof.stageOf (s : State) (j cyc : Nat) : Option Inst :=
  (sbBefore cyc s.dev).sb.insts.reverse.find? (fun i => (((sbBefore cyc s.dev).sb.instGraph i).item j).isStage && (i.run j).st == .running)

/-- The signal box (06_signal_box.md R181 to R205). A dispatch, after the second steps of its core cycle and the earlier ones, gives the first
ready item to its engine, idle or to be preempted; a stage that has handed over its block is done; timetable entries expire, a release entry in the
second step of its core cycle; a successor's counter falls there too, and one that reaches 0 is ready, started or delayed; an audit clears or
reports; graphs load and swaps wait; the trace ring is cleared and captured. -/
def Obligations.SboxComplete : Prop :=
  (∀ s cyc b j rest i e pre, Awake s → (sbUpTo cyc s.dev).sb.scan = (b, j) :: rest → (sbUpTo cyc s.dev).sb.inst b = some i → (i.run j).st = .ready →
    (sbUpTo cyc s.dev).pickEngine (((sbUpTo cyc s.dev).sb.instGraph i).item j) = some (e, pre) →
    Completes (.dispatch cyc) s (fun t =>
      (pre = true → (t.dev.eng e).next = some ((((sbUpTo cyc s.dev).sb.instGraph i).item j).toRun i.blk j) ∧
        (t.dev.eng e).ctx = ((sbUpTo cyc s.dev).eng e).ctx) ∧
      (pre = false → (t.dev.eng e).run = true ∧ (t.dev.eng e).wait = .starting ∧
        ctxOf t e = Ctx.start ((((sbUpTo cyc s.dev).sb.instGraph i).item j).toRun i.blk j)) ∧ itemIs t.dev b j .running ∧
      t.dev.rd R.SB_DISP_CNT = oneUp ((sbUpTo cyc s.dev).rd R.SB_DISP_CNT))) ∧
  (∀ s j cyc i, Awake s → stageOf s j cyc = some i →
    (((sbBefore cyc s.dev).sb.instGraph i).item j).kind = 1 → (sbBefore cyc s.dev).crm.rend = none → i.blk < (sbBefore cyc s.dev).crm.begun →
    Completes (.stageDone j cyc) s (fun t => itemIs t.dev i.blk j .done)) ∧
  (∀ s j cyc i c, Awake s → stageOf s j cyc = some i →
    (((sbBefore cyc s.dev).sb.instGraph i).item j).kind = 2 → (sbBefore cyc s.dev).cce.blk = some c →
    i.blk < c ∨ (i.blk = c ∧ (sbBefore cyc s.dev).crm.nout ≤ (sbBefore cyc s.dev).cce.done.length) →
    Completes (.stageDone j cyc) s (fun t => itemIs t.dev i.blk j .done)) ∧
  (∀ s j cyc i, Awake s → (sbBefore cyc s.dev).sb.insts.reverse.find?
      (fun i => (i.run j).rel && !(sbBefore cyc s.dev).sb.rels.any (fun e => e.2 == (i.blk, j))) = some i →
    Completes (.releaseExpire j cyc) s (fun t => t.dev.sb.rels = (sbBefore cyc s.dev).sb.rels ++ [(cyc, i.blk, j)])) ∧
  (∀ s cyc c b j i, Awake s → s.dev.sb.decs = [] → s.dev.sb.rels = [(c, b, j)] → c ≤ cyc → s.dev.sb.insts.all (fun i => !i.audit) = true →
    s.dev.sb.inst b = some i → j < i.runs.length → j < 4096 → (i.run j).st = .delayed → (i.run j).cnt = 0 →
    Completes (.daudit cyc) s (fun t =>
      itemIs t.dev b j (if ((s.dev.sb.instGraph i).item j).isStage then .running else .ready) ∧
      (t.dev.sb.inst b).map (fun k => (k.run j).rel) = some false ∧ t.dev.sb.rels = [])) ∧
  (∀ s cyc c b j i, Awake s → s.dev.sb.rels = [] → s.dev.sb.decs = [⟨c, b, [j]⟩] → c ≤ cyc → s.dev.sb.insts.all (fun i => !i.audit) = true →
    s.dev.sb.inst b = some i → j < i.runs.length → j < 4096 → (i.run j).st = .waiting → (i.run j).cnt ≠ 0 →
    Completes (.daudit cyc) s (fun t =>
      (t.dev.sb.inst b).map (fun k => (k.run j).cnt) = some ((i.run j).cnt - 1) ∧
      itemIs t.dev b j (if (i.run j).cnt ≠ 1 then .waiting else if (i.run j).rel then .delayed
        else if ((s.dev.sb.instGraph i).item j).isStage then .running else .ready))) ∧
  (∀ s j cyc i, Awake s → (sbUpTo cyc s.dev).sb.insts.reverse.find? (fun i => (i.run j).dl) = some i → (i.run j).st ≠ .done →
    (i.run j).st ≠ .aborted → j < i.runs.length →
    Completes (.deadlineExpire j cyc) s (fun t =>
      (t.dev.sb.inst i.blk).map (fun k => ((k.run j).dl, (k.run j).dlmiss)) = some (false, true) ∧
      evtBit t.dev Ev.SB_DEADLINE = true)) ∧
  (∀ s cyc i, Awake s → (sbUpTo cyc s.dev).sb.insts.reverse.find? (fun i => i.audit) = some i →
    (∀ j, j < i.runs.length → (i.run j).cnt = 0 ∧ (i.run j).bad = false) →
    Completes (.daudit cyc) s (fun t => t.dev.f F.SB_DAUD_STATUS_LAST_OK = 1)) ∧
  (∀ s cyc i j, Awake s → (sbUpTo cyc s.dev).sb.insts.reverse.find? (fun i => i.audit) = some i → j < i.runs.length → (i.run j).cnt ≠ 0 →
    Completes (.daudit cyc) s (fun t => t.dev.f F.SB_DAUD_STATUS_LAST_OK = 0 ∧ evtBit t.dev Ev.SB_DAUDIT = true)) ∧
  (∀ s m v, Serves s m → s.dev.twCopy = false → bit v 0 = true → s.dev.sb.ld = none →
    Completes (.gldGo m v) s (fun t =>
      t.dev.sb.ld = some s.dev.sb.oldBusy ∧ t.dev.sb.ldAddr = s.dev.rd64 R.SB_GLD_ADDR_LO R.SB_GLD_ADDR_HI)) ∧
  (∀ s, Awake s → s.dev.sb.ld = some true → s.dev.sb.oldBusy = false →
    Completes .gldStartAfterOld s (fun t => t.dev.sb.ld = some false)) ∧
  (∀ s ecc g, GldReady s → gldImage s ecc = .inr g →
    Completes (.gldDone ecc) s (fun t =>
      t.dev.sb.ld = none ∧ t.dev.sb.nextOk = true ∧ t.dev.sb.graph (!s.dev.sb.cur) = g ∧
      t.dev.sb.curGraph = s.dev.sb.curGraph ∧ evtBit t.dev Ev.SB_GLD_DONE = true)) ∧
  (∀ s ecc c, GldReady s → gldImage s ecc = .inl c →
    Completes (.gldDone ecc) s (fun t =>
      t.dev.sb.ld = none ∧ t.dev.sb.nextOk = false ∧ t.dev.sb.curGraph = s.dev.sb.curGraph ∧
      t.dev.f F.SB_GLD_CTRL_CAUSE = c.1 % 16 ∧ evtBit t.dev Ev.SB_GLD_ERR = true)) ∧
  (∀ s m v, Serves s m → s.dev.twCopy = false → bit v 0 = true → s.dev.sb.nextOk = true ∨ s.dev.sb.ld.isSome = true →
    Completes (.sbGswap m v) s (fun t =>
      let k := s.dev.rd64 R.SB_GSWAP_AT_LO R.SB_GSWAP_AT_HI
      t.dev.sb.swap = some ⟨bit v 31, if bit v 31 then max k s.dev.effBlk else s.dev.effBlk⟩ ∧
      (bit v 31 = true → k < s.dev.effBlk → s.dev.within k = false → evtBit t.dev Ev.SB_GSWAP_LATE = true))) ∧
  (∀ s m v, Serves s m → s.dev.twCopy = false → bit v 0 = true → s.dev.sb.nextOk = false → s.dev.sb.ld = none →
    Completes (.sbGswap m v) s (fun t => t.dev.sb = s.dev.sb ∧ evtBit t.dev Ev.SB_GSWAP_INV = true)) ∧
  (∀ s m v, Serves s m → s.dev.twCopy = false → bit v 2 = true →
    Completes (.traceClr m v) s (fun t =>
      t.dev.sb.trace = [] ∧ t.dev.sb.wptr = 0 ∧ t.dev.sb.nrec = 0 ∧ t.dev.rd R.SB_TRC_LOST = 0#32)) ∧
  (∀ s m, Serves s m → Completes (.traceCaptureRead m) s (fun t =>
    let r := Tbl.getD t.dev.sb.trace (Reg.idx t.dev R.SB_TRC_SEL m % 8192) .zero
    (s.dev.sb.decs = [] → s.dev.sb.rels = [] → t.dev.sb = s.dev.sb) ∧
    t.dev.resp = ⟨[r.w0], false⟩ ∧ t.dev.hold (R.SB_TRC_W.at 1) m = r.w1 ∧ t.dev.hold (R.SB_TRC_W.at 2) m = r.w2 ∧
    t.dev.hold (R.SB_TRC_W.at 3) m = r.w3)) ∧
  (∀ s m v r, Serves s m → bit v 0 = true → r ∈ sbCounters → Completes (.sbCntClr m v) s (fun t => t.dev.rd r = 0#32))

/-- A write of PT_CFG stores its fields: GROUP, MASTER, CLK and DOUBLE while the port is OFF alone (07_tdm_ports.md R232). -/
def Sys2Proof.ptCfgStored (d : Dev) (k : Nat) (v : Word) : Dev :=
  d.wr (R.PT_CFG.of k) (merge (d.rd (R.PT_CFG.of k)) (if (d.port k).st = .off then 0x7C0F0000#32 else 0x60000000#32) v)

/-- The samples that a frame's bits carry in the slots of port `k` (07_tdm_ports.md R206, R207). -/
def Sys2Proof.slotsIn (d : Dev) (k : Nat) (din : List Bool) : List Word :=
  (List.range (d.slots k)).map (fun s => slotIn (d.pf F.PT_FMT_OFS k) (d.width k) s din)

/-- The block that a TDM_GCTRL write names (07_tdm_ports.md R215). -/
def Sys2Proof.groupBlk (d : Dev) (v : Word) : Nat :=
  if bit v 31 then max (d.rd64 R.TDM_GAT_LO R.TDM_GAT_HI) d.effBlk else d.effBlk

/-- TDM ports (07_tdm_ports.md R206 to R220, R232, R233): an EN write queues a start or a stop, or is refused; frames are counted and carried; lock and
start; zero crossing and its time-out; stop, loss, rate and rejoin; the requests of an alignment group, whose members start at one block. -/
def Obligations.TdmPortsComplete : Prop :=
  (∀ s m v, Serves s m → s.dev.portSel m < s.dev.nPorts → s.dev.pb F.PT_CFG_EN (s.dev.portSel m) = false → bit v 31 = true →
    (ptCfgStored s.dev (s.dev.portSel m) v).portOk (s.dev.portSel m) = true →
    Completes (.portEnable m v) s (fun t =>
      let k := s.dev.portSel m
      t.dev.pb F.PT_CFG_EN k = true ∧ (t.dev.port k).reqs = (s.dev.port k).reqs ++ [⟨s.dev.effBlk, true, false, false⟩])) ∧
  (∀ s m v, Serves s m → s.dev.portSel m < s.dev.nPorts → s.dev.pb F.PT_CFG_EN (s.dev.portSel m) = false → bit v 31 = true →
    (ptCfgStored s.dev (s.dev.portSel m) v).portOk (s.dev.portSel m) = false →
    Completes (.portEnable m v) s (fun t =>
      let k := s.dev.portSel m
      t.dev.pb F.PT_CFG_EN k = false ∧ t.dev.port k = s.dev.port k ∧ t.dev.pf F.PT_EVT_CFG k = 1)) ∧
  (∀ s m v, Serves s m → s.dev.portSel m < s.dev.nPorts → s.dev.pb F.PT_CFG_EN (s.dev.portSel m) = true → bit v 31 = false →
    Completes (.portDisable m v) s (fun t =>
      let k := s.dev.portSel m
      t.dev.pb F.PT_CFG_EN k = false ∧ (t.dev.port k).reqs = (s.dev.port k).reqs ++ [⟨s.dev.effBlk, false, false, false⟩])) ∧
  (∀ s m v, Serves s m → s.dev.portSel m < s.dev.nPorts → s.dev.pb F.PT_CFG_EN (s.dev.portSel m) = false → bit v 31 = false →
    (s.dev.port (s.dev.portSel m)).st = .rateStop →
    Completes (.portDisable m v) s (fun t =>
      (t.dev.port (s.dev.portSel m)).reqs = (s.dev.port (s.dev.portSel m)).reqs ++ [⟨s.dev.effBlk, false, false, false⟩])) ∧
  (∀ s (p : Fin 16) fr, Awake s → (s.dev.port p).st ≠ .off → (s.dev.port p).st ≠ .rateStop →
    Completes (.tdmFrame p fr) s (fun t =>
      let e := s.dev.frameIdx p fr.rx
      let pers := (fr.period :: (s.dev.port p).pers).take 4
      (t.dev.port p).lastRx = e ∧ (t.dev.port p).lastTx = (if 70 ≤ e then e - 70 else (s.dev.port p).lastTx) ∧
      (t.dev.port p).rxLast = slotsIn s.dev p fr.din ∧
      (t.dev.port p).rxPrev = (s.dev.port p).rxLast ∧
      t.dev.rd (R.PT_PERIOD.of p) = w32 (pers.foldl (· + ·) 0 / pers.length % 2 ^ 24) ∧
      t.dev.rd (R.PT_PHASE.of p) = w32 (fr.phase % 2 ^ 16) ∧
      (fr.glitch = true → (s.dev.port p).locked = true → s.dev.master p = false → (s.dev.port p).st ≠ .fly →
        (t.dev.port p).locked = false ∧ t.dev.pf F.PT_EVT_GLITCH p = 1))) ∧
  (∀ s (p : Fin 16), Awake s → (s.dev.port p).st = .start → s.dev.master p = false → (s.dev.port p).locked = false →
    Completes (.portLock p) s (fun t => (t.dev.port p).locked = true ∧ (t.dev.port p).cnt = 0 ∧ (t.dev.port p).st = .start)) ∧
  (∀ s (p : Fin 16), Awake s → 8 ≤ s.dev.pf F.PT_CFG_GROUP p → s.dev.startDone p = true →
    Completes (.started p) s (fun t =>
      (t.dev.port p).st = .run ∧ (t.dev.port p).rxFrom = 32 * (s.dev.port p).nextBlk ∧ t.dev.pf F.PT_EVT_STARTED p = 1)) ∧
  (∀ s (p : Fin 16) (j : Fin 16), Awake s → s.dev.pf F.PT_CFG_GROUP p < 8 → s.dev.startDone p = true →
    (∀ k ∈ s.dev.members (s.dev.pf F.PT_CFG_GROUP p), (s.dev.port k).st = .start → s.dev.startDone k = true) →
    j.val ∈ s.dev.members (s.dev.pf F.PT_CFG_GROUP p) → (s.dev.port j).st = .start →
    Completes (.started p) s (fun t =>
      let ks := (s.dev.members (s.dev.pf F.PT_CFG_GROUP p)).filter (fun k => decide ((s.dev.port k).st = .start))
      (t.dev.port j).st = .run ∧ (t.dev.port j).rxFrom = 32 * ks.foldl (fun n k => max n (s.dev.port k).nextBlk) 0 ∧
      t.dev.pf F.PT_EVT_STARTED j = 1)) ∧
  (∀ s (p : Fin 16) tx slot, Awake s → (s.dev.crossing p tx).isSome = true → slot < s.dev.slots p →
    (s.dev.port p).pendingSlot tx slot = true →
    (if tx then crosses (s.dev.port p).txPrev (s.dev.port p).txLast slot else crosses (s.dev.port p).rxPrev (s.dev.port p).rxLast slot) = true →
    Completes (.slotZcSwitch p tx slot) s (fun t =>
      let q := (s.dev.port p).switch tx slot
      (t.dev.port p).rxOn = q.rxOn ∧ (t.dev.port p).txOn = q.txOn ∧ (t.dev.port p).rxBuf = q.rxBuf ∧
      (t.dev.port p).pendingSlot tx slot = false)) ∧
  (∀ s (p : Fin 16) tx slot n, Awake s → s.dev.crossing p tx = some n → max 1 (s.dev.pf F.PT_SIL_ZCTO p) ≤ n →
    slot < s.dev.slots p → (s.dev.port p).pendingSlot tx slot = true →
    Completes (.zcTo p) s (fun t => t.dev.pf F.PT_EVT_ZC_TO p = 1 ∧ (t.dev.port p).pendingSlot tx slot = false ∧
      (t.dev.port p).st = (s.dev.port p).st)) ∧
  (∀ s (p : Fin 16), Awake s → (s.dev.port p).st = .stopping → s.dev.quiet p (s.dev.port p).lastTx = true →
    s.dev.pf F.PT_SIL_PRE p ≤ (s.dev.port p).cnt →
    Completes (.stopped p) s (fun t => (t.dev.port p).st = .off ∧ t.dev.pf F.PT_EVT_STOPPED p = 1)) ∧
  (∀ s (p : Fin 18), Awake s → (s.dev.port p).locked = true → s.dev.master p = false → (s.dev.port p).st ≠ .off →
    (s.dev.port p).st ≠ .rateStop → (s.dev.port p).st ≠ .fly →
    Completes (.loss p) s (fun t =>
      (t.dev.port p).locked = false ∧
      (t.dev.port p).st = (if (s.dev.port p).st = .run then (if 16 ≤ p.val ∧ s.dev.rxSrc p = true then .start else .fly) else (s.dev.port p).st) ∧
      (p.val < 16 → t.dev.pf F.PT_EVT_LOSS p = 1 ∧ t.dev.rd (R.PT_PERIOD.of p) = 0#32) ∧
      (16 ≤ p.val → t.dev.f (F.AR_EVT_LOSS.at (p.val - 16)) = 1 ∧ t.dev.f (F.AR_STATUS_GRADE.at (p.val - 16)) = 0))) ∧
  (∀ s (p : Fin 16) fr, Awake s → (s.dev.port p).st = .rateStop → s.dev.master p = false → Completes (.tdmFrame p fr) s (fun t =>
    let pers := (fr.period :: (s.dev.port p).pers).take 4
    (t.dev.port p).st = .rateStop ∧ t.dev.rd (R.PT_PERIOD.of p) = w32 (pers.foldl (· + ·) 0 / pers.length % 2 ^ 24))) ∧
  (∀ s (p : Fin 18), Awake s → (s.dev.port p).st ≠ .off → (s.dev.port p).st ≠ .rateStop →
    Completes (.rate p) s (fun t =>
      (t.dev.port p).st = (if s.dev.rxSrc p || s.dev.txSrc p then (s.dev.port p).st else .rateStop) ∧
      (p.val < 16 → s.dev.master p = true → s.dev.rxSrc p = false → s.dev.txSrc p = false →
        (t.dev.port p).dout = [] ∧ t.dev.rd (R.PT_PERIOD.of p) = 0#32) ∧
      (p.val < 16 → t.dev.pf F.PT_EVT_RATE p = 1) ∧ (16 ≤ p.val → t.dev.f (F.AR_EVT_RATE.at (p.val - 16)) = 1))) ∧
  (∀ s (p : Fin 18), Awake s → (s.dev.port p).st = .fly → (s.dev.port p).back = none → Completes (.rejoin p false) s (fun t =>
    (t.dev.port p).st = .run ∧ (t.dev.port p).locked = true ∧ (t.dev.port p).rxRamp = some (s.dev.port p).nextBlk ∧
    (p.val < 16 → t.dev.pf F.PT_EVT_REJOIN p = 1) ∧ (16 ≤ p.val → t.dev.f (F.AR_EVT_LOCK.at (p.val - 16)) = 1))) ∧
  (∀ s (p : Fin 18), Awake s → (s.dev.port p).st = .fly → (s.dev.port p).back = none → Completes (.rejoin p true) s (fun t =>
    (t.dev.port p).back = some ((s.dev.port p).nextBlk, 32 * (s.dev.port p).nextBlk - ((s.dev.port p).lastRx - 7)) ∧
    (t.dev.port p).st = .fly)) ∧
  (∀ s m v k, Serves s m → bit v 8 = true → bit v 9 = false → k ∈ s.dev.members (bits v 0 3) →
    Completes (.tdmGroupStart m v) s (fun t =>
      (t.dev.port k).reqs = (s.dev.port k).reqs ++ [⟨groupBlk s.dev v, true, true, bit v 31⟩])) ∧
  (∀ s m v k, Serves s m → bit v 8 = false → bit v 9 = true → k ∈ s.dev.members (bits v 0 3) →
    Completes (.tdmGroupStop m v) s (fun t =>
      (t.dev.port k).reqs = (s.dev.port k).reqs ++ [⟨groupBlk s.dev v, false, true, bit v 31⟩])) ∧
  (∀ s (p : Fin 16), Awake s → (s.dev.port p).st = .start → (s.dev.port p).locked = false → s.dev.pf F.PT_CFG_GROUP p < 8 →
    (s.dev.port p).since + 256 ≤ s.dev.nextDep →
    Completes (.groupMemberLeft p) s (fun t => (t.dev.port p).st = .fly ∧ (t.dev.port p).left = true))

/-- AES3 interfaces and sample-rate conversion (07_tdm_ports.md R223 to R230, R232, R233): lock, frames with their errors, channel status of the
selected subframe, converters, counters. -/
def Obligations.TdmAesComplete : Prop :=
  (∀ s (r : Fin 2), Awake s → (s.dev.port (16 + r.val)).st = .start → Completes (.aesRxLock r) s (fun t =>
    (t.dev.port (16 + r.val)).st = .run ∧ (t.dev.port (16 + r.val)).locked = true ∧ t.dev.f (F.AR_EVT_LOCK.at r) = 1)) ∧
  (∀ s (r : Fin 2) fr, Awake s → (s.dev.port (16 + r.val)).st ≠ .off → (s.dev.port (16 + r.val)).st ≠ .rateStop →
    Completes (.aes3Frame false r fr) s (fun t =>
      let last (i : Nat) : Word := ((s.dev.port (16 + r.val)).rxLast[i]?).getD 0#32
      let vm := s.dev.fb (F.AR_CFG_VMUTE.at r)
      (t.dev.port (16 + r.val)).lastRx = s.dev.frameIdx (16 + r.val) fr.idx ∧
      (t.dev.port (16 + r.val)).rxLast = [aesSample vm (last 0) fr.a fr.va fr.ea, aesSample vm (last 1) fr.b fr.vb fr.eb] ∧
      t.dev.rd (R.AR_RATE.at r) = w32 (fr.rate % 2 ^ 22) ∧
      (fr.ea = true ∨ fr.eb = true → t.dev.f (F.AR_EVT_BIPH.at r) = 1))) ∧
  (∀ s (r : Fin 2) fr, Awake s → (s.dev.port (18 + r.val)).st ≠ .off → Completes (.aes3Frame true r fr) s (fun t =>
    let e := s.dev.frameIdx (18 + r.val) fr.idx
    (t.dev.port (18 + r.val)).lastRx = e ∧ (t.dev.port (18 + r.val)).lastTx = (if 70 ≤ e then e - 70 else (s.dev.port (18 + r.val)).lastTx))) ∧
  (∀ s (r : Fin 2) sub bs k, Awake s → (s.dev.port (16 + r.val)).locked = true → bs.length = 24 → s.dev.fb (F.AR_CFG_CSCH.at r) = sub →
    ((bs[0]?).getD 0#8).toNat % 2 = 1 → (bs[23]?).getD 0#8 = crcc bs → k < 6 →
    Completes (.channelStatusBlock r sub bs) s (fun t =>
      t.dev.rd (R.AR_CS.at2 r k) = csWord bs k ∧ t.dev.f (F.AR_STATUS_CSVALID.at r) = 1 ∧ t.dev.f (F.AR_STATUS_PRO.at r) = 1)) ∧
  (∀ s (r : Fin 2) sub bs k, Awake s → (s.dev.port (16 + r.val)).locked = true → bs.length = 24 → s.dev.fb (F.AR_CFG_CSCH.at r) = sub →
    ((bs[0]?).getD 0#8).toNat % 2 = 1 → (bs[23]?).getD 0#8 ≠ crcc bs → k < 6 →
    Completes (.channelStatusBlock r sub bs) s (fun t =>
      t.dev.rd (R.AR_CS.at2 r k) = s.dev.rd (R.AR_CS.at2 r k) ∧ t.dev.f (F.AR_EVT_CRC_ERR.at r) = 1)) ∧
  (∀ s (r : Fin 2) sub bs k, Awake s → (s.dev.port (16 + r.val)).locked = true → bs.length = 24 → s.dev.fb (F.AR_CFG_CSCH.at r) = sub →
    ((bs[0]?).getD 0#8).toNat % 2 = 0 → k < 6 →
    Completes (.channelStatusBlock r sub bs) s (fun t =>
      t.dev.rd (R.AR_CS.at2 r k) =
        (if (s.dev.tdm.chStat (16 + r.val)).cand = bs then csWord bs k else s.dev.rd (R.AR_CS.at2 r k)) ∧
      (t.dev.tdm.chStat (16 + r.val)).cand = bs)) ∧
  (∀ s m (r : Fin 2) k, Serves s m → k < 6 → Completes (.arCsCaptureRead m r) s (fun t =>
    t.dev.resp = ⟨[s.dev.rd (R.AR_CS.at2 r 0)], false⟩ ∧ t.dev.hold (R.AR_CS.at2 r k) m = s.dev.rd (R.AR_CS.at2 r k))) ∧
  (∀ s m (r : Fin 2) (k : Fin 5) v, Serves s m → Completes (.atCsStage m r k v) s (fun t => t.dev.rd (R.AT_CS.at2 r k) = v)) ∧
  (∀ s m (r : Fin 2) v, Serves s m → Completes (.atCs5Commit m r v) s (fun t =>
    t.dev.f (F.AT_STATUS_CSPEND.at r) = 1 ∧ t.dev.rd (R.AT_CS.at2 r 5) = v ∧ (t.dev.tdm.chStat (18 + r.val)).next.isSome = true)) ∧
  (∀ s (r : Fin 2), Awake s → (s.dev.port (18 + r.val)).st ≠ .off → Completes (.csBlockBegin r) s (fun t =>
    let c := s.dev.tdm.chStat (18 + r.val)
    let bs := c.next.getD c.live
    t.dev.f (F.AT_STATUS_CSPEND.at r) = 0 ∧ (t.dev.tdm.chStat (18 + r.val)).next = none ∧
    (t.dev.tdm.chStat (18 + r.val)).sent = (if s.dev.fb (F.AT_CFG_CRCC.at r) then bs.take 23 ++ [crcc bs] else bs))) ∧
  (∀ s (a : Fin 16) ratio, Awake s → s.dev.fb (F.SRC_CFG_VALID.at a) = true → s.dev.f (F.SRC_STAT_STATE.at a) = 1 →
    Completes (.srcLocked a ratio) s (fun t =>
      t.dev.f (F.SRC_STAT_STATE.at a) = 2 ∧ t.dev.rd (R.SRC_RATIO.at a) = ratio ∧ (t.dev.tdm.att a).ramp = some s.dev.nextDep ∧
      evtBit t.dev Ev.TIO_SRC = true)) ∧
  (∀ s (a : Fin 16) ratio, Awake s → s.dev.fb (F.SRC_CFG_VALID.at a) = true → s.dev.f (F.SRC_STAT_STATE.at a) = 2 →
    Completes (.srcLocked a ratio) s (fun t =>
      if 100 * ((ratio.toNat : Int) - (s.dev.tdm.att a).ratio).natAbs ≤ (s.dev.tdm.att a).ratio then
        t.dev.f (F.SRC_STAT_STATE.at a) = 2 ∧ t.dev.rd (R.SRC_RATIO.at a) = ratio ∧ (t.dev.tdm.att a).ratio = ratio.toNat
      else t.dev.f (F.SRC_STAT_STATE.at a) = 1 ∧ t.dev.rd (R.SRC_RATIO.at a) = 0#32)) ∧
  (∀ s (a : Fin 16), Awake s → s.dev.f (F.SRC_STAT_STATE.at a) = 2 → Completes (.srcRelock a) s (fun t =>
    t.dev.f (F.SRC_STAT_STATE.at a) = 1 ∧ t.dev.rd (R.SRC_RATIO.at a) = 0#32 ∧ (t.dev.tdm.att a).fade = some s.dev.nextDep ∧
    evtBit t.dev Ev.TIO_SRC = true)) ∧
  (∀ s m v r o, Serves s m → bit v 0 = true → r ∈ tioCounters → o < 65536 →
    Completes (.tioCntClr m v) s (fun t => t.dev.rd (r.of o) = 0#32))

/-- Counter `k` of network port `p` (08_network.md R255). -/
def Sys2Proof.netCnt (d : Dev) (p k : Nat) : Nat := Tbl.getD d.net.cnt (64 * p + k) 0

/-- A frame comes in on port `p` and no rule of reception discards it (08_network.md R235, R255). -/
abbrev Sys2Proof.Arrives (s : State) (p : Nat) (fr : RxFrame) : Prop :=
  Awake s ∧ s.dev.npOn p = true ∧ s.dev.rxFault p fr = none

/-- It is an ordinary frame: no metadata packet, for no receive stream, and no longer than a buffer (08_network.md R237, R245, R257). -/
abbrev Sys2Proof.Ordinary (s : State) (p : Nat) (fr : RxFrame) : Prop :=
  s.dev.mdMatch (rxBody p fr.bytes) = false ∧ s.dev.strmsOf p (rxBody p fr.bytes) = [] ∧ (rxBody p fr.bytes).length ≤ s.dev.bufBytes

/-- The network DMA fetches the frame that port `p` sends, where it lies in a buffer: no word of its descriptor or of its bytes is uncorrectable, and it
lies in the control SRAM or in DRAM (08_network.md R237; 13_memory.md R368, R387). -/
abbrev Sys2Proof.Fetched (s : State) (e : TxEnt) (r : TxResult) : Prop :=
  ∀ k ∈ e.idx, ∀ a n, descBuf s.mem (s.dev.descAt k) = (a, n) → AllGood s r.ecc (s.dev.descAt k) 16 ∧ AllGood s r.ecc a n ∧
    s.dev.canFetch a = true ∧ inAudio a = false ∧ s.dev.canFetch (a + n - 1) = true ∧ inAudio (a + n - 1) = false

/-- Frames through the network ports (08_network.md R235 to R240, R248, R249, R250, R253, R254, R256). The pool is created whole; an allocation and a
release move one descriptor, a release of one that software does not own is counted; a posted frame waits on its port, or on both ports of a PRP
pair with one sequence number; a frame leaves its port sent, with its stamps and trailer filled in, or not sent; a good frame enters the head free
descriptor without its trailer, a discarded one is counted (here: with no receive ring of a host set up); indexes and stamps are popped; the
highest class that may send is selected; a collision backs off, and a late one, or the sixteenth, drops the frame. -/
def Obligations.NetFramesComplete : Prop :=
  (∀ s m v, Serves s m → (∀ p : Fin 3, s.dev.npOn p = false) → Completes (.nbPoolCreate m v) s (fun t =>
    t.dev.net.free = List.range (min (bits v 0 13) 4096) ∧ t.dev.net.own = [] ∧
    ∀ p : Fin 3, (t.dev.np p).done = [] ∧ (t.dev.np p).rdy = [])) ∧
  (∀ s m k rest, Serves s m → m.isStation = true → s.dev.net.free = k :: rest → Completes (.nbAlloc m) s (fun t =>
    t.dev.resp = ⟨[w32 (2 ^ 31 + k)], false⟩ ∧ t.dev.net.free = rest ∧ t.dev.net.owner k = 2)) ∧
  (∀ s m, Serves s m → m.isStation = true → s.dev.net.free = [] → Completes (.nbAlloc m) s (fun t =>
    t.dev.resp = ⟨[0#32], false⟩ ∧ t.dev.net = s.dev.net)) ∧
  (∀ s m v, Serves s m → m.isStation = true → s.dev.net.owner (bits v 0 12) = 2 → Completes (.nbRelease m v) s (fun t =>
    t.dev.net.free = s.dev.net.free ++ [bits v 0 12] ∧ t.dev.net.owner (bits v 0 12) = 0)) ∧
  (∀ s m v, Serves s m → m.isStation = true → s.dev.net.owner (bits v 0 12) ≠ 2 → Completes (.nbRelease m v) s (fun t =>
    t.dev.net = s.dev.net ∧ t.dev.f F.NB_AUD_STATUS_BADOP = satInc F.NB_AUD_STATUS_BADOP.len (s.dev.f F.NB_AUD_STATUS_BADOP))) ∧
  (∀ s m (p : Fin 3) v, Serves s m → m.isStation = true → s.dev.npHas p = true → s.dev.net.owner (bits v 0 12) = 2 →
    bits (Memory.rd32 s.mem (s.dev.descAt (bits v 0 12) + 4)) 27 2 ≠ 3 ∨ s.dev.prpPair = false →
    Completes (.npTxpost m p v) s (fun t =>
      let w1 := Memory.rd32 s.mem (s.dev.descAt (bits v 0 12) + 4)
      t.mem = s.mem ∧ t.dev.net.owner (bits v 0 12) = 1 ∧
      (t.dev.np p).txq = (s.dev.np p).txq ++ [⟨some (bits v 0 12), [], p, bits w1 24 3, none, false⟩])) ∧
  (∀ s m (p : Fin 3) v, Serves s m → m.isStation = true → s.dev.npHas p = true → s.dev.net.owner (bits v 0 12) = 2 →
    bits (Memory.rd32 s.mem (s.dev.descAt (bits v 0 12) + 4)) 27 2 = 3 → s.dev.prpPair = true →
    Completes (.npTxpost m p v) s (fun t =>
      let w1 := Memory.rd32 s.mem (s.dev.descAt (bits v 0 12) + 4)
      let seq := if ptpEvent (s.dev.frameOf s.mem (bits v 0 12)) then none else some s.dev.net.prpSeq
      t.dev.net.owner (bits v 0 12) = 1 ∧ t.dev.net.prpSeq = (if seq.isSome then (s.dev.net.prpSeq + 1) % 65536 else s.dev.net.prpSeq) ∧
      ∀ q : Fin 2, (t.dev.np q).txq = (s.dev.np q).txq ++ [⟨some (bits v 0 12), [], p, bits w1 24 3, seq, false⟩])) ∧
  (∀ s (p : Fin 3) r e, Awake s → (s.dev.np p).current p = some e → s.dev.npOn p = true → r.ok = true → s.dev.fb (F.NP_STATUS_LINK.at p) = true →
    Fetched s e r → 60 ≤ (s.dev.rawOf s.mem e).length → (s.dev.wire p e r (s.dev.rawOf s.mem e)).length + 4 ≤ s.dev.maxFrame p →
    Completes (.txDone p r) s (fun t =>
      (t.dev.np p).last = s.dev.wire p e r (s.dev.rawOf s.mem e) ∧
      (p.val < 2 → (t.dev.np p).sending = none) ∧ (p.val = 2 → (t.dev.np p).txq = (s.dev.np p).txq.tail))) ∧
  (∀ s (p : Fin 3) r e, Awake s → (s.dev.np p).current p = some e → s.dev.npOn p = true →
    r.ok = false ∨ s.dev.fb (F.NP_STATUS_LINK.at p) = false ∨ (s.dev.rawOf s.mem e).length < 60 ∨ ¬ Fetched s e r →
    Completes (.txDone p r) s (fun t =>
      (t.dev.np p).last = (s.dev.np p).last ∧ netCnt t.dev p 46 = (netCnt s.dev p 46 + 1) % 2 ^ 32 ∧
      (p.val < 2 → (t.dev.np p).sending = none) ∧ (p.val = 2 → (t.dev.np p).txq = (s.dev.np p).txq.tail))) ∧
  (∀ s (p : Fin 3) (fr : RxFrame) k rest, Arrives s p fr → Ordinary s p fr →
    (rctOf p fr.bytes).all (fun r => !s.dev.net.prp.contains (srcMac (rxBody p fr.bytes), r.1)) = true →
    s.dev.net.free = k :: rest → s.dev.hi.ring = none → AllGood s fr.ecc (s.dev.descAt k) 16 →
    AllGood s fr.ecc (descBuf s.mem (s.dev.descAt k)).1 (rxBody p fr.bytes).length →
    Completes (.frameReceive p fr) s (fun t =>
      t.dev.net.free = rest ∧ t.dev.net.owner k = 2 ∧ (t.dev.np p).rdy = (s.dev.np p).rdy ++ [k] ∧
      (∀ r ∈ rctOf p fr.bytes, t.dev.net.prp = ((srcMac (rxBody p fr.bytes), r.1) :: s.dev.net.prp).take 1024) ∧
      ∃ w1 w2, t.mem = Memory.wr32 (Memory.wr32 (Memory.wrBytes s.mem (descBuf s.mem (s.dev.descAt k)).1 (rxBody p fr.bytes))
        (s.dev.descAt k + 4) w1) (s.dev.descAt k + 8) w2 ∧ bits w1 10 14 = (rxBody p fr.bytes).length % 2 ^ 14 ∧ bits w1 27 2 = p)) ∧
  (∀ s (p : Fin 3) (fr : RxFrame), Arrives s p fr → Ordinary s p fr → rctOf p fr.bytes = none → s.dev.net.free = [] → s.dev.hi.ring = none →
    Completes (.frameReceive p fr) s (fun t =>
      t.mem = s.mem ∧ netCnt t.dev p 21 = (netCnt s.dev p 21 + 1) % 2 ^ 32 ∧ evtBit t.dev Ev.NET_NB_EMPTY = true)) ∧
  (∀ s (p : Fin 3) (fr : RxFrame) k, Awake s → s.dev.npOn p = true → s.dev.rxFault p fr = some k → s.dev.hi.ring = none →
    Completes (.frameReceive p fr) s (fun t =>
      t.mem = s.mem ∧ t.dev.net.free = s.dev.net.free ∧ netCnt t.dev p k = (netCnt s.dev p k + 1) % 2 ^ 32)) ∧
  (∀ s m (p : Fin 3) k rest, Serves s m → m.isStation = true → s.dev.npHas p = true → (s.dev.np p).done = k :: rest →
    Completes (.npTxdonePop m p) s (fun t => t.dev.resp = ⟨[w32 (2 ^ 31 + k)], false⟩ ∧ (t.dev.np p).done = rest)) ∧
  (∀ s m (p : Fin 3) k rest, Serves s m → m.isStation = true → s.dev.npHas p = true → (s.dev.np p).rdy = k :: rest →
    Completes (.npRxrdyPop m p) s (fun t => t.dev.resp = ⟨[w32 (2 ^ 31 + k)], false⟩ ∧ (t.dev.np p).rdy = rest)) ∧
  (∀ s (p : Fin 3) guard cyc e, Awake s → p.val < 2 → s.dev.npOn p = true → (s.dev.np p).sending = none → e.tc < 8 →
    (s.dev.np p).txq.find? (fun x => x.tc == e.tc) = some e → (s.dev.gates p >>> e.tc) % 2 = 1 → (guard >>> e.tc) % 2 = 0 →
    0 ≤ Tbl.getD ((credNow p (s.dev.tick cyc)).np p).credit e.tc 0 →
    (∀ c < 8, e.tc < c → (s.dev.np p).txq.find? (fun x => x.tc == c) = none ∨ (s.dev.gates p >>> c) % 2 = 0 ∨ (guard >>> c) % 2 = 1 ∨
      Tbl.getD ((credNow p (s.dev.tick cyc)).np p).credit c 0 < 0) →
    Completes (.txSelect p guard cyc) s (fun t =>
      (t.dev.np p).sending = some e ∧
      (t.dev.np p).txq.map (fun x => { x with held := true }) = ((s.dev.np p).txq.erase e).map (fun x => { x with held := true }))) ∧
  (∀ s e, Awake s → (s.dev.np 2).current 2 = some e → s.dev.npOn 2 = true → s.dev.fb (F.NP_CFG_HDX.at 2) = true →
    (s.dev.np 2).coll < 15 →
    Completes (.collision false) s (fun t =>
      (t.dev.np 2).coll = (s.dev.np 2).coll + 1 ∧
      ∃ n, (t.dev.np 2).backoff = some n ∧ n < 2 ^ min ((s.dev.np 2).coll + 1) 10)) ∧
  (∀ s e late, Awake s → (s.dev.np 2).current 2 = some e → s.dev.npOn 2 = true → s.dev.fb (F.NP_CFG_HDX.at 2) = true →
    late = true ∨ 15 ≤ (s.dev.np 2).coll →
    Completes (.collision late) s (fun t =>
      (t.dev.np 2).txq = (s.dev.np 2).txq.tail ∧ (t.dev.np 2).coll = 0 ∧
      t.dev.f ((if late then F.NP_EVT_LATE_COLL else F.NP_EVT_EXCESS_COLL).at 2) = 1)) ∧
  (∀ s, Awake s → Completes .backoffExpire s (fun t => (t.dev.np 2).backoff = none ∧ (t.dev.np 2).txq = (s.dev.np 2).txq)) ∧
  (∀ s, Awake s → Completes .deferExpire s (fun t => (t.dev.np 2).defer = false ∧ (t.dev.np 2).txq = (s.dev.np 2).txq)) ∧
  (∀ s m (p : Fin 3) k st rest, Serves s m → m.isStation = true → s.dev.npHas p = true → (s.dev.np p).tst = (k, st) :: rest →
    Completes (.tsQueuePop m p true) s (fun t =>
      t.dev.resp = ⟨[w32 (2 ^ 31 + k)], false⟩ ∧ (t.dev.np p).tst = rest ∧
      t.dev.hold (R.NP_TSQT_W.at2 p 1) m = w32 (st.ns % 2 ^ 30) ∧ t.dev.hold (R.NP_TSQT_W.at2 p 2) m = w32 st.sec ∧
      t.dev.hold (R.NP_TSQT_W.at2 p 3) m = w32 (st.sec / 2 ^ 32 % 65536 + st.tenth % 16 * 65536))) ∧
  (∀ s m (p : Fin 3) k st rest, Serves s m → m.isStation = true → s.dev.npHas p = true → (s.dev.np p).tsr = (k, st) :: rest →
    Completes (.tsQueuePop m p false) s (fun t =>
      t.dev.resp = ⟨[w32 (2 ^ 31 + k)], false⟩ ∧ (t.dev.np p).tsr = rest ∧
      t.dev.hold (R.NP_TSQR_W.at2 p 1) m = w32 (st.ns % 2 ^ 30) ∧ t.dev.hold (R.NP_TSQR_W.at2 p 2) m = w32 st.sec ∧
      t.dev.hold (R.NP_TSQR_W.at2 p 3) m = w32 (st.sec / 2 ^ 32 % 65536 + st.tenth % 16 * 65536)))

/-- The payload of the UDP datagram in a frame. -/
def Sys2Proof.payloadOf (p : Nat) (fr : RxFrame) : List Byte := ((udpOf (rxBody p fr.bytes)).getD (0, 0, [])).2.2

/-- How far a metadata packet is ahead of its source's latest one, modulo 2^32; 1 for a new source (08_network.md R258). -/
def Sys2Proof.mdAhead (d : Dev) (pl : List Byte) : Nat :=
  match (d.net.md.find? (fun e => e.1 == be pl 8 2)).map Prod.snd with
  | some q => (be pl 4 4 + 2 ^ 32 - q) % 2 ^ 32
  | none => 1

/-- May the source of a metadata packet stand in the table of 16 (08_network.md R258)? -/
def Sys2Proof.mdRoom (d : Dev) (pl : List Byte) : Bool :=
  (d.net.md.find? (fun e => e.1 == be pl 8 2)).isSome || decide (d.net.md.length < 16)

/-- Streams, links, gate lists, metadata and counters (08_network.md R241 to R252, R255, R257, R258). A write of ST_CFG asks for a start or new
settings, is stored, is refused, or is ignored; a packet's samples go to their render index, a wrong or doubled one is counted; a transmit stream
sends its next frame; a gate list enters operation or is refused; metadata is accepted, doubled or bad. -/
def Obligations.NetStreamsComplete : Prop :=
  (∀ s m v, Serves s m → s.dev.streamSel m < 256 → bit v 31 = true → s.dev.stCfgOk v = true →
    Completes (.streamEnable m v) s (fun t =>
      let k := s.dev.streamSel m
      t.dev.sf F.ST_CFG_EN k = 1 ∧ (t.dev.strm k).reqs = (s.dev.strm k).reqs ++ [(s.dev.effBlk, some (v &&& 0x7EE000FF#32))])) ∧
  (∀ s m v, Serves s m → s.dev.streamSel m < 256 → bit v 31 = true → s.dev.stCfgOk v = false →
    Completes (.streamEnable m v) s (fun t =>
      let k := s.dev.streamSel m
      t.dev.sf F.ST_CFG_EN k = 0 ∧ t.dev.sf F.ST_FLAGS_CFG k = 1 ∧
      (t.dev.strm k).reqs = (s.dev.strm k).reqs ++ (if s.dev.sf F.ST_CFG_EN k = 0 then [] else [(s.dev.effBlk, none)]))) ∧
  (∀ s m v, Serves s m → s.dev.streamSel m < 256 → s.dev.sf F.ST_CFG_EN (s.dev.streamSel m) ≠ 0 → bit v 31 = false →
    Completes (.streamEnable m v) s (fun t =>
      let k := s.dev.streamSel m
      t.dev.sf F.ST_CFG_EN k = s.dev.sf F.ST_CFG_EN k ∧ t.dev.strm k = s.dev.strm k ∧ t.dev.sf F.ST_FLAGS_CFG k = 1)) ∧
  (∀ s m v, Serves s m → s.dev.streamSel m < 256 → s.dev.sf F.ST_CFG_EN (s.dev.streamSel m) = 0 → bit v 31 = false →
    Completes (.streamEnable m v) s (fun t =>
      let k := s.dev.streamSel m
      t.dev.rd (R.ST_CFG.of k) = v &&& 0x7EE000FF#32 ∧ t.dev.strm k = s.dev.strm k)) ∧
  (∀ s (p : Fin 3) fr st, Arrives s p fr → s.dev.mdMatch (rxBody p fr.bytes) = false → st ∈ s.dev.strmsOf p (rxBody p fr.bytes) →
    (s.dev.strm st).fits s.dev.fs (s.dev.sf F.ST_RTP_PT st) (payloadOf p fr) = true →
    (s.dev.strm st).seen.contains (seqOf (s.dev.strm st).fmt (payloadOf p fr)) = false →
    Completes (.streamPacketRx p fr) s (fun t =>
      let x := s.dev.strm st
      let seq := seqOf x.fmt (payloadOf p fr)
      let k (i : Nat) : Int := s.dev.stPlace st (s.dev.stTime st fr.now (payloadOf p fr)) i
      (t.dev.strm st).seen = (seq :: x.seen).take 64 ∧ t.dev.rd (R.ST_SEQ.of st) = w32 seq ∧
      (∀ i, i < x.len s.dev.fs → 0 ≤ k i → s.dev.stLate st (k i) = false → s.dev.stEarly st fr.now (k i) = false →
        Tbl.getD (t.dev.strm st).buf (k i).toNat [] = groupOf x.fmt x.chans i (payloadOf p fr)) ∧
      (s.dev.stAtts st = [] → ∀ i, k i = s.dev.stTime st fr.now (payloadOf p fr) + (s.dev.sf F.ST_LOFS_LOFS st + i : Nat) ∧
        (s.dev.stLate st (k i) = true ↔ k i < (32 * s.dev.nextDep : Nat))))) ∧
  (∀ s (p : Fin 3) fr st, Arrives s p fr → s.dev.mdMatch (rxBody p fr.bytes) = false → st ∈ s.dev.strmsOf p (rxBody p fr.bytes) →
    (s.dev.strm st).fits s.dev.fs (s.dev.sf F.ST_RTP_PT st) (payloadOf p fr) = false →
    Completes (.streamPacketRx p fr) s (fun t => t.dev.strm st = s.dev.strm st ∧ t.dev.sf F.ST_FLAGS_FMT st = 1)) ∧
  (∀ s (p : Fin 3) fr st, Arrives s p fr → s.dev.mdMatch (rxBody p fr.bytes) = false → st ∈ s.dev.strmsOf p (rxBody p fr.bytes) →
    (s.dev.strm st).fits s.dev.fs (s.dev.sf F.ST_RTP_PT st) (payloadOf p fr) = true →
    (s.dev.strm st).seen.contains (seqOf (s.dev.strm st).fmt (payloadOf p fr)) = true →
    Completes (.streamPacketRx p fr) s (fun t =>
      t.dev.strm st = s.dev.strm st ∧ t.dev.rd (R.ST_DUP.of st) = oneUp (s.dev.rd (R.ST_DUP.of st)))) ∧
  (∀ s (st : Nat) x, Awake s → 128 ≤ st → st < 256 → x = (s.dev.strm st).turned s.dev.fs → x.run = true →
    x.t0 - 64 - x.len s.dev.fs + x.len s.dev.fs ≤ x.upTo →
    Completes (.streamPacketTx st) s (fun t =>
      let seq := x.seq s.dev.fs x.t0
      let bs := (s.dev.setStrm st x).stFrame st
      (t.dev.strm st).t0 = x.t0 + x.len s.dev.fs ∧
      (s.dev.twStreams = true → (t.dev.strm st).sent = bs ∧ t.dev.rd (R.ST_SEQ.of st) = w32 seq ∧
        ∀ q ∈ x.ports.filter s.dev.npOn, (t.dev.np q).txq = (s.dev.np q).txq ++
          [⟨none, bs, q, bits x.cfg 21 3, if bits x.cfg 29 2 = 2 ∧ s.dev.prpPair then some seq else none, false⟩]) ∧
      (s.dev.twStreams = false → (t.dev.strm st).sent = x.sent ∧ t.dev.regs = s.dev.regs))) ∧
  (∀ s src seq, Awake s → Completes (.prpEntryExpire src seq) s (fun t =>
    t.dev.net.prp = s.dev.net.prp.erase (src, seq) ∧ t.dev.regs = s.dev.regs)) ∧
  (∀ s (p : Fin 3) up (sp : Fin 4), Awake s → s.dev.npHas p = true → Completes (.netLinkChange p up sp) s (fun t =>
    t.dev.fb (F.NP_STATUS_LINK.at p) = up ∧ t.dev.f (F.NP_STATUS_SPEED.at p) = sp ∧
    (s.dev.fb (F.NP_STATUS_LINK.at p) ≠ up → t.dev.f (F.NP_EVT_LINK.at p) = 1))) ∧
  (∀ s (p : Fin 3), Awake s → s.dev.npHas p = true → Completes (.gclEntryAdvance p) s (fun t =>
    let x := s.dev.np p
    (t.dev.np p).oper = x.oper ∧
    (t.dev.np p).gate = if x.gate + 1 ≥ x.oper.length ∨ x.cycle ≤ (x.oper.take (x.gate + 1)).foldl (fun n e => n + e.2) 0
      then 0 else x.gate + 1)) ∧
  (∀ s m (p : Fin 3) v, Serves s m → s.dev.npHas p = false → Completes (.gclGo m p v) s (fun t =>
    t.dev.net = s.dev.net ∧ t.dev.regs = s.dev.regs)) ∧
  (∀ s m (p : Fin 3) v, Serves s m → s.dev.npHas p = true → bit v 31 = true → Completes (.gclGo m p v) s (fun t =>
    (t.dev.np p).pend = some ⟨bits v 0 9, (s.dev.rd (R.NP_GCL_CYCLE.at p)).toNat, (s.dev.rd (R.NP_GCL_BASE_NS.at p)).toNat,
      pair (s.dev.rd (R.NP_GCL_BASE_SEC_LO.at p)) (s.dev.rd (R.NP_GCL_BASE_SEC_HI.at p))⟩)) ∧
  (∀ s (p : Fin 3) g, Awake s → s.dev.npHas p = true → (s.dev.np p).pend = some g → g.len ≠ 0 → g.len ≤ 256 → g.cycle ≠ 0 →
    (∀ k, k < g.len → bits (Tbl.getD (s.dev.np p).adm k 0#32) 0 24 ≠ 0) →
    Completes (.gclSwap p) s (fun t =>
      (t.dev.np p).pend = none ∧ (t.dev.np p).oper.length = g.len ∧ (t.dev.np p).cycle = g.cycle ∧ (t.dev.np p).gate = 0 ∧
      t.dev.f (F.NP_EVT_GCL_SWAP.at p) = 1 ∧
      (∀ k, k < g.len → (t.dev.np p).oper[k]? = some (bits (Tbl.getD (s.dev.np p).adm k 0#32) 24 8,
        bits (Tbl.getD (s.dev.np p).adm k 0#32) 0 24)))) ∧
  (∀ s (p : Fin 3) g, Awake s → s.dev.npHas p = true → (s.dev.np p).pend = some g →
    g.len = 0 ∨ g.cycle = 0 ∨ (∃ k, k < min g.len 256 ∧ bits (Tbl.getD (s.dev.np p).adm k 0#32) 0 24 = 0) →
    Completes (.gclSwap p) s (fun t =>
      (t.dev.np p).pend = none ∧ (t.dev.np p).oper = (s.dev.np p).oper ∧ t.dev.f (F.NP_EVT_GCL_ERR.at p) = 1)) ∧
  (∀ s (p : Fin 3) fr, Arrives s p fr → s.dev.mdMatch (rxBody p fr.bytes) = true → mdGood (payloadOf p fr) = true →
    mdRoom s.dev (payloadOf p fr) = true → 0 < mdAhead s.dev (payloadOf p fr) → mdAhead s.dev (payloadOf p fr) < 2 ^ 31 →
    Completes (.metadataPacket p fr) s (fun t =>
      let src := be (payloadOf p fr) 8 2
      t.dev.net.md = (src, be (payloadOf p fr) 4 4) :: s.dev.net.md.filter (fun e => e.1 != src) ∧
      t.dev.rd R.MD_PKT = oneUp (s.dev.rd R.MD_PKT))) ∧
  (∀ s (p : Fin 3) fr, Arrives s p fr → s.dev.mdMatch (rxBody p fr.bytes) = true → mdGood (payloadOf p fr) = true →
    mdRoom s.dev (payloadOf p fr) = true → mdAhead s.dev (payloadOf p fr) = 0 ∨ 2 ^ 31 ≤ mdAhead s.dev (payloadOf p fr) →
    Completes (.metadataPacket p fr) s (fun t =>
      t.dev.net.md = s.dev.net.md ∧ t.dev.gsv = s.dev.gsv ∧ t.dev.rd R.MD_DUP = oneUp (s.dev.rd R.MD_DUP) ∧
      evtBit t.dev Ev.NET_MD = true)) ∧
  (∀ s (p : Fin 3) fr, Arrives s p fr → s.dev.mdMatch (rxBody p fr.bytes) = true →
    mdGood (payloadOf p fr) = false ∨ mdRoom s.dev (payloadOf p fr) = false →
    Completes (.metadataPacket p fr) s (fun t =>
      t.dev.net.md = s.dev.net.md ∧ t.dev.gsv = s.dev.gsv ∧ t.dev.rd R.MD_BAD = oneUp (s.dev.rd R.MD_BAD) ∧
      evtBit t.dev Ev.NET_MD = true)) ∧
  (∀ s m v, Serves s m → Completes (.mdCfgWrite m v) s (fun t =>
    t.dev.rd R.MD_CFG = v &&& 0x8000FFFF#32 ∧ (bit v 31 = false → t.dev.net.md = []))) ∧
  (∀ s m v, Serves s m → bit v 0 = true → Completes (.netCntClr m v) s (fun t =>
    t.dev.net.cnt = [] ∧ ∀ r ∈ netCounters, ∀ o, o < 65536 → t.dev.rd (r.of o) = 0#32))

/-- The time instances (09_time_references.md R261, R266 to R271): the clock quality of an Announce, the servo with its bias and its count of
good and bad writes, a step, a switch to the shadow domain, hold-over, a write that finds no enabled instance, the shadow, the timeouts, the
control register and the capture of the time. -/
def Obligations.TimeInstancesComplete : Prop :=
  (∀ s (pm : PtpMsg) cls acc (i : Fin 4), Awake s → pm.announce = some (cls, acc) →
    s.dev.tu.ptp.any (fun c => c.port == pm.port.val && c.inst == i.val) = true → s.dev.f (F.TI_CTRL_DOMP.of i) = pm.domain →
    Completes (.ptpMessage pm) s (fun t => (t.dev.ti i).cls = cls ∧ (t.dev.ti i).acc = acc)) ∧
  (∀ s m v cyc, Serves s m → let k := s.dev.tiSel m
    let x := s.dev.ti k
    let e0 := wInt v - s.dev.biasNow k x (cyc - x.last.getD cyc)
    let e := lim (s.dev.f (F.TI_STEP_THR_STEP_THR.of k)) e0
    let i0 := x.i - e * s.dev.f (F.TI_KI_KI.of k) / 2 ^ 12
    let i1 := lim (s.dev.freqLim k) i0
    let f0 := i1 - e * s.dev.f (F.TI_KP_KP.of k) / 2 ^ 4
    let good := decide (e.natAbs ≤ s.dev.f (F.TI_LOCK_THR_LOCK_THR.of k))
    k < 4 → s.dev.fb (F.TI_CTRL_EN.of k) = true → (x.tag = none ∨ x.tag = some (s.dev.f (F.TI_TAG_TAGP.of k))) →
    (e0.natAbs ≤ s.dev.f (F.TI_STEP_THR_STEP_THR.of k) ∨ s.dev.fb (F.TI_CTRL_STEPEN.of k) = false) →
    Completes (.tiOfsp m v cyc) s (fun t =>
      (t.dev.ti k).ep = e ∧ (t.dev.ti k).i = i1 ∧ (t.dev.ti k).f = lim (s.dev.freqLim k) f0 ∧
      (t.dev.ti k).b = s.dev.biasNow k x (cyc - x.last.getD cyc) ∧ (t.dev.ti k).last = some cyc ∧ (t.dev.ti k).clr = false ∧
      t.dev.fb (F.TI_STATUS_FLIM.of k) = (i0 != i1 || f0 != lim (s.dev.freqLim k) f0) ∧
      t.dev.f (F.TI_STATUS_STATE.of k) =
        (let st := s.dev.f (F.TI_STATUS_STATE.of k)
         if st = tiFree ∨ st = tiHold then tiAcq
         else if st = tiAcq ∧ good = true ∧ 7 ≤ x.good then tiLocked
         else if st = tiLocked ∧ good = false ∧ 3 ≤ x.bad then tiAcq else st))) ∧
  (∀ s m v cyc, Serves s m → let k := s.dev.tiSel m
    let x := s.dev.ti k
    let e := wInt v - s.dev.biasNow k x (cyc - x.last.getD cyc)
    k < 4 → s.dev.fb (F.TI_CTRL_EN.of k) = true → (x.tag = none ∨ x.tag = some (s.dev.f (F.TI_TAG_TAGP.of k))) →
    s.dev.fb (F.TI_CTRL_STEPEN.of k) = true → s.dev.f (F.TI_STEP_THR_STEP_THR.of k) < e.natAbs →
    Completes (.tiOfsp m v cyc) s (fun t =>
      (t.dev.ti k).ep = e ∧ (t.dev.ti k).t = (x.sync cyc).t - e * 2 ^ 48 / 10 ∧ (t.dev.ti k).good = 0 ∧ (t.dev.ti k).bad = 0 ∧
      t.dev.f (F.TI_STATUS_STATE.of k) = tiAcq ∧ evtBit t.dev Ev.TU_STEP = true)) ∧
  (∀ s m v cyc, Serves s m → let k := s.dev.tiSel m
    let x := s.dev.ti k
    k < 4 → s.dev.fb (F.TI_CTRL_EN.of k) = true → x.tag ≠ none → x.tag ≠ some (s.dev.f (F.TI_TAG_TAGP.of k)) →
    s.dev.fb (F.TI_STATUS_SHADOW_OK.of k) = true →
    Completes (.tiOfsp m v cyc) s (fun t =>
      (t.dev.ti k).b = x.es - x.ep ∧ (t.dev.ti k).tag = some (s.dev.f (F.TI_TAG_TAGS.of k)) ∧
      t.dev.f (F.TI_CTRL_DOMP.of k) = s.dev.f (F.TI_CTRL_DOMS.of k) ∧
      t.dev.f (F.TI_CTRL_DOMS.of k) = s.dev.f (F.TI_CTRL_DOMP.of k) ∧ t.dev.f (F.TI_STATUS_SHADOW_OK.of k) = 0 ∧
      evtBit t.dev Ev.TU_SWITCH = true)) ∧
  (∀ s m v cyc, Serves s m → let k := s.dev.tiSel m
    let x := s.dev.ti k
    k < 4 → s.dev.fb (F.TI_CTRL_EN.of k) = true → x.tag ≠ none → x.tag ≠ some (s.dev.f (F.TI_TAG_TAGP.of k)) →
    s.dev.fb (F.TI_STATUS_SHADOW_OK.of k) = false →
    Completes (.tiOfsp m v cyc) s (fun t =>
      (t.dev.ti k).f = x.i ∧ (t.dev.ti k).b = s.dev.biasNow k x (cyc - x.last.getD cyc) ∧
      t.dev.f (F.TI_STATUS_STATE.of k) = tiHold)) ∧
  (∀ s m v cyc, Serves s m → (4 ≤ s.dev.tiSel m ∨ s.dev.fb (F.TI_CTRL_EN.of (s.dev.tiSel m)) = false) →
    Completes (.tiOfsp m v cyc) s (fun t => t.dev.tu = s.dev.tu ∧ t.dev.regs = s.dev.regs)) ∧
  (∀ s m v, Serves s m → s.dev.tiSel m < 4 → Completes (.tiOfss m v) s (fun t =>
    (t.dev.ti (s.dev.tiSel m)).es = wInt v ∧ t.dev.f (F.TI_STATUS_SHADOW_OK.of (s.dev.tiSel m)) = 1)) ∧
  (∀ s m v, Serves s m → 4 ≤ s.dev.tiSel m → Completes (.tiOfss m v) s (fun t => t.dev.tu = s.dev.tu ∧ t.dev.regs = s.dev.regs)) ∧
  (∀ s (i : Fin 4) cyc, Awake s → s.dev.fb (F.TI_CTRL_EN.of i) = true → s.dev.tiOver i (s.dev.ti i).last cyc = true →
    s.dev.fb (F.TI_STATUS_SHADOW_OK.of i) = true →
    Completes (.primaryTimeout i cyc) s (fun t =>
      (t.dev.ti i).b = (s.dev.ti i).es - (s.dev.ti i).ep ∧ t.dev.f (F.TI_CTRL_DOMP.of i) = s.dev.f (F.TI_CTRL_DOMS.of i) ∧
      evtBit t.dev Ev.TU_SWITCH = true)) ∧
  (∀ s (i : Fin 4) cyc, Awake s → s.dev.fb (F.TI_CTRL_EN.of i) = true → s.dev.tiOver i (s.dev.ti i).last cyc = true →
    s.dev.fb (F.TI_STATUS_SHADOW_OK.of i) = false →
    Completes (.primaryTimeout i cyc) s (fun t =>
      (t.dev.ti i).f = (s.dev.ti i).i ∧ t.dev.f (F.TI_STATUS_STATE.of i) = tiHold)) ∧
  (∀ s (i : Fin 4) cyc, Awake s → (s.dev.fb (F.TI_CTRL_EN.of i) = false ∨ s.dev.tiOver i (s.dev.ti i).last cyc = false) →
    Completes (.primaryTimeout i cyc) s (fun t => t.dev.tu = s.dev.tu ∧ t.dev.regs = s.dev.regs)) ∧
  (∀ s (i : Fin 4) cyc, Awake s → s.dev.tiOver i (s.dev.ti i).lastS cyc = true → Completes (.shadowTimeout i cyc) s (fun t =>
    t.dev.f (F.TI_STATUS_SHADOW_OK.of i) = 0 ∧ t.dev.tu = s.dev.tu)) ∧
  (∀ s m v, Serves s m → s.dev.tiSel m < 4 → Completes (.clrBias m v) s (fun t =>
    t.dev.rd (R.TI_CTRL.of (s.dev.tiSel m)) = v &&& 0xE000FFFF#32 ∧
    (t.dev.ti (s.dev.tiSel m)).clr = ((s.dev.ti (s.dev.tiSel m)).clr || bit v 28) ∧
    (t.dev.ti (s.dev.tiSel m)).f = (if bit v 31 then (s.dev.ti (s.dev.tiSel m)).f else 0) ∧
    (bit v 31 = false → t.dev.f (F.TI_STATUS_STATE.of (s.dev.tiSel m)) = tiFree))) ∧
  (∀ s m cyc, Serves s m → s.dev.tiSel m < 4 → let ns := (s.dev.ti (s.dev.tiSel m)).ns cyc
    Completes (.timeCaptureRead m cyc) s (fun t =>
      t.dev.resp = ⟨[w32 (ns % 10 ^ 9)], false⟩ ∧ t.dev.hold R.TI_TSEC_LO m = w32 (ns / 10 ^ 9) ∧
      t.dev.hold R.TI_TSEC_HI m = w32 (ns / 10 ^ 9 / 2 ^ 32 + (s.dev.ti (s.dev.tiSel m)).tenth cyc * 65536) ∧ t.dev.tu = s.dev.tu)) ∧
  (∀ s m cyc, Serves s m → 4 ≤ s.dev.tiSel m → Completes (.timeCaptureRead m cyc) s (fun t =>
    t.dev.resp = ⟨[0#32], false⟩ ∧ t.dev.hold R.TI_TSEC_LO m = 0#32 ∧ t.dev.hold R.TI_TSEC_HI m = 0#32))

/-- Where pulse output `k` starts, in ns of its instance (R276). -/
def Sys2Proof.startOf (d : Dev) (k : Nat) : Nat :=
  pair (d.rd (R.TP_START_SEC_LO.at k)) (d.rd (R.TP_START_SEC_HI.at k)) * 10 ^ 9 + (d.rd (R.TP_START_NS.at k)).toNat

/-- Media clocks, pulses and captures (09_time_references.md R272 to R277, R290): a tick within the step threshold, one refused into the bias,
one without PTP and one that ends a realignment of MCK1; REALIGN in and outside Shunt; every form of arming a pulse; its edges; a captured
and an ignored edge, and the reading of captures. -/
def Obligations.TimeEdgesComplete : Prop :=
  (∀ s (k : Fin 2) (n cyc : Nat), Awake s → let e : Int := (n : Int) - s.dev.nu k cyc - (s.dev.mc k).beta
    s.dev.fb (F.MC_CFG_PTP.at k) = true → (k.val = 0 ∨ (s.dev.mc 1).realign = false ∨ n / 8192 ≤ (s.dev.mc 1).n / 32) →
    (s.dev.mcFollows k = false ∨ s.dev.mcWithin k e = true) →
    Completes (.mediaClockTick k n cyc) s (fun t =>
      (t.dev.mc k).n = n / 256 ∧ (t.dev.mc k).beta = (s.dev.mc k).beta ∧ t.dev.rd (R.MC_PHERR.at k) = wOfInt e)) ∧
  (∀ s (k : Fin 2) (n cyc : Nat), Awake s → let e : Int := (n : Int) - s.dev.nu k cyc - (s.dev.mc k).beta
    s.dev.fb (F.MC_CFG_PTP.at k) = true → (k.val = 0 ∨ (s.dev.mc 1).realign = false ∨ n / 8192 ≤ (s.dev.mc 1).n / 32) →
    s.dev.mcFollows k = true → s.dev.mcWithin k e = false →
    Completes (.mediaClockTick k n cyc) s (fun t =>
      (t.dev.mc k).n = n / 256 ∧ (t.dev.mc k).beta = (s.dev.mc k).beta + e ∧ t.dev.rd (R.MC_PHERR.at k) = 0#32 ∧
      t.dev.f (F.MC_STATUS_ALIGNED.at k) = 0 ∧ t.dev.f (F.MC_STATUS_BIASED.at k) = 1 ∧ evtBit t.dev Ev.TU_STEP_REF = true)) ∧
  (∀ s (k : Fin 2) (n cyc : Nat), Awake s → s.dev.fb (F.MC_CFG_PTP.at k) = false →
    (k.val = 0 ∨ (s.dev.mc 1).realign = false ∨ n / 8192 ≤ (s.dev.mc 1).n / 32) →
    Completes (.mediaClockTick k n cyc) s (fun t =>
      (t.dev.mc k).n = n / 256 ∧ (t.dev.mc k).beta = (s.dev.mc k).beta ∧ t.dev.rd (R.MC_PHERR.at k) = s.dev.rd (R.MC_PHERR.at k))) ∧
  (∀ s (n cyc : Nat), Awake s → (s.dev.mc 1).realign = true → (s.dev.mc 1).n / 32 < n / 8192 →
    Completes (.mediaClockTick 1 n cyc) s (fun t =>
      let exact : Int := ((n / 8192 * 32 : Nat) : Int) * 256 - (s.dev.mc 1).beta
      t.dev.mc 1 = ⟨((exact + 128) / 256).toNat, 0, false⟩ ∧ t.dev.rd (R.MC_PHERR.at 1) = wOfInt ((exact + 128) / 256 * 256 - exact) ∧
      t.dev.f (F.MC_STATUS_ALIGNED.at 1) = 1 ∧ t.dev.f (F.MC_STATUS_BIASED.at 1) = 0)) ∧
  (∀ s m (k : Fin 2) v, Serves s m → s.dev.inMode mShunt = true → bit v 0 = true → Completes (.realign m k v) s (fun t =>
    (t.dev.mc k).realign = true ∧ (t.dev.mc k).n = (s.dev.mc k).n ∧ (t.dev.mc k).beta = (s.dev.mc k).beta)) ∧
  (∀ s m (k : Fin 2) v, Serves s m → s.dev.inMode mShunt = false → bit v 0 = true → Completes (.realign m k v) s (fun t =>
    t.dev.tu = s.dev.tu ∧ evtBit t.dev Ev.TU_REALIGN_IGN = true)) ∧
  (∀ s m (k : Fin 8) v cyc, Serves s m →
    let st := startOf s.dev k
    let p := s.dev.f (F.TP_PERIOD_P.at k)
    let w := max 1 (s.dev.f (F.TP_WIDTH_W.at k))
    bit v 31 = true → s.dev.fb (F.TP_CTRL_EN.at k) = false → (p = 0 ∨ w < p) →
    (s.dev.ti (bits v 0 2)).time cyc ≤ (st : Int) * 2 ^ 48 →
    Completes (.pulseArm m k v cyc) s (fun t => t.dev.tp k = ⟨true, st, p, w, st, false⟩)) ∧
  (∀ s m (k : Fin 8) v cyc, Serves s m →
    let st := startOf s.dev k
    let p := s.dev.f (F.TP_PERIOD_P.at k)
    let w := max 1 (s.dev.f (F.TP_WIDTH_W.at k))
    bit v 31 = true → s.dev.fb (F.TP_CTRL_EN.at k) = false → w < p →
    (st : Int) * 2 ^ 48 < (s.dev.ti (bits v 0 2)).time cyc →
    Completes (.pulseArm m k v cyc) s (fun t =>
      t.dev.tp k = ⟨true, st, p, w, st + (((s.dev.ti (bits v 0 2)).ns cyc + 1000 - st + p - 1) / p) * p, false⟩ ∧
      evtBit t.dev Ev.TU_TP_LATE = true)) ∧
  (∀ s m (k : Fin 8) v cyc, Serves s m →
    let st := startOf s.dev k
    let p := s.dev.f (F.TP_PERIOD_P.at k)
    let w := max 1 (s.dev.f (F.TP_WIDTH_W.at k))
    bit v 31 = true → s.dev.fb (F.TP_CTRL_EN.at k) = false →
    ((p ≠ 0 ∧ p ≤ w) ∨ (p = 0 ∧ (st : Int) * 2 ^ 48 < (s.dev.ti (bits v 0 2)).time cyc)) →
    Completes (.pulseArm m k v cyc) s (fun t => t.dev.tp k = .off ∧ evtBit t.dev Ev.TU_TP_LATE = true)) ∧
  (∀ s m (k : Fin 8) v cyc, Serves s m → bit v 31 = true → s.dev.fb (F.TP_CTRL_EN.at k) = true →
    Completes (.pulseArm m k v cyc) s (fun t => t.dev.tu = s.dev.tu ∧ t.dev.rd (R.TP_CTRL.at k) = v &&& 0x80000103#32)) ∧
  (∀ s m (k : Fin 8) v cyc, Serves s m → bit v 31 = false → Completes (.pulseArm m k v cyc) s (fun t =>
    t.dev.tp k = .off ∧ t.dev.fb (F.TP_CTRL_EN.at k) = false)) ∧
  (∀ s (k : Fin 8) cyc, Awake s → (s.dev.tp k).armed = true → (s.dev.tp k).high = false →
    (s.dev.tp k).next ≤ (s.dev.ti (s.dev.f (F.TP_CTRL_TI.at k))).ns cyc + 1 →
    Completes (.pulseEdge k cyc) s (fun t => t.dev.tp k = { s.dev.tp k with high := true })) ∧
  (∀ s (k : Fin 8) cyc, Awake s → (s.dev.tp k).armed = true → (s.dev.tp k).high = true →
    (s.dev.tp k).next + (s.dev.tp k).width ≤ (s.dev.ti (s.dev.f (F.TP_CTRL_TI.at k))).ns cyc + 1 →
    Completes (.pulseEdge k cyc) s (fun t =>
      t.dev.tp k = if (s.dev.tp k).period = 0 then { s.dev.tp k with high := false, armed := false }
        else { s.dev.tp k with high := false, next := (s.dev.tp k).next + (s.dev.tp k).period })) ∧
  (∀ s (c : Fin 4) rising n cyc w, Awake s → s.dev.fb (F.TC_CFG_EN.at c) = true →
    (s.dev.f (F.TC_CFG_EDGE.at c) = 0 → rising = true) → (s.dev.f (F.TC_CFG_EDGE.at c) = 1 → rising = false) →
    (∀ l, (s.dev.tc c).last = some l → l + 100 ≤ cyc) → 4 ≤ w → (s.dev.tc c).q.length < 16 →
    Completes (.captureEdge c rising n cyc w) s (fun t =>
      t.dev.tc c = ⟨(s.dev.tc c).q ++ [⟨!rising, (s.dev.ti (s.dev.f (F.TC_CFG_TI.at c))).ns cyc, n⟩], some cyc⟩)) ∧
  (∀ s (c : Fin 4) rising n cyc w, Awake s → s.dev.fb (F.TC_CFG_EN.at c) = true →
    (s.dev.f (F.TC_CFG_EDGE.at c) = 0 → rising = true) → (s.dev.f (F.TC_CFG_EDGE.at c) = 1 → rising = false) →
    (∀ l, (s.dev.tc c).last = some l → l + 100 ≤ cyc) → 4 ≤ w → 16 ≤ (s.dev.tc c).q.length →
    Completes (.captureEdge c rising n cyc w) s (fun t =>
      (t.dev.tc c).q = (s.dev.tc c).q ∧ (t.dev.tc c).last = some cyc ∧ evtBit t.dev Ev.TU_TC_OVF = true)) ∧
  (∀ s (c : Fin 4) rising n cyc w, Awake s → (s.dev.fb (F.TC_CFG_EN.at c) = false ∨
      (s.dev.f (F.TC_CFG_EDGE.at c) = 0 ∧ rising = false) ∨ (s.dev.f (F.TC_CFG_EDGE.at c) = 1 ∧ rising = true) ∨
      (s.dev.tc c).last.any (fun l => decide (cyc < l + 100)) = true ∨ w < 4) →
    Completes (.captureEdge c rising n cyc w) s (fun t => t.dev.tu = s.dev.tu ∧ t.dev.regs = s.dev.regs)) ∧
  (∀ s m (c : Fin 4) e rest, Serves s m → (s.dev.tc c).q = e :: rest → Completes (.capturePop m c) s (fun t =>
    (t.dev.tc c).q = rest ∧ t.dev.resp = ⟨[w32 (2 ^ 31 + b2n e.falling * 2 ^ 30 + e.ns % 10 ^ 9)], false⟩ ∧
    t.dev.hold (R.TC_W1.at c) m = w32 (e.ns / 10 ^ 9) ∧ t.dev.hold (R.TC_W2.at c) m = w32 (e.ns / 10 ^ 9 / 2 ^ 32) ∧
    t.dev.hold (R.TC_W3.at c) m = w32 (e.idx % 2 ^ 32))) ∧
  (∀ s m (c : Fin 4), Serves s m → (s.dev.tc c).q = [] → Completes (.capturePop m c) s (fun t =>
    t.dev.resp = ⟨[0#32], false⟩ ∧ t.dev.hold (R.TC_W1.at c) m = 0#32 ∧ t.dev.hold (R.TC_W2.at c) m = 0#32 ∧
    t.dev.hold (R.TC_W3.at c) m = 0#32)) ∧
  (∀ s m v r o, Serves s m → bit v 0 = true →
    r ∈ [R.TI_STEP_CNT, R.TI_SWITCH_CNT, R.MC_REFUSE_CNT.at 0, R.MC_REFUSE_CNT.at 1, R.TC_OVF_CNT.at 0, R.TC_OVF_CNT.at 1,
      R.TC_OVF_CNT.at 2, R.TC_OVF_CNT.at 3] → o < 65536 →
    Completes (.tuCntClr m v) s (fun t => t.dev.rd (r.of o) = 0#32))

/-- The reference unit (09_time_references.md R278 to R289). A tick uses every RC_CMD write that waits and finds input 7 present; a loss and
the end of a hold-off; RESELECT and FORCE wait for the tick; the end of SWITCH is counted, leaves the state by the frequency and gives the
offset to the media clock; a lock and a valid history. -/
def Obligations.RefsComplete : Prop :=
  (∀ s ms cs, Awake s → Completes (.refTick ms cs) s (fun t =>
    (∀ ch : Fin 2, (t.dev.rc ch).cmds = []) ∧ t.dev.f (F.RI_STATUS_PRESENT.at 7) = 1 ∧ t.dev.rd (R.RI_FREQ.at 7) = 0#32)) ∧
  (∀ s ms cs (i : Fin 7) q, Awake s → ms[i.val]? = some q → q.present = true → (s.dev.riExists i = true) →
    Completes (.refTick ms cs) s (fun t =>
      t.dev.f (F.RI_STATUS_PRESENT.at i) = 1 ∧ t.dev.f (F.RI_STATUS_MULT.at i) = q.mult.val ∧ t.dev.rd (R.RI_FREQ.at i) = wOfInt q.freq ∧
      (q.glitch = true → t.dev.f (F.RI_STATUS_CAUSE.at i) = 2 ∧ t.dev.f (F.RI_STATUS_HOLDOFF.at i) = 1 ∧
        t.dev.f (F.RI_STATUS_QUAL.at i) = 0))) ∧
  (∀ s ms cs (i : Fin 7) q, Awake s → ms[i.val]? = some q → q.present = false → Completes (.refTick ms cs) s (fun t =>
    t.dev.f (F.RI_STATUS_PRESENT.at i) = 0 ∧ t.dev.f (F.RI_STATUS_CAUSE.at i) = 1 ∧ t.dev.f (F.RI_STATUS_HOLDOFF.at i) = 1 ∧
    t.dev.f (F.RI_STATUS_QUAL.at i) = 0)) ∧
  (∀ s (i : Fin 8), Awake s → i.val < 7 → Completes (.refInputLoss i) s (fun t =>
    t.dev.f (F.RI_STATUS_PRESENT.at i) = 0 ∧ t.dev.f (F.RI_STATUS_CAUSE.at i) = 1 ∧ t.dev.f (F.RI_STATUS_HOLDOFF.at i) = 1 ∧
    t.dev.f (F.RI_STATUS_QUAL.at i) = 0 ∧
    (s.dev.fb (F.RI_STATUS_QUAL.at i) = true → evtBit t.dev Ev.RU_DISQ = true))) ∧
  (∀ s (i : Fin 8), Awake s → s.dev.f F.RU_HOLDOFF_HOLDOFF ≤ (s.dev.ri i).since → Completes (.holdoffExpire i) s (fun t =>
    t.dev.f (F.RI_STATUS_HOLDOFF.at i) = 0 ∧ t.dev.f (F.RI_STATUS_QUAL.at i) = s.dev.f (F.RI_STATUS_QUAL.at i))) ∧
  (∀ s m v, Serves s m → s.dev.rcSel m < 2 → bit v 0 = true → Completes (.reselect m v) s (fun t =>
    (t.dev.rc (s.dev.rcSel m)).cmds = (s.dev.rc (s.dev.rcSel m)).cmds ++ [bits v 0 7] ∧ t.dev.regs = s.dev.regs)) ∧
  (∀ s m v, Serves s m → s.dev.rcSel m < 2 → bit v 1 = true → Completes (.force m v) s (fun t =>
    (t.dev.rc (s.dev.rcSel m)).cmds = (s.dev.rc (s.dev.rcSel m)).cmds ++ [bits v 0 7] ∧ t.dev.regs = s.dev.regs)) ∧
  (∀ s m v, Serves s m → 2 ≤ s.dev.rcSel m → Completes (.force m v) s (fun t => t.dev.tu = s.dev.tu ∧ t.dev.regs = s.dev.regs)) ∧
  (∀ s (ch : Fin 2) phi, Awake s → s.dev.f (F.RC_STATUS_STATE.of ch) = rcSwitch →
    Completes (.switchEnd ch phi) s (fun t =>
      t.dev.rd (R.RC_PHASE.of ch) = wOfInt phi ∧ evtBit t.dev Ev.RU_SWITCH = true ∧
      t.dev.f (F.RC_STATUS_STATE.of ch) =
        (if (wInt (s.dev.rd (R.RI_FREQ.at (s.dev.f (F.RC_STATUS_CUR.of ch)))) - wInt (s.dev.rd (R.RC_FOFS.of ch))).natAbs ≤ 100
        then rcLocked else rcAcquire) ∧
      (s.dev.f (F.RC_STATUS_CUR.of ch) < 2 → s.dev.mcWithin ch phi = true →
        t.dev.rd (R.MC_PHERR.at ch) = wOfInt (-phi) ∧ (t.dev.mc ch).beta = (s.dev.mc ch).beta) ∧
      (s.dev.f (F.RC_STATUS_CUR.of ch) < 2 → s.dev.mcWithin ch phi = false →
        t.dev.rd (R.MC_PHERR.at ch) = 0#32 ∧ (t.dev.mc ch).beta = (s.dev.mc ch).beta - phi))) ∧
  (∀ s (ch : Fin 2), Awake s → s.dev.f (F.RC_STATUS_STATE.of ch) = rcAcquire → 1000 ≤ (s.dev.rc ch).near →
    Completes (.acquireLock ch) s (fun t =>
      t.dev.f (F.RC_STATUS_STATE.of ch) = rcLocked ∧ evtBit t.dev Ev.RU_STATE = true)) ∧
  (∀ s (ch : Fin 2), Awake s → s.dev.f (F.RC_STATUS_STATE.of ch) = rcLocked →
    (2 ^ min (s.dev.f (F.RC_CFG_HIST.of ch)) 10 + 1) * 1000 ≤ (s.dev.rc ch).held → Completes (.histValid ch) s (fun t =>
    t.dev.f (F.RC_STATUS_HIST_VALID.of ch) = 1 ∧ t.dev.f (F.RC_STATUS_STATE.of ch) = rcLocked)) ∧
  (∀ s m v r o, Serves s m → bit v 0 = true → r ∈ R.RC_SWITCH_CNT :: (List.range 8).map R.RI_DISQ_CNT.at → o < 65536 →
    Completes (.ruCntClr m v) s (fun t => t.dev.rd (r.of o) = 0#32))

/-- The fine path's sample that the 128 modulator words `ws` give input `n`, before it saturates (10_analog_inputs.md R295 to R297). -/
def Sys2Proof.fineOf (d : Dev) (n : Nat) (ws : List (Fin 5)) : Int :=
  ((d.ain n).hpf.run (hpfPole d.rate) (d.fb (F.AI_CFG_HPF.of n)) (adcFine ((d.ain n).take ws).out)).1

/-- Does sample `idx` of input `n` carry data: is it sample 40 or later after the reset (R300)? -/
def Sys2Proof.samplesPass (d : Dev) (n idx : Nat) : Bool := (d.ain n).rst.any (fun b => decide (32 * b + 40 ≤ idx))

/-- Analog inputs (10_analog_inputs.md R292 to R304, R318): enable, disable, a write that leaves what an enabled input holds, resets at once,
timed and late, gain moves, samples with and without data, levels, counters. -/
def Obligations.AnalogInputsComplete : Prop :=
  (∀ s m v, Serves s m → s.dev.cap.analog = true → s.dev.ainSel m < 8 → s.dev.fb (F.AI_CFG_EN.of (s.dev.ainSel m)) = false →
    bit v 31 = true →
    Completes (.aiEnable m v) s (fun t =>
      t.dev.rd (R.AI_CFG.of (s.dev.ainSel m)) = v &&& 0xF300007F#32 ∧ (t.dev.ain (s.dev.ainSel m)).rst = some s.dev.nextDep ∧
      (t.dev.ain (s.dev.ainSel m)).ready = false ∧ (t.dev.ain (s.dev.ainSel m)).cic = .reset)) ∧
  (∀ s m v, Serves s m → s.dev.cap.analog = true → s.dev.ainSel m < 8 → s.dev.fb (F.AI_CFG_EN.of (s.dev.ainSel m)) = true →
    (s.dev.rd (R.AI_CFG.of (s.dev.ainSel m)) ^^^ v) &&& 0x43000000#32 ≠ 0#32 →
    Completes (.aiEnable m v) s (fun t =>
      t.dev.rd (R.AI_CFG.of (s.dev.ainSel m)) &&& 0x43000000#32 = s.dev.rd (R.AI_CFG.of (s.dev.ainSel m)) &&& 0x43000000#32 ∧
      t.dev.fb (F.AI_CFG_EN.of (s.dev.ainSel m)) = bit v 31 ∧ bit (t.dev.rd (evtReg 10)) 15 = true)) ∧
  (∀ s m v, Serves s m → s.dev.cap.analog = true → s.dev.ainSel m < 8 → s.dev.fb (F.AI_CFG_EN.of (s.dev.ainSel m)) = true →
    bit v 31 = false →
    Completes (.aiDisable m v) s (fun t =>
      t.dev.fb (F.AI_CFG_EN.of (s.dev.ainSel m)) = false ∧ (t.dev.ain (s.dev.ainSel m)).rst = none ∧
      (t.dev.ain (s.dev.ainSel m)).fast = false ∧ bit (t.dev.rd (statusReg 10)) (8 + s.dev.ainSel m) = false)) ∧
  (∀ s m v n, Serves s m → s.dev.cap.analog = true → n < 8 → bit v n = true → s.dev.fb (F.AI_CFG_EN.of n) = true →
    (bit v 31 = false ∨ pair (s.dev.rd R.AI_SYNC_AT_LO) (s.dev.rd R.AI_SYNC_AT_HI) ≤ s.dev.nextDep) →
    Completes (.aiSync m v) s (fun t => (t.dev.ain n).rst = some s.dev.nextDep ∧ (t.dev.ain n).ready = false ∧
      (bit v 31 = true → pair (s.dev.rd R.AI_SYNC_AT_LO) (s.dev.rd R.AI_SYNC_AT_HI) < s.dev.nextDep →
        bit (t.dev.rd (evtReg 10)) 12 = true))) ∧
  (∀ s m v n, Serves s m → s.dev.cap.analog = true → n < 8 → bit v n = true → bit v 31 = true →
    let b : Nat := pair (s.dev.rd R.AI_SYNC_AT_LO) (s.dev.rd R.AI_SYNC_AT_HI)
    s.dev.nextDep < b →
    Completes (.aiSync m v) s (fun t => (t.dev.ain n).syncs = (s.dev.ain n).syncs ++ [b] ∧ (t.dev.ain n).rst = (s.dev.ain n).rst)) ∧
  (∀ s g (n : Fin 8), Awake s → (s.dev.ain n).rst = some g → (s.dev.ain n).ready = false → s.dev.fb (F.AI_CFG_EN.of n) = true →
    Completes (.syncDone g) s (fun t =>
      (t.dev.ain n).ready = true ∧ t.dev.f (F.AI_EVT_VALID.of n) = 1 ∧ bit (t.dev.rd (evtReg 10)) 11 = true)) ∧
  (∀ s (n : Fin 8), Awake s → (s.dev.ain n).rst ≠ none → s.dev.fb (F.AI_CFG_EN.of n) = true → Completes (.fvalidSet n) s (fun t =>
    (t.dev.ain n).fast = true ∧ bit (t.dev.rd (statusReg 10)) (16 + n) = true)) ∧
  (∀ s m v, Serves s m → s.dev.cap.analog = true → s.dev.ainSel m < 8 → Completes (.pgaWrite m v) s (fun t =>
    t.dev.f (F.AI_CFG_PGA.of (s.dev.ainSel m)) = bits v 0 7 ∧
    (bit v 29 = false → (t.dev.ain (s.dev.ainSel m)).pga = t.dev.pgaTarget (s.dev.ainSel m)) ∧
    (bit v 29 = true → (t.dev.ain (s.dev.ainSel m)).pga = (s.dev.ain (s.dev.ainSel m)).pga))) ∧
  (∀ s (n : Fin 8), Awake s → (s.dev.ain n).pga ≠ s.dev.pgaTarget n → s.dev.fb (F.AI_CFG_PGAZC.of n) = true →
    (s.dev.ain n).cross = true →
    Completes (.pgaStep n) s (fun t => (t.dev.ain n).pga =
      if (s.dev.ain n).pga < s.dev.pgaTarget n then (s.dev.ain n).pga + 1 else (s.dev.ain n).pga - 1)) ∧
  (∀ s (n : Fin 8), Awake s → (s.dev.ain n).pga ≠ s.dev.pgaTarget n → s.dev.fb (F.AI_CFG_PGAZC.of n) = true →
    max 1 (s.dev.f (F.AI_ZCTO_TO.of n)) ≤ (s.dev.ain n).wait →
    Completes (.pgaTo n) s (fun t => t.dev.f (F.AI_EVT_PGA_TO.of n) = 1 ∧ (t.dev.ain n).wait = 0 ∧ (t.dev.ain n).pga =
      if (s.dev.ain n).pga < s.dev.pgaTarget n then (s.dev.ain n).pga + 1 else (s.dev.ain n).pga - 1)) ∧
  (∀ s (n : Fin 8) idx ws over0, Awake s → s.dev.fb (F.AI_CFG_EN.of n) = true → samplesPass s.dev n idx = true →
    s.dev.inGate n (idx / 32) ≠ 0 → Completes (.adcSample n idx ws over0) s (fun t =>
      let x := fineOf s.dev n ws
      Tbl.getD (t.dev.ain n).buf idx 0#32 =
        wOfInt (if s.dev.inGate n (idx / 32) = 1 then sat 32 x * (idx % 32 + 1 : Nat) / 32 else sat 32 x) ∧
      (t.dev.ain n).cic = ((s.dev.ain n).take ws).cic ∧ (t.dev.ain n).ready = true ∧
      (t.dev.ain n).quick = (({ s.dev.ain n with fast := true } : Ain).take ws).quick ∧
      ((over0 || !fits 32 x) = true → t.dev.f (F.AI_EVT_CLIP.of n) = 1 ∧ bit (t.dev.rd R.AI_CLIP) n = true))) ∧
  (∀ s (n : Fin 8) idx ws over0, Awake s → s.dev.fb (F.AI_CFG_EN.of n) = true →
    (samplesPass s.dev n idx = false ∨ s.dev.inGate n (idx / 32) = 0) → Completes (.adcSample n idx ws over0) s (fun t =>
      (t.dev.ain n).buf = (s.dev.ain n).buf ∧ (t.dev.ain n).cic = ((s.dev.ain n).take ws).cic ∧
      (over0 = true → t.dev.f (F.AI_EVT_CLIP.of n) = 1 ∧ bit (t.dev.rd R.AI_CLIP) n = true))) ∧
  (∀ s (n : Fin 8) idx ws over0, Awake s → s.dev.fb (F.AI_CFG_EN.of n) = false → Completes (.adcSample n idx ws over0) s (fun t =>
    t.dev.ai = s.dev.ai ∧ t.dev.regs = s.dev.regs)) ∧
  (∀ s (n : Fin 8), Awake s → (s.dev.ain n).above = true →
    max 1 (s.dev.f (F.AI_THR_TIME_MS.of n)) * s.dev.rate ≤ (s.dev.ain n).low * 1000 →
    Completes (.thrOff n) s (fun t => (t.dev.ain n).above = false ∧ t.dev.f (F.AI_EVT_THR_OFF.of n) = 1)) ∧
  (∀ s m v r o, Serves s m → bit v 0 = true → r ∈ [R.AI_OVR_CNT, R.AI_CLIPCNT, R.AI_PEAK] → o < 65536 →
    Completes (.aiCntClr m v) s (fun t => t.dev.rd (r.of o) = 0#32))

/-- Mic biases and jack sensing (10_analog_inputs.md R305 to R309, R312 to R315). -/
def Obligations.BiasesComplete : Prop :=
  (∀ s m (k : Fin 2) v, Serves s m → s.dev.cap.analog = true → (s.dev.mb k).step = 0 → bit v 31 = true →
    Completes (.mbEnable m k v) s (fun t => (t.dev.mb k).step = 1 ∧ (t.dev.mb k).up = true ∧ bits (t.dev.rd (mbCtrl k)) 0 2 = bits v 0 2)) ∧
  (∀ s m (k : Fin 2) v, Serves s m → s.dev.cap.analog = true → (s.dev.mb k).step ≠ 0 → bit v 31 = true →
    Completes (.mbEnable m k v) s (fun t => (t.dev.mb k).step = (s.dev.mb k).step ∧ bit (t.dev.rd (mbCtrl k)) 31 = true ∧
      bits (t.dev.rd (mbCtrl k)) 0 2 = bits (s.dev.rd (mbCtrl k)) 0 2 ∧
      (bits v 0 2 ≠ bits (s.dev.rd (mbCtrl k)) 0 2 → bit (t.dev.rd (evtReg 10)) 15 = true))) ∧
  (∀ s m (k : Fin 2) v, Serves s m → s.dev.cap.analog = true → (s.dev.mb k).step = 18 → bit v 31 = false →
    Completes (.mbDisable m k v) s (fun t =>
      (t.dev.mb k).step = 17 ∧ (t.dev.mb k).up = false ∧ (t.dev.mb k).muteAt = some (s.dev.nextDep + 1))) ∧
  (∀ s m (k : Fin 2) v, Serves s m → s.dev.cap.analog = true → (s.dev.mb k).step ≠ 18 → bit v 31 = false →
    Completes (.mbDisable m k v) s (fun t =>
      (t.dev.mb k).step = (s.dev.mb k).step ∧ bit (t.dev.rd (mbCtrl k)) 31 = false)) ∧
  (∀ s (k : Fin 2) lim, Awake s → 0 < (s.dev.mb k).step → (s.dev.mb k).step < 18 → Completes (.mbDwellEnd k lim) s (fun t =>
    let x := if bit (s.dev.rd (mbCtrl k)) 31 then (s.dev.mb k).step + 1 else (s.dev.mb k).step - 1
    (t.dev.mb k).step = x ∧ (t.dev.mb k).lim = (lim && decide (2 ≤ x)) ∧ (x = 18 → (t.dev.mb k).rampAt = some (s.dev.nextDep + 1)) ∧
    (x = 0 ∨ x = 18 → bit (t.dev.rd (evtReg 10)) 10 = true))) ∧
  (∀ s (k : Fin 2), Awake s → 2 ≤ (s.dev.mb k).step → Completes (.mbOc k) s (fun t =>
    (t.dev.mb k).step = 1 ∧ bit (t.dev.rd (mbCtrl k)) 31 = false ∧ bit (t.dev.rd (evtReg 10)) 8 = true)) ∧
  (∀ s (k : Fin 2), Awake s → (s.dev.mb k).step = 18 → Completes (.mbOpen k) s (fun t =>
    t.dev.mb k = { s.dev.mb k with lim := false } ∧ bit (t.dev.rd (evtReg 10)) 9 = true)) ∧
  (∀ s (n : Fin 4) ohms, bit (s.dev.rd R.JD_CFG) (28 + n) = true → bit (s.dev.rd R.JD_STATUS) (4 * n + 3) = false →
    Completes (.jackMeasure n ohms) s (fun t =>
      t.dev.rd (R.JD_RES.at n) = w32 (min ohms 0x3FFFFF) ∧ (Tbl.getD t.dev.ai.jd n .reset).cls = jackClass ohms ∧
      (Tbl.getD t.dev.ai.jd n .reset).cnt =
        if (Tbl.getD s.dev.ai.jd n .reset).cls = jackClass ohms then (Tbl.getD s.dev.ai.jd n .reset).cnt + 1 else 1)) ∧
  (∀ s (n : Fin 4) ohms, (bit (s.dev.rd R.JD_CFG) (28 + n) = false ∨ bit (s.dev.rd R.JD_STATUS) (4 * n + 3) = true) →
    Completes (.jackMeasure n ohms) s (fun t => t.dev.ai = s.dev.ai ∧ t.dev.regs = s.dev.regs))

/-- The largest move of one limiter update of channel `c` (11_analog_outputs.md R324). -/
def Sys2Proof.slewOf (d : Dev) (c : Nat) : Int := ((max 1 (d.f (F.AO_SLEW_STEP.of c)) * 2 ^ 16 : Nat) : Int)

/-- Analog outputs (11_analog_outputs.md R320 to R336): the sequencer, spans, the limiter at steps 3 and 4 and below, sections, and the
express path with its ramps and fades. -/
def Obligations.AnalogOutputsComplete : Prop :=
  (∀ s m v, Serves s m → s.dev.cap.analog = true → s.dev.aoutSel m < 12 → (s.dev.aout (s.dev.aoutSel m)).step = 0 →
    s.dev.ao.force ≠ .down → bit v 31 = true →
    Completes (.aoEnable m v) s (fun t =>
      (t.dev.aout (s.dev.aoutSel m)).step = 1 ∧ t.dev.fb (F.AO_CFG_EN.of (s.dev.aoutSel m)) = true)) ∧
  (∀ s m v, Serves s m → s.dev.cap.analog = true → s.dev.aoutSel m < 12 → (s.dev.aout (s.dev.aoutSel m)).step ≠ 0 → bit v 31 = true →
    Completes (.aoEnable m v) s (fun t =>
      (t.dev.aout (s.dev.aoutSel m)).step = (s.dev.aout (s.dev.aoutSel m)).step ∧ t.dev.fb (F.AO_CFG_EN.of (s.dev.aoutSel m)) = true)) ∧
  (∀ s m v, Serves s m → s.dev.cap.analog = true → s.dev.aoutSel m < 12 → bit v 31 = false →
    Completes (.aoDisable m v) s (fun t =>
      (t.dev.aout (s.dev.aoutSel m)).step = (s.dev.aout (s.dev.aoutSel m)).step ∧
      t.dev.fb (F.AO_CFG_EN.of (s.dev.aoutSel m)) = false)) ∧
  (∀ s (c : Fin 12), Awake s → (s.dev.aout c).step = 1 ∨ (s.dev.aout c).step = 2 → s.dev.aoUp c = true →
    Completes (.aoDwellEnd c) s (fun t => (t.dev.aout c).step = (s.dev.aout c).step + 1 ∧ (t.dev.aout c).up = true)) ∧
  (∀ s (c : Fin 12), Awake s → (s.dev.aout c).step = 2 ∨ ((s.dev.aout c).step = 1 ∧ s.dev.ao.force ≠ .hold) → s.dev.aoUp c = false →
    Completes (.aoDwellEnd c) s (fun t => (t.dev.aout c).step = (s.dev.aout c).step - 1 ∧ (t.dev.aout c).up = false ∧
      (t.dev.aout c).span = s.dev.aoWant c)) ∧
  (∀ s (c : Fin 12), Awake s → (s.dev.aout c).step = 4 → s.dev.aoUp c = true → (s.dev.aout c).tick ≤ 255 →
    Completes (.slewUpdate c) s (fun t =>
      let x := s.dev.aoInput c
      let y := (s.dev.aout c).y + clampStep (slewOf s.dev c) (x - (s.dev.aout c).y)
      let last := min 255 ((s.dev.aout c).tick + s.dev.f (F.AO_SLEW_RATE.of c))
      (t.dev.aout c).step = 4 ∧
      (if s.dev.fb (F.AO_SLEW_EN.of c) then (t.dev.aout c).y = y ∧ (t.dev.aout c).lim = (y != x)
        else (t.dev.aout c).y = (s.dev.setAout c { s.dev.aout c with tick := last }).aoInput c ∧ (t.dev.aout c).lim = false))) ∧
  (∀ s (c : Fin 12), Awake s → (s.dev.aout c).step = 4 ∨ (s.dev.aout c).step = 3 → s.dev.aoUp c = false →
    Completes (.slewUpdate c) s (fun t =>
      let y := (s.dev.aout c).y + clampStep (slewOf s.dev c) (-(s.dev.aout c).y)
      (y ≠ 0 → (t.dev.aout c).step = 3 ∧ (t.dev.aout c).y = y) ∧
      ((s.dev.aout c).step = 3 → y = 0 → (s.dev.aout c).fade = .out → (t.dev.aout c).step = 2) ∧
      ((s.dev.aout c).step = 4 → (t.dev.aout c).fade = .fadeOut ∧ (t.dev.aout c).step = 3))) ∧
  (∀ s (c : Fin 12), Awake s → (s.dev.aout c).step = 3 → s.dev.aoUp c = true → Completes (.slewUpdate c) s (fun t =>
    let x := s.dev.aoInput c
    let y := (s.dev.aout c).y + clampStep (slewOf s.dev c) (x - (s.dev.aout c).y)
    (t.dev.aout c).y = y ∧ (t.dev.aout c).step = 3 ∧
    (t.dev.aout c).track = if y = x then (s.dev.aout c).track + (s.dev.f (F.AO_SLEW_RATE.of c) + 1) else 0)) ∧
  (∀ s (c : Fin 12), Awake s → (s.dev.aout c).step < 3 → Completes (.slewUpdate c) s (fun t =>
    t.dev.ao = s.dev.ao ∧ t.dev.regs = s.dev.regs)) ∧
  (∀ s (c : Fin 12), Awake s → (s.dev.aout c).step = 3 → s.dev.aoUp c = true → 256 ≤ (s.dev.aout c).track →
    Completes (.seqDone c) s (fun t =>
      (t.dev.aout c).step = 4 ∧ (t.dev.aout c).fade = .fadeIn ∧ t.dev.f (F.AO_EVT_SEQ_DONE.of c) = 1)) ∧
  (∀ s m v, Serves s m → s.dev.cap.analog = true → s.dev.aoutSel m < 8 → Completes (.aoSpanWrite m v) s (fun t =>
    t.dev.aoWant (s.dev.aoutSel m) = bits v 24 2 ∧
    ((s.dev.aout (s.dev.aoutSel m)).step ≤ 1 → (t.dev.aout (s.dev.aoutSel m)).span = bits v 24 2 ∧
      ((s.dev.aout (s.dev.aoutSel m)).span ≠ bits v 24 2 → t.dev.f (F.AO_EVT_SPAN_DONE.of (s.dev.aoutSel m)) = 1)) ∧
    (2 ≤ (s.dev.aout (s.dev.aoutSel m)).step → (t.dev.aout (s.dev.aoutSel m)).span = (s.dev.aout (s.dev.aoutSel m)).span ∧
      ((s.dev.aout (s.dev.aoutSel m)).span ≠ bits v 24 2 → (t.dev.aout (s.dev.aoutSel m)).run = true)))) ∧
  (∀ s m v, Serves s m → s.dev.twCopy = false → s.dev.cap.analog = true → s.dev.aoutSel m < 12 → bits (s.dev.aoSosSel m) 0 3 < 5 →
    Completes (.aoSosCoefAccess m true v) s (fun t =>
      Tbl.getD (t.dev.aout (s.dev.aoutSel m)).staged.coef (5 * bits (s.dev.aoSosSel m) 4 3 + bits (s.dev.aoSosSel m) 0 3) 0#32 = v ∧
      (t.dev.aout (s.dev.aoutSel m)).live = (s.dev.aout (s.dev.aoutSel m)).live)) ∧
  (∀ s m v, Serves s m → s.dev.cap.analog = true → s.dev.aoutSel m < 12 → bits (s.dev.aoSosSel m) 0 3 < 5 →
    Completes (.aoSosCoefAccess m false v) s (fun t => t.dev.ao = s.dev.ao ∧
      t.dev.resp = ⟨[Tbl.getD (s.dev.aoReadSet m).coef (5 * bits (s.dev.aoSosSel m) 4 3 + bits (s.dev.aoSosSel m) 0 3) 0#32], false⟩)) ∧
  (∀ s m v, Serves s m → s.dev.twCopy = false → s.dev.cap.analog = true → s.dev.aoutSel m < 12 → bit v 0 = true →
    Completes (.aoSosCommit m v) s (fun t => (t.dev.aout (s.dev.aoutSel m)).pend = some s.dev.nextDep ∧
      (t.dev.aout (s.dev.aoutSel m)).live = (s.dev.aout (s.dev.aoutSel m)).live)) ∧
  (∀ s m (k : Fin 8) v, Serves s m → s.dev.twCopy = false → s.dev.cap.analog = true → s.dev.fb (F.EX_CFG_ACT.at k) = false →
    Completes (.exCfgWrite m k v) s (fun t =>
      t.dev.rd (R.EX_CFG.at k) = v &&& 0x870FFFFF#32 ||| (if bit v 31 then 0x40000000#32 else 0#32) ∧
      t.dev.exRamp k = if t.dev.exGain k = s.dev.exGain k then s.dev.exRamp k else ⟨s.dev.exNow k, 0⟩)) ∧
  (∀ s m (k : Fin 8) v, Serves s m → s.dev.twCopy = false → s.dev.cap.analog = true → s.dev.fb (F.EX_CFG_ACT.at k) = true →
    Completes (.exCfgWrite m k v) s (fun t =>
      t.dev.f (F.EX_CFG_SRC.at k) = s.dev.f (F.EX_CFG_SRC.at k) ∧ t.dev.f (F.EX_CFG_DST.at k) = s.dev.f (F.EX_CFG_DST.at k) ∧
      t.dev.fb (F.EX_CFG_ACT.at k) = true ∧ t.dev.f (F.EX_CFG_GAIN.at k) = bits v 0 16 ∧ t.dev.fb (F.EX_CFG_EN.at k) = bit v 31 ∧
      ((s.dev.rd (R.EX_CFG.at k) ^^^ v) &&& 0x070F0000#32 ≠ 0#32 → evtBit t.dev Ev.AO_CFG = true))) ∧
  (∀ s (k : Fin 8), Awake s → s.dev.fb (F.EX_CFG_EN.at k) = false → Completes (.expressRampDone k) s (fun t =>
    t.dev.f (F.EX_CFG_ACT.at k) = 0 ∧ t.dev.f (F.EX_CFG_GAIN.at k) = s.dev.f (F.EX_CFG_GAIN.at k))) ∧
  (∀ s (k : Fin 8), Awake s → s.dev.fb (F.EX_CFG_EN.at k) = true → Completes (.expressRampDone k) s (fun t =>
    t.dev.exRamp k = ⟨s.dev.exGain k, 256⟩ ∧ t.dev.regs = s.dev.regs)) ∧
  (∀ s (c : Fin 12), Awake s → Completes (.expressFadeDone c) s (fun t =>
    ((s.dev.aout c).fade = .fadeIn → (t.dev.aout c).fade = .full) ∧ ((s.dev.aout c).fade = .fadeOut → (t.dev.aout c).fade = .out) ∧
    (t.dev.aout c).step = (s.dev.aout c).step)) ∧
  (∀ s m v r o, Serves s m → bit v 0 = true → r ∈ [R.AO_UND_CNT, R.AO_CLIPCNT, R.AO_PEAK] → o < 65536 →
    Completes (.aoCntClr m v) s (fun t => t.dev.rd (r.of o) = 0#32))

/-- Do the pairing properties of a HELLO frame agree (12_twin.md R337, R338)? -/
def Sys2Proof.agrees (d : Dev) (h : HelloFrame) : Bool :=
  h.props.caps == d.cap.word && h.props.brevs == (List.range 17).map brev && h.props.check == d.rd R.CFG_CHECK && h.props.fs == d.fs &&
    h.props.side != d.fb F.STATUS_TWN_SIDE

/-- A frame of the peer with a right CRC is received: the variant has a twin, and the unit is not OFF (12_twin.md R341). -/
abbrev Sys2Proof.TwinHears (s : State) (good : Bool) : Prop :=
  Awake s ∧ s.dev.cap.twin = true ∧ twHello ≤ s.dev.twSt ∧ good = true

/-- Twin commands, the link and the frames that carry state or faults (12_twin.md R337 to R342, R352 to R359, R361, R366). -/
def Obligations.TwinControlComplete : Prop :=
  (∀ s m v, Serves s m → s.dev.cap.twin = true → bit v 0 = true → (∀ k ∈ [1, 3, 4, 5], bit v k = false) →
    s.dev.fb F.TWN_CFG_EN = true → s.dev.twSt = twOff →
    Completes (.pairUp m v) s (fun t =>
      t.dev.twSt = twHello ∧ t.dev.tw.tx = s.dev.tw.tx ++ [.hello { s.dev.props with st := twHello }] ∧ t.dev.tw.seq = s.dev.tw.seq + 1#32 ∧
      evtBit t.dev Ev.TWN_STATE = true)) ∧
  (∀ s m v, Serves s m → s.dev.cap.twin = true → bit v 1 = true → (∀ k ∈ [0, 3, 4, 5], bit v k = false) → s.dev.twSt = twActive →
    s.dev.tw.peer = twStandby → bit v 2 = false →
    Completes (.switchTwin m v) s (fun t => t.dev.tw.sw = some (s.dev.nextDep + 4) ∧ t.dev.regs = s.dev.regs)) ∧
  (∀ s m v, Serves s m → s.dev.cap.twin = true → bit v 1 = true → (∀ k ∈ [0, 3, 4, 5], bit v k = false) → s.dev.twSt = twActive →
    s.dev.tw.peer = twStandby → bit v 2 = true → s.dev.nextDep < s.dev.rd64 R.TWN_SW_AT_LO R.TWN_SW_AT_HI →
    Completes (.switchTwin m v) s (fun t =>
      t.dev.tw.sw = some (s.dev.rd64 R.TWN_SW_AT_LO R.TWN_SW_AT_HI) ∧ t.dev.regs = s.dev.regs)) ∧
  (∀ s m v, Serves s m → s.dev.cap.twin = true → bit v 1 = true → (∀ k ∈ [0, 3, 4, 5], bit v k = false) →
    (s.dev.twSt ≠ twActive ∨ s.dev.tw.peer ≠ twStandby) →
    Completes (.switchTwin m v) s (fun t => t.dev.tw = s.dev.tw ∧ evtBit t.dev Ev.TWN_WR_IGN = true)) ∧
  (∀ s m v, Serves s m → s.dev.cap.twin = true → bit v 3 = true → (∀ k ∈ [0, 1, 4, 5], bit v k = false) →
    (s.dev.twSt = twStandby ∨ s.dev.twSt = twSyncing ∨ s.dev.twSt = twDetached) →
    Completes (.take m v) s (fun t =>
      t.dev.twSt = twSolo ∧ evtBit t.dev Ev.TWN_TAKEOVER = true ∧
      bit (t.dev.rd R.TWN_TAKE_HI) 31 = (s.dev.twSt != twStandby) ∧
      t.dev.tw.frames = s.dev.tw.frames.filter (fun x =>
        decide (x.blk < firstLack s.dev.tw.frames s.dev.ownNext (s.dev.tw.frames.length + 1))) ∧ t.dev.rd R.TWN_TAKE_CNT = oneUp (s.dev.rd R.TWN_TAKE_CNT))) ∧
  (∀ s m v, Serves s m → s.dev.cap.twin = true → bit v 4 = true → (∀ k ∈ [0, 1, 3, 5], bit v k = false) → twSolo ≤ s.dev.twSt →
    Completes (.giveup m v) s (fun t =>
      t.dev.twSt = twFaulted ∧ t.dev.tw.own = true ∧ t.dev.tw.sw = none ∧ evtBit t.dev Ev.TWN_FAULT = true ∧
      t.dev.tw.tx = s.dev.tw.tx ++ [.fault 9 s.dev.nextDep] ∧
      t.dev.rd R.TWN_FAULT = w32 (2 ^ 31 + 9 * 2 ^ 24 + s.dev.nextDep % 2 ^ 24))) ∧
  (∀ s m v, Serves s m → s.dev.cap.twin = true → bit v 5 = true → (∀ k ∈ [0, 1, 3, 4], bit v k = false) →
    (s.dev.twSt = twDetached ∧ s.dev.fb F.STATUS_TWN_LINK = true) ∨ s.dev.twSt = twFaulted →
    Completes (.resync m v) s (fun t =>
      t.dev.twSt = twSyncing ∧ t.dev.f F.STATUS_TWN_PHASE = 1 ∧ t.dev.tw.own = false ∧ t.dev.tw.frames = [] ∧ t.dev.tw.chunks = [] ∧
      t.dev.rd R.TWN_XFER_TOTAL = 0#32 ∧ t.dev.rd R.TWN_XFER_DONE = 0#32)) ∧
  (∀ s h, TwinHears s h.good → s.dev.twSt = twHello → s.dev.fb F.TWN_CFG_SIDE = false → agrees s.dev h = true →
    h.props.st ≠ twActive → h.props.st ≠ twSolo →
    Completes (.hello h) s (fun t => t.dev.twSt = twActive ∧ t.dev.tw.peer = h.props.st)) ∧
  (∀ s h, TwinHears s h.good → s.dev.twSt = twHello → agrees s.dev h = true → (h.props.st = twActive ∨ h.props.st = twSolo) →
    Completes (.hello h) s (fun t => t.dev.twSt = twSyncing ∧ t.dev.f F.STATUS_TWN_PHASE = 1 ∧ t.dev.tw.peer = h.props.st)) ∧
  (∀ s h, TwinHears s h.good → s.dev.twSt = twSolo → agrees s.dev h = true → h.props.st = twSyncing →
    Completes (.hello h) s (fun t => t.dev.twSt = twActive ∧ t.dev.tw.wants = [(0, twTotal t.dev)] ∧ t.dev.tw.crcAt = 0)) ∧
  (∀ s h, TwinHears s h.good → s.dev.twSt = twHello → agrees s.dev h = false →
    Completes (.hello h) s (fun t => t.dev.twSt = twOff ∧ evtBit t.dev Ev.TWN_PAIR_ERR = true ∧
      t.dev.rd R.TWN_FAULT = w32 (2 ^ 31 + 10 * 2 ^ 24 + s.dev.nextDep % 2 ^ 24))) ∧
  (∀ s k, TwinHears s k.good → Completes (.mark k) s (fun t =>
    t.dev.tw.peer = k.st ∧ t.dev.fb F.STATUS_TWN_PEER_OK = k.ok)) ∧
  (∀ s k, TwinHears s k.good → s.dev.twSt = twStandby → k.st = twActive → s.dev.tw.markBlk ≠ some k.blk →
    (k.blk = s.dev.nextDep ∨ k.blk + 1 = s.dev.nextDep) → Completes (.mark k) s (fun t =>
      t.dev.f F.TWN_LINK_SKEW = unsgn 8 (sat 8 k.skew) ∧ t.dev.tw.markBlk = some k.blk ∧
      t.dev.tw.skewN = if k.skew.natAbs > 64 then s.dev.tw.skewN + 1 else 0)) ∧
  (∀ s k, TwinHears s k.good → s.dev.twSt = twActive → k.st = twOff ∨ k.st = twDetached → Completes (.mark k) s (fun t =>
    t.dev.twSt = twSolo)) ∧
  (∀ s k, TwinHears s k.good → s.dev.twSt = twStandby → k.st = twOff ∨ k.st = twHello ∨ k.st = twSolo → Completes (.mark k) s (fun t =>
    t.dev.twSt = twDetached)) ∧
  (∀ s h k a b c p u ws n n' w l, Awake s → s.dev.cap.twin = true → twHello ≤ s.dev.twSt →
    h.good = false → k.good = false → a.good = false → b.good = false → c.good = false → p.good = false → u.good = false →
    ∀ i ∈ [.hello h, .mark k, .ack a, .block b, .chunk c, .crcpass p, .bulk u, .health false ws, .check false n w l, .fault false n n',
        .switchFrame false n],
      Completes i s (fun t =>
        t.dev.tw = { s.dev.tw with lerr := s.dev.tw.lerr + 1 } ∧ t.mem = s.mem ∧
        t.dev.rd R.TWN_LINK_ERR_CNT = oneUp (s.dev.rd R.TWN_LINK_ERR_CNT))) ∧
  (∀ s blk, TwinHears s true → s.dev.twSt = twStandby → Completes (.switchFrame true blk) s (fun t =>
    t.dev.tw.sw = some blk ∧ t.dev.regs = s.dev.regs)) ∧
  (∀ s cause blk, TwinHears s true → (s.dev.twSt = twActive ∨ s.dev.twSt = twStandby) →
    Completes (.fault true cause blk) s (fun t =>
      t.dev.twSt = twSolo ∧ evtBit t.dev Ev.TWN_PEER_FAULT = true ∧
      t.dev.rd R.TWN_FAULT = w32 (3 * 2 ^ 30 + cause % 16 * 2 ^ 24 + blk % 2 ^ 24))) ∧
  (∀ s cause blk, TwinHears s true → s.dev.twSt = twSyncing →
    Completes (.fault true cause blk) s (fun t =>
      t.dev.twSt = (if s.dev.fb F.TWN_CFG_COLDTAKE then twSolo else twDetached) ∧ evtBit t.dev Ev.TWN_PEER_FAULT = true)) ∧
  (∀ s (lane : Fin 2), Awake s → s.dev.cap.twin = true → Completes (.ephamLinkUp lane) s (fun t =>
    t.dev.f F.TWN_LINK_RXUP = s.dev.f F.TWN_LINK_RXUP ||| 2 ^ lane.val ∧
    t.dev.fb F.STATUS_TWN_LINK = (t.dev.f F.TWN_LINK_RXUP == 3))) ∧
  (∀ s (lane : Fin 2), Awake s → s.dev.cap.twin = true → Completes (.ephamLinkDown lane) s (fun t =>
    t.dev.f F.TWN_LINK_RXUP = s.dev.f F.TWN_LINK_RXUP &&& (3 - 2 ^ lane.val) ∧ t.dev.fb F.STATUS_TWN_LINK = false)) ∧
  (∀ s h k g c blk (lane : Fin 2), Awake s → s.dev.cap.twin = false →
    ∀ i ∈ [.hello h, .mark k, .fault g c blk, .switchFrame g blk, .ephamLinkUp lane, .ephamLinkDown lane, .linkSilence, .markSend, .synced],
      Completes i s (fun t => t.dev.tw = s.dev.tw ∧ t.dev.regs = s.dev.regs))

/-- Twin checks and phases (12_twin.md R342, R346, R350, R351, R353, R354, R358 to R363). -/
def Obligations.TwinPhasesComplete : Prop :=
  (∀ s f, TwinHears s f.good → s.dev.twSt = twActive → Completes (.ack f) s (fun t =>
    t.dev.q = (List.range (min f.n 64)).foldl (fun q _ => q.round 300) s.dev.q ∧ t.dev.tw.wants = s.dev.tw.wants ++ f.wants ∧
    t.dev.tw.bulkPend = (match f.loaded with
      | some l => s.dev.tw.bulkPend.eraseP (fun c => c.loader == l)
      | none => s.dev.tw.bulkPend))) ∧
  (∀ s blk crc e, TwinHears s true → s.dev.twSt = twStandby → s.dev.tw.sums.find? (fun e => e.1 == blk) = some e →
    e.2.2 = false → e.2.1 = crc → Completes (.check true blk crc false) s (fun t =>
      t.dev.tw.mism = 0 ∧ t.dev.twSt = twStandby ∧ t.dev.rd R.TWN_MISM_CNT = s.dev.rd R.TWN_MISM_CNT)) ∧
  (∀ s blk crc e, TwinHears s true → s.dev.twSt = twStandby →
    s.dev.tw.sums.find? (fun e => e.1 == blk) = some e → e.2.2 = false → e.2.1 ≠ crc →
    Completes (.check true blk crc false) s (fun t =>
      evtBit t.dev Ev.TWN_MISMATCH = true ∧ t.dev.rd R.TWN_MISM_CNT = oneUp (s.dev.rd R.TWN_MISM_CNT) ∧
      t.dev.twSt = if max 1 (s.dev.f F.TWN_CFG_MISN) ≤ s.dev.tw.mism + 1 then twFaulted else twStandby)) ∧
  (∀ s blk crc e, TwinHears s true → s.dev.twSt = twSyncing → s.dev.f F.STATUS_TWN_PHASE = 4 →
    s.dev.tw.sums.find? (fun e => e.1 == blk) = some e → e.2.2 = false →
    Completes (.check true blk crc false) s (fun t =>
      t.dev.tw.confirm = (if e.2.1 = crc then s.dev.tw.confirm + 1 else 0) ∧
      t.dev.f F.STATUS_TWN_PHASE = if e.2.1 = crc then 4 else 2)) ∧
  (∀ s blk crc late e, TwinHears s true → s.dev.tw.sums.find? (fun e => e.1 == blk) = some e →
    (late = true ∨ e.2.2 = true) → Completes (.check true blk crc late) s (fun t =>
      t.dev.rd R.TWN_SKIP_CNT = oneUp (s.dev.rd R.TWN_SKIP_CNT) ∧ t.dev.tw = s.dev.tw)) ∧
  (∀ s ws (i : Fin 8), TwinHears s true → Completes (.health true ws) s (fun t =>
    t.dev.rd (R.TWN_PEER.at i) = ws.getD i 0#32 ∧ evtBit t.dev Ev.TWN_HEALTH = true ∧ t.dev.tw.peer = bits (ws.getD 7 0#32) 16 3)) ∧
  (∀ s, Awake s → s.dev.cap.twin = true → s.dev.twSt = twStandby → s.dev.fb F.TWN_CFG_LINKTAKE = true →
    Completes .linkSilence s (fun t => t.dev.twSt = twSolo ∧ evtBit t.dev Ev.TWN_TAKEOVER = true)) ∧
  (∀ s, Awake s → s.dev.cap.twin = true → twHello ≤ s.dev.twSt → Completes .markSend s (fun t =>
    t.dev.tw.tx = s.dev.tw.tx ++ [.mark (s.dev.rd64 R.DEP_IDX_LO R.DEP_IDX_HI)] ∧ t.dev.regs = s.dev.regs)) ∧
  (∀ s b c, Awake s → s.dev.cap.twin = true → twSolo ≤ s.dev.twSt → s.dev.tw.closeAt = some c → c ≤ b →
    Completes (.pinInstant b) s (fun t => t.dev.tw.gate = false ∧ t.dev.f F.STATUS_TWN_ACT_PIN = 0)) ∧
  (∀ s b o, Awake s → s.dev.cap.twin = true → twSolo ≤ s.dev.twSt → s.dev.tw.closeAt = none → s.dev.tw.openAt = some o → o ≤ b →
    Completes (.pinInstant b) s (fun t =>
      t.dev.tw.gate = true ∧ t.dev.tw.rampBlk = some b ∧ t.dev.f F.STATUS_TWN_ACT_PIN = 1)) ∧
  (∀ s, Awake s → s.dev.cap.twin = true → s.dev.twCopy = true → 64 ≤ s.dev.tw.skewN → Completes .clockSkewFault s (fun t =>
    t.dev.twSt = twFaulted ∧ t.dev.rd R.TWN_FAULT = w32 (2 ^ 31 + 8 * 2 ^ 24 + s.dev.nextDep % 2 ^ 24))) ∧
  (∀ s temp (i : Fin 8), Awake s → s.dev.cap.twin = true → twSolo ≤ s.dev.twSt → Completes (.healthReport temp) s (fun t =>
    t.dev.rd (R.TWN_HLTH.at i) = (healthWords temp s.dev).getD i 0#32 ∧
    t.dev.tw.tx = s.dev.tw.tx ++ [.health (healthWords temp s.dev)] ∧ t.dev.tw.ce = 0 ∧ t.dev.tw.lerr = 0)) ∧
  (∀ s, Awake s → s.dev.cap.twin = true → s.dev.twSt = twSyncing → s.dev.f F.STATUS_TWN_PHASE = 1 → s.dev.rd R.TWN_XFER_TOTAL ≠ 0#32 →
    (s.dev.rd R.TWN_XFER_TOTAL).toNat ≤ (s.dev.rd R.TWN_XFER_DONE).toNat → (s.dev.q.settle.get 300).balanced = true →
    Completes .transferEnd s (fun t => t.dev.f F.STATUS_TWN_PHASE = 2 ∧ t.dev.twSt = twSyncing)) ∧
  (∀ s, Awake s → s.dev.cap.twin = true → s.dev.twSt = twSyncing → s.dev.f F.STATUS_TWN_PHASE = 1 → s.dev.rd R.TWN_XFER_TOTAL ≠ 0#32 →
    (s.dev.rd R.TWN_XFER_TOTAL).toNat ≤ (s.dev.rd R.TWN_XFER_DONE).toNat → (s.dev.q.settle.get 300).balanced = false →
    Completes .transferEnd s (fun t =>
      t.dev.f F.STATUS_TWN_PHASE = 1 ∧ t.dev.rd R.TWN_XFER_DONE = 0#32 ∧ t.dev.tw.chunks = [] ∧
      evtBit t.dev Ev.TWN_XFER_ERR = true ∧ evtBit t.dev Ev.SYS_TKA_FAIL = true)) ∧
  (∀ s, Awake s → s.dev.cap.twin = true → s.dev.twSt = twSyncing → s.dev.f F.STATUS_TWN_PHASE = 3 → s.dev.tw.held = [] →
    Completes .catchupEnd s (fun t => t.dev.f F.STATUS_TWN_PHASE = 4 ∧ t.dev.tw.confirm = 0)) ∧
  (∀ s, Awake s → s.dev.cap.twin = true → s.dev.twSt = twSyncing → s.dev.f F.STATUS_TWN_PHASE = 4 → 64 ≤ s.dev.tw.confirm →
    Completes .synced s (fun t =>
      t.dev.twSt = twStandby ∧ t.dev.f F.STATUS_TWN_PHASE = 0 ∧ evtBit t.dev Ev.TWN_SYNCED = true)) ∧
  (∀ s c, TwinHears s c.good → s.dev.twSt = twSyncing → s.dev.f F.STATUS_TWN_PHASE = 2 → s.dev.ownNext ≤ c.blk →
    Completes (.crcpass c) s (fun t => t.dev.tw.crcs = s.dev.tw.crcs ++ [c] ∧ t.dev.regs = s.dev.regs)) ∧
  (∀ s c, TwinHears s c.good → s.dev.twSt = twSyncing → s.dev.f F.STATUS_TWN_PHASE ≠ 2 ∨ c.blk < s.dev.ownNext →
    Completes (.crcpass c) s (fun t => t.dev.tw = s.dev.tw ∧ t.dev.regs = s.dev.regs)) ∧
  (∀ s b, TwinHears s b.good → s.dev.twCopy = true → Completes (.bulk b) s (fun t =>
    t.dev.tw.bulk = s.dev.tw.bulk ++ [b] ∧ t.mem = s.mem)) ∧
  (∀ s b, TwinHears s b.good → s.dev.twCopy = true → s.dev.inMode mHalt = false →
    s.dev.tw.frames.all (fun g => decide (g.blk < b.blk)) = true →
    Completes (.block b) s (fun t => t.dev.tw.frames = s.dev.tw.frames ++ [b] ∧ t.mem = s.mem)) ∧
  (∀ s b, TwinHears s b.good → s.dev.twCopy = false → s.dev.tw.last = some b.blk →
    s.dev.tw.frames.all (fun g => decide (g.blk < b.blk)) = true →
    Completes (.block b) s (fun t => t.dev.tw.frames = s.dev.tw.frames ++ [b] ∧ t.mem = s.mem)) ∧
  (∀ s b, TwinHears s b.good → s.dev.twCopy = true → s.dev.inMode mHalt = false →
    s.dev.tw.frames.any (fun g => decide (b.blk ≤ g.blk)) = true →
    Completes (.block b) s (fun t => t.dev.tw.frames = s.dev.tw.frames ∧ t.mem = s.mem)) ∧
  (∀ s c, TwinHears s c.good → s.dev.twSt = twSyncing → s.dev.ownNext ≤ c.blk → Completes (.chunk c) s (fun t =>
    t.dev.tw.chunks = s.dev.tw.chunks ++ [c] ∧ t.dev.rd R.TWN_XFER_TOTAL = w32 c.total)) ∧
  (∀ s c, TwinHears s c.good → s.dev.twSt = twSyncing → c.blk < s.dev.ownNext → Completes (.chunk c) s (fun t =>
    t.dev.tw.chunks = s.dev.tw.chunks ∧ t.dev.rd R.TWN_RESEND_CNT = oneUp (s.dev.rd R.TWN_RESEND_CNT) ∧
    t.dev.tw.tx = s.dev.tw.tx ++ [.ack 1 none [(c.no, 1)]])) ∧
  (∀ s cyc ecc b own rest, Awake s → s.dev.cap.twin = true → s.dev.tw.held = (b, own) :: rest → b + s.dev.twLag < s.dev.nextDep →
    ((s.dev.twCopy = false ∧ s.dev.tw.last ≠ some b) ∨ s.dev.tw.frames.any (fun f => f.blk == b) = true) →
    Completes (.standbyDeparture cyc ecc) s (fun t =>
      t = s.onAll (fun w => (haltFrames (twRender b cyc ecc own w)).onDev (twOrder s.dev.tw.tx.length)))) ∧
  (∀ s cyc ecc b own rest, Awake s → s.dev.cap.twin = true → s.dev.tw.held = (b, own) :: rest →
    (s.dev.nextDep ≤ b + s.dev.twLag ∨
      ((s.dev.twCopy = true ∨ s.dev.tw.last = some b) ∧ s.dev.tw.frames.any (fun f => f.blk == b) = false)) →
    Completes (.standbyDeparture cyc ecc) s (fun t => t.dev.tw = s.dev.tw ∧ t.mem = s.mem)) ∧
  (∀ s m v r, Serves s m → s.dev.cap.twin = true → bit v 0 = true →
    r ∈ [R.TWN_MISM_CNT, R.TWN_SKIP_CNT, R.TWN_TAKE_CNT, R.TWN_LINK_ERR_CNT, R.TWN_RESEND_CNT, R.TWN_WR_IGN_CNT] →
    Completes (.twnCntClr m v) s (fun t => t.dev.rd r = 0#32))

/-- Frames on the Epham link, and what VERIFY makes of a CRCPASS frame at its block (12_twin.md R341, R342, R361, R363, R366). A frame is MAGIC 0xE9A1 and TYPE in its first word, then the rest of the header and the payload,
then the CRC-32C of all before it; the frames that one event gives are put in the order of priority, and none is lost or changes places with
one of its own type. Chunks that differ are counted and requested, and the last chunk of a pass ends it: two passes in a row without a mismatch end
VERIFY, and the next pass has applied no chunk. -/
def Obligations.TwinWire : Prop :=
  (∀ (f : TwinFrame) (seq : Word),
    (f.wire seq).length = 4 * f.payload.length + 20 ∧
    (f.wire seq).take 4 = [0x00#8, BitVec.ofNat 8 f.type, 0xA1#8, 0xE9#8] ∧
    ((f.wire seq).drop 12).take 4 = wordBytes seq ∧
    (f.wire seq).drop (4 * f.payload.length + 16) = wordBytes (crc32c ((f.wire seq).take (4 * f.payload.length + 16)))) ∧
  (∀ fs : List TwinFrame,
    (prioSort fs).Perm fs ∧ (prioSort fs).Pairwise (fun f g => f.prio ≤ g.prio) ∧
    ∀ k, (prioSort fs).filter (fun f => f.type == k) = fs.filter (fun f => f.type == k)) ∧
  (∀ w c, w.dev.twSt = twSyncing → w.dev.f F.STATUS_TWN_PHASE = 2 → c.first = w.dev.tw.crcPos → 0 < c.first → c.last = true →
    let t := crcCompare w c
    let bad := w.dev.tw.passBad + (crcDiff c w).length
    t.mem = w.mem ∧ t.dev.f F.TWN_VERIFY_MISM = min bad (2 ^ 24 - 1) ∧ t.dev.rd R.TWN_XFER_DONE = 0#32 ∧ t.dev.tw.passBad = 0 ∧
    t.dev.f F.TWN_VERIFY_CLEAN = (if bad = 0 then min 15 (w.dev.f F.TWN_VERIFY_CLEAN + 1) else 0) ∧
    t.dev.f F.STATUS_TWN_PHASE = (if bad = 0 ∧ 1 ≤ w.dev.f F.TWN_VERIFY_CLEAN then 3 else 2) ∧
    (crcDiff c w ≠ [] → t.dev.tw.tx = w.dev.tw.tx ++ [.ack 0 none ((crcDiff c w).map (fun k => (k, 1)))])) ∧
  (∀ w c, w.dev.twSt = twSyncing → w.dev.f F.STATUS_TWN_PHASE = 2 → c.first = w.dev.tw.crcPos → 0 < c.first → c.last = false →
    let t := crcCompare w c
    t.mem = w.mem ∧ t.dev.tw.passBad = w.dev.tw.passBad + (crcDiff c w).length ∧ t.dev.tw.crcPos = c.first + c.crcs.length ∧
    t.dev.regs = w.dev.regs)

/-- The segments that the controller's next `n` are (13_memory.md R382). -/
abbrev Sys2Proof.zeroed (s : State) (n : Nat) : List Nat := ((List.range 8).filter (fun k => s.dev.ms.zeroing.contains k)).take n

/-- The area that a self-check of DRAM accesses, where it accesses one, answers with data (13_memory.md R380 to R382). -/
abbrev Sys2Proof.TopSegReady (s : State) : Prop := ∀ x, s.dev.checkArea 10 = some x → s.dev.drAns x.1 = .data

/-- The memory system (13_memory.md R367 to R388; 12_twin.md R360): scrubbing, the remap switch, the self-check, segments, training and
tracking, the DRAM queue, a copy's self-tests and the counters. -/
def Obligations.MemorySystemComplete : Prop :=
  (∀ s st w err, Awake s → s.dev.scrubs = true → st < 8 → w < storeWords st → Completes (.scrubVisit st w err) s (fun t =>
    t.dev.rd R.MS_SCRUB_POS = w32 (st * 2 ^ 28 + w * 65536 / storeWords st) ∧
    (err = 1 → evtBit t.dev Ev.MS_CE = true ∧ t.dev.rd (R.MS_CE_CNT.at st) = oneUp (s.dev.rd (R.MS_CE_CNT.at st))) ∧
    (err = 2 → evtBit t.dev Ev.MS_UE = true ∧ (st ≠ 1 → (st, w) ∈ t.dev.ms.bad) ∧
      (st = 1 → t.dev.crm.node (w / 2 % 1024) (w / 2 / 1024) = { Node.zero with eccx := true })))) ∧
  (∀ s st w err, Awake s → s.dev.scrubs = false → Completes (.scrubVisit st w err) s (fun t =>
    t.dev.ms = s.dev.ms ∧ t.dev.regs = s.dev.regs)) ∧
  (∀ s m v, Serves s m → (4 ≤ m.num ∧ m.num ≤ 7 ∨ m.num = 31) → Completes (.msRemapWrite m v) s (fun t =>
    t.dev.f F.MS_REMAP_SWAP = bits v 0 1)) ∧
  (∀ s m v, Serves s m → (m.num < 4 ∨ (7 < m.num ∧ m.num ≠ 31)) → Completes (.msRemapWrite m v) s (fun t =>
    t.dev.f F.MS_REMAP_SWAP = s.dev.f F.MS_REMAP_SWAP)) ∧
  (∀ s res, Awake s → s.dev.checks = true → (∀ r ∈ res, r.1 = true ∧ r.2 ≤ 4096) → AllGood s [] 0x30000000 16 → TopSegReady s →
    Completes (.selfCheck res) s (fun t => t.dev.f F.MS_SCHK_LAST_OK = 1 ∧ t.dev.f F.STATUS_MS_SCHK_OK = 1 ∧
      ∀ k a n i, k < 14 → s.dev.checkArea k = some (a, n, true) → i < n → Memory.rd8 t.mem (a + i) = Config.selfCheckPattern (a + i))) ∧
  (∀ s res (k : Nat) r, Awake s → s.dev.checks = true → k < 14 → (k = 10 → s.dev.topSeg ≠ none) → res[k]? = some r →
    (r.1 = false ∨ 4096 < r.2) → Completes (.selfCheck res) s (fun t =>
      t.dev.f F.MS_SCHK_LAST_OK = 0 ∧ evtBit t.dev Ev.MS_SCHK_FAIL = true)) ∧
  (∀ s m v k, Serves s m → s.dev.cap.dram = true → s.dev.inMode mShunt = true → k < 8 → Completes (.drSegWrite m v) s (fun t =>
      t.dev.f F.DR_SEG_USE = bits v 0 8 ∧ (bit v k = false → (t.dev.f F.DR_STATUS_VALID >>> k) % 2 = 0) ∧
      (bit v k = true → (s.dev.f F.DR_SEG_USE >>> k) % 2 = 0 → k ∈ t.dev.ms.zeroing ∧ t.dev.f F.DR_STATUS_INIT_BUSY = 1) ∧
      (bit v k = true → (s.dev.f F.DR_SEG_USE >>> k) % 2 = 1 →
        (t.dev.f F.DR_STATUS_VALID >>> k) % 2 = (s.dev.f F.DR_STATUS_VALID >>> k) % 2))) ∧
  (∀ s m v, Serves s m → (s.dev.cap.dram = false ∨ s.dev.inMode mShunt = false) → Completes (.drSegWrite m v) s (fun t =>
      MsKept s t ∧ t.dev.regs = s.dev.regs)) ∧
  (∀ s n k, Awake s → s.dev.f F.DR_STATUS_STATE = drReady → k ∈ zeroed s n → Completes (.drInitDone n) s (fun t =>
    k ∉ t.dev.ms.zeroing ∧ (t.dev.f F.DR_STATUS_VALID >>> k) % 2 = 1 ∧
    (∀ i < s.dev.segBytes, Memory.rd8 t.mem (drBase + k * s.dev.segBytes + i) = 0#8) ∧
    ((∀ j ∈ s.dev.ms.zeroing, j ∈ zeroed s n) → t.dev.f F.DR_STATUS_INIT_BUSY = 0 ∧ evtBit t.dev Ev.MS_DR_INIT_DONE = true))) ∧
  (∀ s n, Awake s → (zeroed s n = [] ∨ s.dev.f F.DR_STATUS_STATE ≠ drReady) → Completes (.drInitDone n) s (fun t =>
    t.dev.ms = s.dev.ms ∧ t.dev.regs = s.dev.regs ∧ t.mem = s.mem)) ∧
  (∀ s gib lanes, Awake s → s.dev.cap.dram = true → s.dev.f F.DR_STATUS_STATE = drTraining → lanes.length = 4 →
    Completes (.drTrainDone gib lanes) s (fun t =>
      t.dev.f F.DR_STATUS_STATE = (if lanes.all (fun w => decide (16 ≤ bits w 16 8) && decide (16 ≤ bits w 24 8)) then drReady else drFail) ∧
      evtBit t.dev Ev.MS_DR_TRAIN_DONE = true ∧ t.dev.rd R.DR_CFG = w32 (7 * gib * 2 ^ 8 + gib % 16) ∧
      (∀ l : Fin 4, t.dev.rd (R.DR_TRN.at l) = lanes.getD l.val 0#32) ∧ t.dev.ms.drift = [])) ∧
  (∀ s r q, Awake s → s.dev.cap.dram = true → drServed s r = some q → q.port = 2 → q.refuse = false → s.dev.drAns q.addr = .data →
    (q.write = false → AllGood s r.ecc q.addr q.size) → Completes (.dramRequest r) s (fun t =>
      (q.write = true → t.mem = putBytes q.addr q.data s.mem ∧ t.dev.resp = ⟨[], false⟩) ∧
      (q.write = false → t.mem = s.mem ∧ t.dev.resp = ⟨Memory.rdWords s.mem q.addr ((q.size + 3) / 4), false⟩))) ∧
  (∀ s r q, Awake s → s.dev.cap.dram = true → drServed s r = some q → q.port = 2 →
    (q.refuse = true ∨ s.dev.drAns q.addr ≠ .data ∨ (q.write = false ∧ ¬ AllGood s r.ecc q.addr q.size)) →
    Completes (.dramRequest r) s (fun t => t.mem = s.mem ∧ t.dev.resp = ⟨[], true⟩ ∧
      (q.refuse = false → s.dev.drAns q.addr = .invalid → evtBit t.dev Ev.MS_DR_INVAL = true ∧
        t.dev.rd R.DR_INVAL_CNT = oneUp (s.dev.rd R.DR_INVAL_CNT)))) ∧
  (∀ s r q, Awake s → s.dev.cap.dram = true → drServed s r = some q → q.port < 2 → q.refuse = false → s.dev.drAns q.addr = .data →
    Completes (.dramRequest r) s (fun t => t.mem = if q.write then putBytes q.addr q.data s.mem else s.mem)) ∧
  (∀ s r, Awake s → s.dev.cap.dram = true → drServed s r = none → Completes (.dramRequest r) s (fun t => t.mem = s.mem)) ∧
  (∀ s steps l, Awake s → s.dev.f F.DR_STATUS_STATE = drReady → l < 4 → Completes (.dramTrack steps) s (fun t =>
    Tbl.getD t.dev.ms.drift (2 * l) 0 = Tbl.getD s.dev.ms.drift (2 * l) 0 + max (-1) (min 1 ((steps[l]?).getD (0, 0)).1) ∧
    Tbl.getD t.dev.ms.drift (2 * l + 1) 0 = Tbl.getD s.dev.ms.drift (2 * l + 1) 0 + max (-1) (min 1 ((steps[l]?).getD (0, 0)).2) ∧
    (s.dev.laneLost l = false → t.dev.laneLost l = true → t.dev.f F.DR_STATUS_TRAIN_LOST = 1 ∧
      evtBit t.dev Ev.MS_DR_TRAIN_LOST = true))) ∧
  (∀ s m v, Serves s m → s.dev.cap.dram = true → bit v 0 = true → s.dev.inMode mShunt = true → s.dev.f F.DR_STATUS_STATE ≠ 0 →
    Completes (.retrain m v) s (fun t => t.dev.f F.DR_STATUS_STATE = drTraining ∧ MsKept s t)) ∧
  (∀ s m v, Serves s m → (s.dev.cap.dram = false ∨ bit v 0 = false ∨ s.dev.inMode mShunt = false) →
    Completes (.retrain m v) s (fun t => MsKept s t ∧ t.dev.regs = s.dev.regs)) ∧
  (∀ s m v r o, Serves s m → bit v 0 = true → r ∈ [R.MS_SCHK_FAIL_CNT, R.MS_UE_CNT, R.MS_UE_INFO, R.TG_WAIT_PEAK,
      R.DR_INORDER_CNT, R.DR_CE_CNT, R.DR_UE_CNT, R.DR_INVAL_CNT] → o < 65536 →
    Completes (.msCntClr m v) s (fun t => t.dev.rd (r.of o) = 0#32 ∧ t.dev.ms.reqs = [])) ∧
  (∀ s, Awake s → s.dev.cap.twin = true → s.dev.twCopy = true → s.dev.patternAt ≠ none → Completes (.dramPatternTest false) s (fun t =>
    t.dev.twSt = twFaulted ∧ t.dev.rd R.TWN_FAULT = w32 (2 ^ 31 + 6 * 2 ^ 24 + s.dev.nextDep % 2 ^ 24) ∧
    t.dev.tw.pat = s.dev.tw.pat + 1)) ∧
  (∀ s a, Awake s → s.dev.twCopy = true → s.dev.patternAt = some a → Completes (.dramPatternTest true) s (fun t =>
    t.dev.tw = s.dev.tw ∧ t.dev.regs = s.dev.regs ∧ ∀ i, i < 2 ^ 20 → Memory.rd8 t.mem (a + i) = Config.selfCheckPattern (a + i))) ∧
  (∀ s good, Awake s → (s.dev.twCopy = false ∨ s.dev.patternAt = none) → Completes (.dramPatternTest good) s (fun t =>
    t.mem = s.mem ∧ t.dev.tw = s.dev.tw ∧ t.dev.regs = s.dev.regs)) ∧
  (∀ s (e : Fin 16), Awake s → s.dev.twCopy = true → e.val < s.dev.cap.engines → (s.dev.vf.get e).run = false →
    Completes (.builtInTest e true) s (fun t =>
      t.dev.tw.tested = s.dev.tw.tested ||| 2 ^ e.val ∧ t.dev.tw.passed = s.dev.tw.passed ||| 2 ^ e.val ∧ t.dev.vf = s.dev.vf)) ∧
  (∀ s (e : Fin 16), Awake s → s.dev.cap.twin = true → s.dev.twCopy = true → e.val < s.dev.cap.engines →
    (s.dev.vf.get e).run = false → Completes (.builtInTest e false) s (fun t =>
      t.dev.tw.tested = s.dev.tw.tested ||| 2 ^ e.val ∧ t.dev.tw.passed = s.dev.tw.passed &&& (0xFFFF - 2 ^ e.val) ∧
      t.dev.twSt = twFaulted))

/-- No lock is owned by an agent of `as`, and mailbox `x`, which an agent of `as` received, is empty with CAUSE 2. -/
abbrev Sys2Proof.SideGone (as : List Nat) (t : State) : Prop := ∀ e ∈ t.dev.hi.locks, e.2 ∉ as
abbrev Sys2Proof.Flushed (x : Nat) (t : State) : Prop := (t.dev.mbx x).occ = false ∧ (t.dev.mbx x).cause = 2 ∧ (t.dev.mbx x).words = []

/-- Mailboxes (14_host_mailboxes.md R396 to R402, R406): staging, doorbell, acknowledgement, timeout, audit, held messages. -/
def Obligations.MailboxesComplete : Prop :=
  (∀ s m (k : Fin 16) v, Serves s m → s.dev.mbSel m < 32 → s.dev.sender (s.dev.mbSel m) = m.num →
    Completes (.mbStageWrite m k v) s (fun t => t.dev.staged (R.MB_W.at k) m = v ∧ t.dev.hi = s.dev.hi)) ∧
  (∀ s m (k : Fin 16) v, Serves s m → (32 ≤ s.dev.mbSel m ∨ s.dev.sender (s.dev.mbSel m) ≠ m.num) →
    Completes (.mbStageWrite m k v) s (fun t => t.dev.stg = s.dev.stg ∧ t.dev.hi = s.dev.hi ∧ t.dev.regs = s.dev.regs)) ∧
  (∀ s m v, Serves s m → let x := s.dev.mbSel m
    x < 32 → s.dev.sender x = m.num → m.num ≠ 0 → s.dev.receiver x ≠ 0 → (s.dev.mbx x).occ = false → bits v 0 5 ≠ 0 → bits v 0 5 ≤ 16 →
    Completes (.mbDb m v) s (fun t =>
      (t.dev.mbx x).occ = true ∧
      (t.dev.mbx x).words = (List.range (bits v 0 5)).map (fun k => s.dev.staged (R.MB_W.at k) m) ∧
      t.dev.rd (R.MB_POSTED.of x) = s.dev.rd (R.MB_POSTED.of x) + 1#32)) ∧
  (∀ s m v, Serves s m → let x := s.dev.mbSel m
    x < 32 → (s.dev.sender x = 0 ∨ s.dev.receiver x = 0 ∨
      (s.dev.sender x = m.num ∧ ((s.dev.mbx x).occ = true ∨ bits v 0 5 = 0 ∨ 16 < bits v 0 5))) → Completes (.mbDb m v) s (fun t =>
      t.dev.hi.mb = s.dev.hi.mb ∧ evtBit t.dev Ev.MBX_REFUSED = true ∧
      t.dev.rd (R.MB_REF_CNT.of x) = oneUp (s.dev.rd (R.MB_REF_CNT.of x)))) ∧
  (∀ s m v, Serves s m → let x := s.dev.mbSel m
    (32 ≤ x ∨ (s.dev.sender x ≠ 0 ∧ s.dev.receiver x ≠ 0 ∧ s.dev.sender x ≠ m.num)) → Completes (.mbDb m v) s (fun t =>
      t.dev.hi = s.dev.hi ∧ t.dev.regs = s.dev.regs)) ∧
  (∀ s m v, Serves s m → let x := s.dev.mbSel m
    x < 32 → s.dev.receiver x = m.num → (s.dev.mbx x).occ = true → Completes (.mbAck m v) s (fun t =>
      (t.dev.mbx x).occ = false ∧ (t.dev.mbx x).cause = 1 ∧ (t.dev.mbx x).words = [] ∧
      t.dev.rd (R.MB_READ.of x) = s.dev.rd (R.MB_READ.of x) + 1#32)) ∧
  (∀ s m v, Serves s m → let x := s.dev.mbSel m
    (32 ≤ x ∨ s.dev.receiver x ≠ m.num ∨ (s.dev.mbx x).occ = false) → Completes (.mbAck m v) s (fun t =>
      t.dev.hi = s.dev.hi ∧ t.dev.regs = s.dev.regs)) ∧
  (∀ s (x : Fin 32), Awake s → (s.dev.mbx x).occ = true → (s.dev.mbx x).tout = false → bits (s.dev.mbCfg x) 16 16 ≠ 0 →
    Completes (.mbTimeout x) s (fun t => t.dev.mbx x = { s.dev.mbx x with tout := true })) ∧
  (∀ s (x : Fin 32), Awake s → ((s.dev.mbx x).occ = false ∨ bits (s.dev.mbCfg x) 16 16 = 0) →
    Completes (.mbTimeout x) s (fun t => t.dev.hi = s.dev.hi ∧ t.dev.regs = s.dev.regs)) ∧
  (∀ s, Awake s → (∀ x : Fin 32, s.dev.mbOk x = true) → Completes .mbAudit s (fun t =>
    t.dev.f F.MB_AUD_STATUS_LAST_OK = 1 ∧ t.dev.f F.MB_AUD_STATUS_FAIL_COUNT = s.dev.f F.MB_AUD_STATUS_FAIL_COUNT)) ∧
  (∀ s (x : Fin 32), Awake s → s.dev.mbOk x = false → Completes .mbAudit s (fun t =>
    t.dev.f F.MB_AUD_STATUS_LAST_OK = 0 ∧ bit (t.dev.rd R.MB_AUD_FMAP) x = true ∧ evtBit t.dev Ev.MBX_AUDIT = true)) ∧
  (∀ s m v o, Serves s m → bit v 0 = true → o < 65536 → Completes (.mbCntClr m v) s (fun t =>
    t.dev.rd (R.MB_REF_CNT.of o) = 0#32 ∧ t.dev.f F.MB_AUD_STATUS_FAIL_COUNT = 0 ∧ t.dev.hi = s.dev.hi)) ∧
  (∀ s (x : Fin 32) ws rest, Awake s → (s.dev.mbx x).occ = false → Tbl.getD s.dev.hi.lost x 0 = 0 → s.dev.heldOf x = ws :: rest →
    Completes (.heldReplyPost x) s (fun t =>
      (t.dev.mbx x).occ = true ∧ (t.dev.mbx x).words = ws ∧ t.dev.heldOf x = rest ∧
      t.dev.rd (R.MB_POSTED.of x) = s.dev.rd (R.MB_POSTED.of x) + 1#32)) ∧
  (∀ s (x : Fin 32), Awake s → (s.dev.mbx x).occ = true → Completes (.heldReplyPost x) s (fun t =>
    t.dev.hi = s.dev.hi ∧ t.dev.regs = s.dev.regs)) ∧
  (∀ s (x : Fin 32) n, Awake s → (s.dev.mbx x).occ = false → Tbl.getD s.dev.hi.lost x 0 = n → n ≠ 0 →
    Completes (.heldReplyPost x) s (fun t =>
      (t.dev.mbx x).occ = true ∧ (t.dev.mbx x).words = [msgHead 0 0 1 0x8002, w32 n] ∧ t.dev.heldOf x = s.dev.heldOf x))

/-- Host links, locks, GPIO and the QSPI master (14_host_mailboxes.md R389, R395, R401, R404, R409). -/
def Obligations.HostSideComplete : Prop :=
  (∀ s (kind : Fin 4), Awake s → Completes (.pcieReset kind) s (fun t =>
    SideGone [1] t ∧ (kind = 0 → t.dev.f F.STATUS_HIF_LINK = 0) ∧ (∀ j : Fin 1024, t.dev.msix.word j = msixRst j) ∧
    ∀ x, x < 32 → (s.dev.mbx x).occ = true → s.dev.receiver x = 1 → Flushed x t)) ∧
  (∀ s up (speed : Fin 4) (width : Fin 3), Awake s → Completes (.pcieLink up speed width) s (fun t =>
    bits (t.dev.rd R.STATUS_HIF) 0 5 = (if up then 1 + speed.val * 2 + width.val * 8 else 0) ∧
    evtBit t.dev Ev.HIF_PCIE_LINK = true ∧ (up = false → SideGone [1] t))) ∧
  (∀ s m v, Serves s m → (m.num = 2 ∨ m.num = 3) → bit v 0 = true → Completes (.sideRst m v) s (fun t =>
    SideGone [m.num] t ∧ ∀ x, x < 32 → (s.dev.mbx x).occ = true → s.dev.receiver x = m.num → Flushed x t)) ∧
  (∀ s m v, Serves s m → ((m.num ≠ 2 ∧ m.num ≠ 3) ∨ bit v 0 = false) → Completes (.sideRst m v) s (fun t =>
    t.dev.hi = s.dev.hi ∧ t.dev.regs = s.dev.regs)) ∧
  (∀ s (k : Fin 4) wdog, Awake s → Completes (.stationCoreReset k wdog) s (fun t =>
    SideGone [4 + k.val] t ∧ ∀ x, x < 32 → (s.dev.mbx x).occ = true → s.dev.receiver x = 4 + k.val → Flushed x t)) ∧
  (∀ s m v, Serves s m → qsAgent m = true → bit v 31 = true → Completes (.qsCmdGo m v) s (fun t =>
    t.dev.rd R.QS_CMD = v &&& 0x7F1FFFFF#32 ∧ t.dev.f F.QS_STAT_BUSY = 1)) ∧
  (∀ s m v, Serves s m → qsAgent m = false → Completes (.qsCmdGo m v) s (fun t => t.dev.hi = s.dev.hi ∧ t.dev.regs = s.dev.regs)) ∧
  (∀ s bs good, Awake s → s.dev.fb F.QS_STAT_BUSY = true → s.dev.hi.qs = none → s.dev.fb F.QS_CMD_WRITE = false →
    s.dev.hi.fifo.length + (min bs.length (s.dev.f F.QS_CMD_LEN) + 3) / 4 ≤ 64 → Completes (.qsDone bs good) s (fun t =>
    t.dev.f F.QS_STAT_BUSY = 0 ∧ t.dev.hi.fifo = s.dev.hi.fifo ++ wordsOf (bs.take (s.dev.f F.QS_CMD_LEN)) ∧ t.dev.hi.qs = none ∧
    evtBit t.dev (if good then Ev.HIF_QS_DONE else Ev.HIF_QS_ERR) = true)) ∧
  (∀ s bs good, Awake s → s.dev.fb F.QS_STAT_BUSY = true → s.dev.hi.qs = none → s.dev.fb F.QS_CMD_WRITE = false →
    s.dev.hi.fifo.length ≤ 64 → 64 < s.dev.hi.fifo.length + (min bs.length (s.dev.f F.QS_CMD_LEN) + 3) / 4 →
    Completes (.qsDone bs good) s (fun t =>
      t.dev.fb F.QS_STAT_BUSY = true ∧ t.dev.hi.qs.map (fun q => q.ins) = some ((wordsOf (bs.take (s.dev.f F.QS_CMD_LEN))).drop (64 - s.dev.hi.fifo.length)) ∧
      t.dev.hi.fifo = s.dev.hi.fifo ++ (wordsOf (bs.take (s.dev.f F.QS_CMD_LEN))).take (64 - s.dev.hi.fifo.length))) ∧
  (∀ s bs good, Awake s → s.dev.fb F.QS_STAT_BUSY = true → s.dev.hi.qs = none → s.dev.fb F.QS_CMD_WRITE = true →
    (s.dev.f F.QS_CMD_LEN + 3) / 4 ≤ s.dev.hi.fifo.length → Completes (.qsDone bs good) s (fun t =>
      t.dev.f F.QS_STAT_BUSY = 0 ∧ t.dev.hi.fifo = s.dev.hi.fifo.drop ((s.dev.f F.QS_CMD_LEN + 3) / 4) ∧
      evtBit t.dev (if good then Ev.HIF_QS_DONE else Ev.HIF_QS_ERR) = true)) ∧
  (∀ s bs good, Awake s → s.dev.fb F.QS_STAT_BUSY = true → s.dev.hi.qs = none → s.dev.fb F.QS_CMD_WRITE = true →
    s.dev.hi.fifo.length < (s.dev.f F.QS_CMD_LEN + 3) / 4 → Completes (.qsDone bs good) s (fun t =>
      t.dev.fb F.QS_STAT_BUSY = true ∧ t.dev.hi.fifo = [] ∧
      t.dev.hi.qs = some ⟨[], (s.dev.f F.QS_CMD_LEN + 3) / 4 - s.dev.hi.fifo.length, good⟩)) ∧
  (∀ s bs good, Awake s → (s.dev.fb F.QS_STAT_BUSY = false ∨ s.dev.hi.qs ≠ none) → Completes (.qsDone bs good) s (fun t =>
    t.dev.hi = s.dev.hi ∧ t.dev.regs = s.dev.regs)) ∧
  (∀ s m (k : Fin 64), Serves s m → s.dev.owner k = 0 → Completes (.lockRead m k) s (fun t =>
    t.dev.owner k = m.num ∧ t.dev.resp = ⟨[0#32], false⟩)) ∧
  (∀ s m (k : Fin 64), Serves s m → s.dev.owner k ≠ 0 → Completes (.lockRead m k) s (fun t =>
    t.dev.hi = s.dev.hi ∧ t.dev.resp = ⟨[w32 (s.dev.owner k)], false⟩)) ∧
  (∀ s m (k : Fin 64), Serves s m → s.dev.owner k = m.num → Completes (.lockWrite m k 0#32) s (fun t =>
    t.dev.owner k = 0 ∧ t.dev.regs = s.dev.regs)) ∧
  (∀ s m (k : Fin 64) v, Serves s m → (v ≠ 0#32 ∨ s.dev.owner k ≠ m.num) → Completes (.lockWrite m k v) s (fun t =>
    t.dev.hi = s.dev.hi ∧ evtBit t.dev Ev.MBX_LK_ERR = true)) ∧
  (∀ s (pin : Fin 32) rising, Awake s → Completes (.gpioEdge pin rising) s (fun t =>
    bit (t.dev.rd R.GPIO_IN) pin = rising ∧
    (bit (s.dev.rd R.GPIO_OE) pin = false → bit (s.dev.rd (if rising then R.GPIO_RISE else R.GPIO_FALL)) pin = true →
      bit (t.dev.rd R.GPIO_EVT) pin = true)))

/-- Host `h` has the command `c` with the argument words `args` in its mailbox, of code `code` and the right LEN; firmware runs, owes this
host no reply, waits for no sent frame, and the reply mailbox is empty (14_host_mailboxes.md R405, R406). -/
abbrev Sys2Proof.Asks (s : State) (h : Fin 3) (code : Nat) (c : Word) (args : List Word) : Prop :=
  Awake s ∧ s.dev.fwUp = true ∧ s.dev.hi.txWait = [] ∧ s.dev.owes h = false ∧ (s.dev.mbx (3 * h.val)).occ = true ∧
  (s.dev.mbx (3 * h.val)).words = c :: args ∧ (s.dev.mbx (3 * h.val + 1)).occ = false ∧ bits c 0 16 = code ∧ bits c 16 5 = args.length

/-- The command has been read, and the reply with its tag and code, status `st` and words `ws` stands in the reply mailbox. -/
abbrev Sys2Proof.Answered (t : State) (h : Fin 3) (code : Nat) (c : Word) (st : Nat) (ws : List Word) : Prop :=
  (t.dev.mbx (3 * h.val)).occ = false ∧ (t.dev.mbx (3 * h.val + 1)).occ = true ∧
  (t.dev.mbx (3 * h.val + 1)).words = msgHead (bits c 24 8) st ws.length code :: ws

/-- SET_MODE with the mode `goal` and the ramp `t`: the request that firmware writes, as core 0, with REQ_IGN clear before (R407; 16_modes_power.md R441). -/
def Sys2Proof.modeAsked (s : State) (h : Fin 3) (goal t : Nat) : Dev :=
  modeReqBy (.station 0) (w32 (goal + t * 2 ^ 8)) ((mbTake (3 * h.val) s.dev).clrBit R.EVT_SYS Ev.SYS_REQ_IGN.bit)

/-- SET_MODE with Mainline: the resume index stands in its registers first. -/
def Sys2Proof.resumeAsked (s : State) (h : Fin 3) (k : Nat) : Dev :=
  modeReqBy (.station 0) (w32 mMainline)
    (((mbTake (3 * h.val) s.dev).wr64 R.SYS_RESUME_AT_LO R.SYS_RESUME_AT_HI (32 * k)).clrBit R.EVT_SYS Ev.SYS_REQ_IGN.bit)

/-- Every target of the `a1` bytes from the address of the words `a2` and `a3`, as far as a command may move, serves firmware's core (13_memory.md
R377). -/
abbrev Sys2Proof.FwReaches (s : State) (a1 a2 a3 : Word) : Prop := s.dev.reach 0 (pair a2 a3) (min a1.toNat 65536) = true

/-- Firmware may write the `n` bytes from `a`: no refused store, no copy's mirrored window, no uncorrectable word (13_memory.md R368, R369). -/
abbrev Sys2Proof.FwStores (s : State) (ecc : List EccHit) (a n : Nat) : Prop :=
  s.dev.wrRefused a = false ∧ s.dev.twCopy = false ∧ AllGood s ecc a n

/-- Host commands of identification, mode and loading (14_host_mailboxes.md R405 to R407; 15_consist_boot.md R436, R437). -/
def Obligations.HostCommandsComplete : Prop :=
  (∀ s h c args, Asks s h 0x01 c args → Completes (.ping h) s (fun t => Answered t h 0x01 c 0 args)) ∧
  (∀ s h c, Asks s h 0x02 c [] → Completes (.getInfo h) s (fun t =>
    Answered t h 0x02 c 0 [s.dev.hi.fwVer, w32 (bits (s.dev.rd R.SYS_CAPS) 24 8), w32 (bits (s.dev.rd R.SYS_REV) 0 8),
      s.dev.rd R.CFG_CHECK])) ∧
  (∀ s h c, Asks s h 0x03 c [] → Completes (.getStatus h) s (fun t =>
    Answered t h 0x03 c 0 [w32 s.dev.mode, w32 (s.dev.f F.CFG_FAIL_CAUSE), w32 s.dev.twSt, (mbTake (3 * h.val) s.dev).evtSum])) ∧
  (∀ s h c args, Asks s h (bits c 0 16) c args → fwCodes.contains (bits c 0 16) = false →
    Completes (.ping h) s (fun t => Answered t h (bits c 0 16) c 1 [])) ∧
  (∀ s h c a args, Awake s → Asks s h 0x02 c (a :: args) → Completes (.getInfo h) s (fun t => Answered t h 0x02 c 2 [])) ∧
  (∀ s h c a args, Awake s → Asks s h 0x03 c (a :: args) → Completes (.getStatus h) s (fun t => Answered t h 0x03 c 2 [])) ∧
  (∀ s h c a0 a1, Asks s h 0x10 c [a0, a1] → a0.toNat ≤ 5 → a0.toNat ≠ mMainline → s.dev.ld = none →
    (s.dev.twCopy = false ∨ a0.toNat ≠ mHalt) →
    Completes (.setMode h) s (fun t => t.dev.md = (modeAsked s h a0.toNat (min 256 a1.toNat)).md ∧
      t.dev.mode = (modeAsked s h a0.toNat (min 256 a1.toNat)).mode ∧
      Answered t h 0x10 c (if evtBit (modeAsked s h a0.toNat (min 256 a1.toNat)) Ev.SYS_REQ_IGN then 4 else 0) [])) ∧
  (∀ s h c a0 a1 a2, Asks s h 0x10 c [a0, a1, a2] → a0.toNat = mMainline → s.dev.ld = none → s.dev.twCopy = false →
    Completes (.setMode h) s (fun t => t.dev.md = (resumeAsked s h (pair a1 a2)).md ∧
      Answered t h 0x10 c (if evtBit (resumeAsked s h (pair a1 a2)) Ev.SYS_REQ_IGN then 4 else 0) [])) ∧
  (∀ s h c a0 a1 a2 a3, Asks s h 0x20 c [a0, a1, a2, a3] → s.dev.inMode mShunt = true → s.dev.trans = false → s.dev.ld = none →
    (a0 = 0#32 ∨ a0 = 1#32 ∧ s.dev.cap.dram = true ∧ inDram (pair a1 a2) = true ∧
      (mbTake (3 * h.val) s.dev).region (pair a1 a2) a3.toNat = true) →
    a3.toNat % 4 = 0 → 64 ≤ a3.toNat → a3.toNat ≤ 67108864 → lifeCycle s.fuses ≠ lcRetired →
    Completes (.consistLoad h) s (fun t =>
      (t.dev.mbx (3 * h.val)).occ = false ∧ t.dev.f F.CFG_STATUS_STATE = 1 ∧
      t.dev.ld = some ⟨3, none, a0.toNat == 1, pair a1 a2, a3.toNat, [], 0, some (h.val, bits c 24 8)⟩)) ∧
  (∀ s h c a0 a1 a2 a3 bs ecc, Asks s h 0x30 c [a0, a1, a2, a3] → s.dev.ld = none → 0 < a1.toNat → a1.toNat ≤ 65536 →
    a1.toNat ≤ bs.length → FwReaches s a1 a2 a3 → let w : World := ⟨s.fuses, s.mem, mbTake (3 * h.val) s.dev⟩
    w.dev.region (pair a2 a3) a1.toNat = true → (fwStore (pair a2 a3) (bs.take a1.toNat) ecc w).1 = false →
    Completes (.flashRead h bs true ecc) s (fun t =>
      Answered t h 0x30 c 0 [] ∧ t.mem = (fwStore (pair a2 a3) (bs.take a1.toNat) ecc w).2.mem)) ∧
  (∀ s h c a0 a1 a2 a3 ecc, Asks s h 0x31 c [a0, a1, a2, a3] → s.dev.ld = none → a0.toNat % 256 = 0 → FwReaches s a1 a2 a3 →
    (mbTake (3 * h.val) s.dev).region (pair a2 a3) a1.toNat = true → AllGood s ecc (pair a2 a3) a1.toNat →
    Completes (.flashWrite h true ecc) s (fun t => Answered t h 0x31 c 0 [] ∧ t.mem = s.mem)) ∧
  (∀ s h c a0 a1 a2 a3 good ecc, Asks s h 0x31 c [a0, a1, a2, a3] → s.dev.ld = none → a0.toNat % 256 ≠ 0 → FwReaches s a1 a2 a3 →
    Completes (.flashWrite h good ecc) s (fun t => Answered t h 0x31 c 2 [] ∧ t.mem = s.mem)) ∧
  (∀ s h c a0 a1 good, Asks s h 0x32 c [a0, a1] → s.dev.ld = none → (a0.toNat % 4096 ≠ 0 ∨ a1.toNat % 4096 ≠ 0) →
    Completes (.flashErase h good) s (fun t => Answered t h 0x32 c 2 [] ∧ t.mem = s.mem)) ∧
  (∀ s h c a0 a1, Asks s h 0x32 c [a0, a1] → s.dev.ld = none → a0.toNat % 4096 = 0 → a1.toNat % 4096 = 0 →
    Completes (.flashErase h true) s (fun t => Answered t h 0x32 c 0 [] ∧ t.mem = s.mem))

/-- The domains that the arguments of PTP_SET name (14_host_mailboxes.md R407). -/
def Sys2Proof.ptpOf (args : List Word) : PtpCfg :=
  ⟨(Config.ptpPort (wd args 0)).val, (Config.ptpInst (wd args 0)).val, Config.ptpProfile (wd args 0), Config.ptpDomP (wd args 1),
    Config.ptpDomS (wd args 1), Config.ptpRole (wd args 2)⟩

/-- Host commands of clocks, streams, frames, health and unlock (14_host_mailboxes.md R407; 17_security_debug.md R471, R472). -/
def Obligations.HostServicesComplete : Prop :=
  (∀ s h c args, Asks s h 0x40 c args → Completes (.ptpSet h) s (fun t =>
    Answered t h 0x40 c (if args.length = 3 ∧ (ptpOf args).legal = true then (if s.dev.npHas (ptpOf args).port then 0 else 5) else 2) [] ∧
    (args.length = 3 → (ptpOf args).legal = true → s.dev.npHas (ptpOf args).port = true → ptpOf args ∈ t.dev.tu.ptp))) ∧
  (∀ s h c a, Asks s h 0x41 c [a] → 3 < a.toNat → Completes (.ptpGet h) s (fun t => Answered t h 0x41 c 2 [])) ∧
  (∀ s h c a, Asks s h 0x50 c [a] → (a.toNat < 128 ∨ 255 < a.toNat) → Completes (.sdpGet h) s (fun t => Answered t h 0x50 c 2 [])) ∧
  (∀ s h c a, Asks s h 0x41 c [a] → a.toNat ≤ 3 → Completes (.ptpGet h) s (fun t =>
    Answered t h 0x41 c 0 [w32 (s.dev.f (F.TI_STATUS_STATE.of a.toNat)), w32 (s.dev.f (F.TI_TAG_TAGP.of a.toNat)),
      wOfInt (s.dev.ti a.toNat).ep, Config.ptpQuality (s.dev.ti a.toNat).cls (s.dev.ti a.toNat).acc])) ∧
  (∀ s h c a, Asks s h 0x50 c [a] → 128 ≤ a.toNat → a.toNat ≤ 255 → Completes (.sdpGet h) s (fun t =>
    Answered t h 0x50 c 0 [w32 (0x10000000 + Config.sdpAddr a.toNat % 0x400000), 0#32, w32 (Config.sdpLen a.toNat)])) ∧
  (∀ s h c a0 a1 a2 a3 k rest ecc, Asks s h 0x60 c [a0, a1, a2, a3] → FwReaches s a1 a2 a3 → s.dev.ld = none → a0.toNat ≤ 2 → 0 < a1.toNat → a1.toNat ≤ s.dev.bufBytes →
    (mbTake (3 * h.val) s.dev).region (pair a2 a3) a1.toNat = true → s.dev.npHas a0.toNat = true → s.dev.net.free = k :: rest →
    k < 4096 → AllGood s ecc (pair a2 a3) a1.toNat → FwStores s ecc (descBuf s.mem (s.dev.descAt k)).1 a1.toNat →
    FwStores s ecc (s.dev.descAt k + 4) 8 → Completes (.frameTx h ecc) s (fun t =>
      (t.dev.mbx (3 * h.val)).occ = false ∧ t.dev.net.free = rest ∧ t.dev.net.owner k = 1 ∧
      t.dev.hi.txWait = [(h.val, bits c 24 8, k)])) ∧
  (∀ s h c a0 a1 a2 a3 ecc, Asks s h 0x60 c [a0, a1, a2, a3] → FwReaches s a1 a2 a3 → a0.toNat ≤ 2 → 0 < a1.toNat → a1.toNat ≤ s.dev.bufBytes →
    (mbTake (3 * h.val) s.dev).region (pair a2 a3) a1.toNat = true → s.dev.npHas a0.toNat = true → s.dev.net.free = [] →
    Completes (.frameTx h ecc) s (fun t => Answered t h 0x60 c 3 [] ∧ t.dev.net = s.dev.net ∧ t.mem = s.mem)) ∧
  (∀ s h c a0 a1 a2 a3 a4, Asks s h 0x61 c [a0, a1, a2, a3, a4] → a0.toNat ≤ 7 → a1.toNat < 65536 →
    (a0.toNat = 2 → s.dev.cap.netb = true) →
    Completes (.frameRxSet h) s (fun t =>
      Answered t h 0x61 c 0 [] ∧ t.dev.hi.ring = some ⟨a0.toNat, a1.toNat, pair a2 a3, a4.toNat, []⟩)) ∧
  (∀ s h c a r ecc, Asks s h 0x62 c [a] → s.dev.hi.ring = some r → a.toNat ∈ r.busy → (∀ p : Fin 3, (s.dev.np p).rdy = []) →
    Completes (.frameRxDone h ecc) s (fun t =>
      Answered t h 0x62 c 0 [] ∧ t.dev.hi.ring = some { r with busy := r.busy.erase a.toNat })) ∧
  (∀ s h c, Asks s h 0x70 c [] → Completes (.healthGet h) s (fun t =>
    Answered t h 0x70 c 0 (if s.dev.cap.twin then (List.range 8).map (fun k => s.dev.rd (R.TWN_HLTH.at k))
      else healthWords (sgn 16 (Config.freeWord s.dev.free).toNat) s.dev))) ∧
  (∀ s h c nonce, Asks s h 0x80 c [] → Completes (.secChallenge h nonce) s (fun t =>
    Answered t h 0x80 c 0 (s.dev.challenge nonce) ∧
    t.dev.se.nonce = some (leBytes (s.dev.challenge nonce) ++ List.replicate 4 0#8))) ∧
  (∀ s h c a args, Asks s h 0x81 c (a :: args) → args.length = 8 → bits a 0 2 < 3 → bits a 0 2 = s.dev.se.parts.length →
    Completes (.secUnlock h) s (fun t =>
      Answered t h 0x81 c 0 [] ∧ t.dev.se.parts = s.dev.se.parts ++ [(bits a 0 2, beWords args)])) ∧
  (∀ s h c a args, Asks s h 0x81 c (a :: args) → args.length = 8 → bits a 0 2 ≠ s.dev.se.parts.length →
    Completes (.secUnlock h) s (fun t => Answered t h 0x81 c 2 [] ∧ t.dev.se.parts = [] ∧ t.dev.se.attempt = s.dev.se.attempt)) ∧
  (∀ s h c a args, Asks s h 0x81 c (a :: args) → args.length = 8 → bits a 0 2 = 3 → s.dev.se.parts.length = 3 →
    s.dev.fb F.STATUS_SEC_UNLOCK_DIS = false → (s.dev.lc = lcOpen ∨ s.dev.lc = lcSealed) → s.dev.trans = false →
    (s.dev.inMode mShunt = true ∨ s.dev.inMode mInspection = true) → s.dev.se.attempt = none →
    Completes (.secUnlock h) s (fun t =>
      (t.dev.mbx (3 * h.val)).occ = false ∧ t.dev.se.parts = [] ∧ t.dev.se.nonce = none ∧
      t.dev.se.attempt = some ⟨bit a 8, Tbl.getD s.dev.se.parts 0 [], Tbl.getD s.dev.se.parts 1 [], Tbl.getD s.dev.se.parts 2 [],
        beWords args, s.dev.se.nonce, some (h.val, bits c 24 8)⟩))

/-- Loads and boot (15_consist_boot.md R412, R428 to R434): a car is taken, the boot starts image A, or B where BOOTSEL says so, and a fetch failure of
one image starts the other. -/
def Obligations.LoadsComplete : Prop :=
  (∀ s (c : Car) l, Awake s → s.dev.ld = some l → streamFail l.cars c = none → 4 * c.payload.length = c.len → c.type ≠ tMemory →
    c.type ≠ tTail → cutShort (l.cars ++ [c]) = none →
    Completes (.carReceived c) s (fun t =>
      t.dev.ld = some { l with cars := l.cars ++ [c], shadow := l.shadow + c.shadow } ∧
      t.dev.rd R.CFG_PROG = w32 (imgBytes (l.cars ++ [c])))) ∧
  (∀ s (c : Car) l f k, Awake s → s.dev.ld = some l → streamFail l.cars c = some f → (l.src = 1 ∨ l.src = 2) → l.next = some k →
    Completes (.carReceived c) s (fun t =>
      t.dev.ld = some (bootLoad k none) ∧ t.dev.rd R.CFG_FAIL = w32 (2 ^ 31 + f.cause * 2 ^ 24 + f.detail % 2 ^ 16) ∧
      t.dev.f F.CFG_STATUS_TRIED = s.dev.f F.CFG_STATUS_TRIED ||| l.src ∧ evtBit t.dev Ev.SYS_CFG_FAIL = true)) ∧
  (∀ s (c : Car), Awake s → s.dev.ld = none → Completes (.carReceived c) s (fun t =>
    t.dev.regs = s.dev.regs ∧ t.mem = s.mem ∧ t.dev.ld = none)) ∧
  (∀ s (sel : Fin 4) dir, s.dev.md.boot = true → s.dev.dark = false → s.dev.md.insp = false → sel.val < 2 →
    lifeCycle s.fuses ≠ lcRetired → dirOk dir = true → wd dir 3 ≠ 0xFFFFFFFF#32 →
    Completes (.boot sel dir) s (fun t =>
      t.dev.md.boot = false ∧ t.dev.f F.STATUS_HIF_BOOTSEL = sel ∧ t.dev.f F.CFG_STATUS_STATE = 1 ∧
      t.dev.f F.CFG_STATUS_TRIED = 0 ∧
      t.dev.ld = some (if sel = 0 then bootLoad 1 (some 2) else bootLoad 2 (some 1)))) ∧
  (∀ s (sel : Fin 4) dir, s.dev.md.boot = true → s.dev.dark = false → s.dev.md.insp = false → sel.val < 2 →
    lifeCycle s.fuses ≠ lcRetired → dirOk dir = true → wd dir 3 = 0xFFFFFFFF#32 →
    Completes (.boot sel dir) s (fun t => t.dev.md.boot = false ∧ t.dev.ld = some (bootLoad 1 none))) ∧
  (∀ s (sel : Fin 4) dir, s.dev.md.boot = true → s.dev.dark = false → s.dev.md.insp = false →
    (2 ≤ sel.val ∨ lifeCycle s.fuses = lcRetired ∨ dirOk dir = false) →
    Completes (.boot sel dir) s (fun t =>
      t.dev.md.boot = false ∧ t.dev.ld = none ∧ evtBit t.dev Ev.SYS_CFG_DONE = true ∧
      t.dev.f F.CFG_STATUS_TRIED = (if 2 ≤ sel.val then 0 else 3) ∧ (sel.val < 2 → evtBit t.dev Ev.SYS_CFG_FAIL = true))) ∧
  (∀ s (sel : Fin 4) dir, s.dev.md.boot = true → s.dev.dark = false → s.dev.md.insp = true →
    Completes (.boot sel dir) s (fun t =>
      t.dev.md.boot = false ∧ t.dev.md.insp = false ∧ t.dev.ld = none ∧ t.dev.f F.STATUS_SEC_UNLOCKED = 1)) ∧
  (∀ s (sel : Fin 4) dir, (s.dev.md.boot = false ∨ s.dev.dark = true) → Completes (.boot sel dir) s (fun t =>
    t.dev.regs = s.dev.regs ∧ t.mem = s.mem ∧ t.dev.md = s.dev.md)) ∧
  (∀ s l k, Awake s → s.dev.ld = some l → (l.src = 1 ∨ l.src = 2) → l.next = some k →
    Completes .consistFetchFailure s (fun t =>
      t.dev.ld = some (bootLoad k none) ∧ t.dev.rd R.CFG_FAIL = w32 (2 ^ 31 + 2 ^ 24) ∧
      t.dev.f F.CFG_STATUS_TRIED = s.dev.f F.CFG_STATUS_TRIED ||| l.src ∧ evtBit t.dev Ev.SYS_CFG_FAIL = true)) ∧
  (∀ s l, Awake s → s.dev.ld = some l → (l.src = 1 ∨ l.src = 2) → l.next = none →
    Completes .consistFetchFailure s (fun t =>
      t.dev.ld = none ∧ evtBit t.dev Ev.SYS_CFG_FAIL = true ∧ evtBit t.dev Ev.SYS_CFG_DONE = true))

/-- No request is ignored at once: no boot is due, no load and no transition runs, no resume is pending, and the unit is no copy (16_modes_power.md R441;
12_twin.md R345; 15_consist_boot.md R437). -/
abbrev Sys2Proof.Takes (s : State) : Prop :=
  Awake s ∧ s.dev.md.boot = false ∧ s.dev.ld = none ∧ s.dev.trans = false ∧ s.dev.md.leave = none ∧ s.dev.md.resume = none ∧
  s.dev.twCopy = false

/-- No target of the fabric is locked by the agent's master either (13_memory.md R377). -/
abbrev Sys2Proof.TakesBy (s : State) (m : Agent) : Prop := Takes s ∧ s.dev.lockedBy m.master = none

/-- A step of a sequenced transition runs, on the way in or back, and no access waits for an exit (16_modes_power.md R447, R450, R452). -/
abbrev Sys2Proof.StepRuns (s : State) (k : Nat) (turned back : Bool) : Prop :=
  s.dev.trans = true ∧ s.dev.f F.STATUS_SYS_STEP = k ∧ s.dev.seqBack = turned ∧ s.dev.md.back = back ∧ s.dev.hi.late = []

/-- Mode requests, wake sources and steps (16_modes_power.md R441 to R452, R460; 10_analog_inputs.md R314). A request that finds no
transition begins one toward its mode, or makes a resume pending; steps follow one another; wake causes latch and act. -/
def Obligations.ModesComplete : Prop :=
  (∀ s m v, TakesBy s m → bits v 0 3 = mHalt → s.dev.inMode mMainline = true → Completes (.haltRequest m v) s (fun t =>
    t.dev.md.leave = some ⟨mHalt, s.dev.nextDep + min 256 (bits v 8 9), decide (min 256 (bits v 8 9) = 0)⟩ ∧
    t.dev.trans = true ∧ t.dev.f F.STATUS_SYS_TARGET = mHalt)) ∧
  (∀ s m v, TakesBy s m → bits v 0 3 = mMainline → (s.dev.inMode mHalt = true ∨ s.dev.inMode mShunt = true ∧ s.dev.sb.curOk = true) →
    let r : Nat := s.dev.rd64 R.SYS_RESUME_AT_LO R.SYS_RESUME_AT_HI / 32
    Completes (.resumeRequest m v) s (fun t =>
      t.dev.md.resume = some (max r (s.dev.nextDep + 4), min 256 (bits v 8 9)) ∧ t.dev.f F.STATUS_SYS_RES_PEND = 1 ∧
      t.dev.trans = true ∧ t.dev.f F.STATUS_SYS_TARGET = mMainline ∧
      t.dev.rd64 R.SYS_RESUME_BLK_LO R.SYS_RESUME_BLK_HI = max r (s.dev.nextDep + 4) % 2 ^ 64 ∧
      (r < s.dev.nextDep + 4 → evtBit t.dev Ev.SYS_RESUME_LATE = true))) ∧
  (∀ s m v, TakesBy s m → bits v 0 3 = mShunt → s.dev.inMode mMainline = true → Completes (.shuntRequest m v) s (fun t =>
    t.dev.md.leave = some ⟨mShunt, s.dev.nextDep + min 256 (bits v 8 9), decide (min 256 (bits v 8 9) = 0)⟩ ∧
    t.dev.trans = true ∧ t.dev.f F.STATUS_SYS_TARGET = mShunt)) ∧
  (∀ s m v, TakesBy s m → bits v 0 3 = mShunt → (s.dev.inMode mHalt = true ∨ s.dev.inMode mInspection = true) →
    Completes (.shuntRequest m v) s (fun t =>
      t.dev.md.change = some (mShunt, s.dev.nextDep) ∧ t.dev.trans = true ∧ t.dev.f F.STATUS_SYS_TARGET = mShunt)) ∧
  (∀ s m v, TakesBy s m → bits v 0 3 = mInspection → s.dev.inMode mShunt = true → s.dev.inspOk = true →
    Completes (.inspectionRequest m v) s (fun t =>
      t.dev.md.change = some (mInspection, s.dev.nextDep) ∧ t.dev.trans = true ∧ t.dev.f F.STATUS_SYS_TARGET = mInspection)) ∧
  (∀ s m v, TakesBy s m → bits v 0 3 = mInspection → (s.dev.inMode mShunt = false ∨ s.dev.inspOk = false) →
    Completes (.inspectionRequest m v) s (fun t => t.dev.md = s.dev.md ∧ evtBit t.dev Ev.SYS_REQ_IGN = true)) ∧
  (∀ s m v, Serves s m → (s.dev.md.boot = true ∨ s.dev.ld.isSome = true) → bits v 0 3 = mShunt →
    Completes (.shuntRequest m v) s (fun t => t.dev.md = s.dev.md ∧ evtBit t.dev Ev.SYS_REQ_IGN = true)) ∧
  (∀ s m v, Serves s m → s.dev.twCopy = true → m.num ≠ 24 → bits v 0 3 = mHalt → Completes (.haltRequest m v) s (fun t =>
    t.dev.md = s.dev.md ∧ evtBit t.dev Ev.TWN_WR_IGN = true ∧ t.dev.rd R.TWN_WR_IGN_CNT = oneUp (s.dev.rd R.TWN_WR_IGN_CNT))) ∧
  (∀ s m v, TakesBy s m → bits v 0 3 = mSiding → s.dev.inMode mMainline = true → s.dev.wakePend = false →
    Completes (.sidingRequest m v) s (fun t =>
      t.dev.md.leave = some ⟨mSiding, s.dev.nextDep + min 256 (bits v 8 9), decide (min 256 (bits v 8 9) = 0)⟩ ∧
      t.dev.trans = true ∧ t.dev.f F.STATUS_SYS_STEP = 1 ∧ t.dev.f F.STATUS_SYS_TARGET = mSiding ∧ t.dev.md.origin = mMainline)) ∧
  (∀ s m v, TakesBy s m → (bits v 0 3 = mSiding ∨ bits v 0 3 = mDepot) → s.dev.wakePend = true →
    Completes (.sidingRequest m v) s (fun t => t.dev.md = s.dev.md ∧ evtBit t.dev Ev.SYS_REQ_IGN = true)) ∧
  (∀ s m v, TakesBy s m → bits v 0 3 = mSiding → (s.dev.inMode mShunt = true ∨ s.dev.inMode mHalt = true) → s.dev.wakePend = false →
    Completes (.sidingRequest m v) s (fun t =>
      t.dev.trans = true ∧ t.dev.f F.STATUS_SYS_STEP = 2 ∧ t.dev.f F.STATUS_SYS_TARGET = mSiding ∧
      t.dev.md.change = some (mSiding, s.dev.nextDep) ∧ t.dev.md.origin = s.dev.mode)) ∧
  (∀ s m v, TakesBy s m → (bit v 0 = true ∨ bits v 0 3 = mDepot) → (s.dev.inMode mShunt = true ∨ s.dev.inMode mHalt = true) →
    s.dev.wakePend = false →
    Completes (.depotRequest m v) s (fun t =>
      t.dev.trans = true ∧ t.dev.f F.STATUS_SYS_STEP = 2 ∧ t.dev.f F.STATUS_SYS_TARGET = mDepot ∧
      t.dev.md.change = some (mDepot, s.dev.nextDep))) ∧
  (∀ s m v, s.dev.dark = false → s.dev.inMode mSiding = true → s.dev.knocks m = false → s.dev.lockedBy m.master = none → bit v 0 = true → s.dev.booting = false →
    s.dev.trans = false → s.dev.md.leave = none → s.dev.md.resume = none → s.dev.wakePend = false →
    Completes (.depotRequest m v) s (fun t =>
      t.dev.trans = true ∧ t.dev.f F.STATUS_SYS_STEP = 5 ∧ t.dev.f F.STATUS_SYS_TARGET = mDepot)) ∧
  (∀ s, StepRuns s 2 false false → s.dev.md.change = none → (s.dev.cap.analog = false ∨ s.dev.aoDown false = true) → Completes .transitionStepEnd s (fun t =>
    t.dev.f F.STATUS_SYS_STEP = 3 ∧ t.mem = s.mem ∧ ∀ k : Fin 20, t.dev.port k = .off)) ∧
  (∀ s, StepRuns s 2 false false → (s.dev.md.change.isSome = true ∨ s.dev.cap.analog = true ∧ s.dev.aoDown false = false) → Completes .transitionStepEnd s (fun t =>
    t.dev.regs = s.dev.regs ∧ t.mem = s.mem)) ∧
  (∀ s turned, StepRuns s 3 turned true → Completes .transitionStepEnd s (fun t =>
    t.dev.f F.STATUS_SYS_STEP = 2 ∧ t.mem = s.mem ∧ (turned = false → t.dev.f F.STATUS_SYS_TARGET = s.dev.md.origin % 8 ∧
      evtBit t.dev Ev.SYS_SEQ_REV = true) ∧
    (s.dev.f F.DR_STATUS_STATE = drSelfRefresh → t.dev.f F.DR_STATUS_STATE = drReady ∧ t.dev.ms.drift = []))) ∧
  (∀ s, StepRuns s 3 false false → Completes .transitionStepEnd s (fun t =>
    t.dev.f F.STATUS_SYS_STEP = 4 ∧ (s.dev.ms.drq = [] → t.mem = s.mem) ∧
    (s.dev.f F.DR_STATUS_STATE = drReady → t.dev.f F.DR_STATUS_STATE = drSelfRefresh ∧ t.dev.ms.drq = []))) ∧
  (∀ s, StepRuns s 3 true false → s.dev.md.aim < 8 → Completes .transitionStepEnd s (fun t =>
    t.dev.f F.STATUS_SYS_STEP = 4 ∧ t.mem = s.mem ∧ t.dev.f F.STATUS_SYS_TARGET = s.dev.md.aim ∧ evtBit t.dev Ev.SYS_SEQ_REV = true)) ∧
  (∀ s, StepRuns s 4 false false → s.dev.f F.STATUS_SYS_TARGET = mSiding → s.dev.mode ≠ mDepot → s.dev.md.resume = none →
    Completes .transitionStepEnd s (fun t =>
      t.dev.mode = mSiding ∧ t.dev.trans = false ∧ evtBit t.dev Ev.SYS_MODE_DONE = true ∧ t.mem = s.mem ∧
      (s.dev.fb F.SYS_SIDING_VRET = true → t.dev.hi.vret = some (s.dev.f F.SYS_SIDING_PIN)))) ∧
  (∀ s, StepRuns s 5 false false → s.dev.mode ≠ mDepot →
    s.dev.se.pgm = none → s.dev.se.burn = none → Completes .transitionStepEnd s (fun t =>
      t.dev.mode = mDepot ∧ t.dev.rd R.STATUS_DP = 0#32 ∧ t.mem = [] ∧ t.fuses = s.fuses)) ∧
  (∀ s, StepRuns s 2 true true → s.dev.inMode mSiding = true → (s.dev.md.origin = mShunt ∨ s.dev.md.origin = mHalt) →
    s.dev.md.resume = none → s.dev.se.heldInsp = false → Completes .transitionStepEnd s (fun t =>
      t.dev.mode = s.dev.md.origin ∧ t.dev.trans = false ∧ evtBit t.dev Ev.SYS_WAKE = true ∧ t.mem = s.mem)) ∧
  (∀ s m v, s.dev.knocks m = true → Completes (.haltRequest m v) s (fun t =>
    t.dev.hi.late = s.dev.hi.late ++ [.word m R.SYS_MODE_REQ.addr true v] ∧ bit (t.dev.rd R.DP_WAKE_CAUSE) 5 = true ∧
    evtBit t.dev Ev.DP_WAKE = true ∧ t.dev.md = s.dev.md)) ∧
  (∀ s, Completes .wakeN s (fun t => bit (t.dev.rd R.DP_WAKE_CAUSE) 0 = true ∧ evtBit t.dev Ev.DP_WAKE = true)) ∧
  (∀ s, Completes .rtcAlarm s (fun t =>
    t.dev.rd R.DP_RTC_HI = s.dev.rd R.DP_ALARM ∧ t.dev.f F.DP_RTC_LO_SUB = 0 ∧ bit (t.dev.rd R.DP_WAKE_CAUSE) 3 = true ∧
    evtBit t.dev Ev.DP_ALARM = true)) ∧
  (∀ s k, bit (s.dev.rd R.DP_WAKE_CAUSE) k = true → s.dev.wakeEn k = true → s.dev.inMode mSiding = true → s.dev.trans = false →
    Completes (.wake k) s (fun t =>
      t.dev.trans = true ∧ t.dev.f F.STATUS_SYS_STEP = 4 ∧ t.dev.md.back = true ∧ t.dev.md.origin = s.dev.md.origin)) ∧
  (∀ s k, bit (s.dev.rd R.DP_WAKE_CAUSE) k = true → s.dev.wakeEn k = true → s.dev.inMode mDepot = true →
    s.dev.f F.STATUS_DP_RSTEP = 0 → Completes (.wake k) s (fun t => t.dev.f F.STATUS_DP_RSTEP = 1)) ∧
  (∀ s k, bit (s.dev.rd R.DP_WAKE_CAUSE) k = true → s.dev.wakeEn k = true → s.dev.inMode mDepot = false → s.dev.seqOn = true →
    Completes (.wake k) s (fun t => t.dev.md.back = true ∧ t.dev.regs = s.dev.regs)) ∧
  (∀ s k, (bit (s.dev.rd R.DP_WAKE_CAUSE) k = false ∨ s.dev.wakeEn k = false) → Completes (.wake k) s (fun t =>
    t.dev.md = s.dev.md ∧ t.dev.regs = s.dev.regs)) ∧
  (∀ s (n : Fin 4), let x := Tbl.getD s.dev.ai.jd n .reset
    max 1 (s.dev.f F.JD_CFG_DEB) ≤ x.cnt → x.cls < 8 → x.cls ≠ bits (s.dev.rd R.JD_STATUS) (4 * n) 3 →
    Completes (.jackTypeAccept n) s (fun t => bits (t.dev.rd R.JD_STATUS) (4 * n) 3 = x.cls ∧ t.dev.rd R.JD_EVT ≠ 0#32)) ∧
  (∀ s (n : Fin 4), let x := Tbl.getD s.dev.ai.jd n .reset
    (x.cnt < max 1 (s.dev.f F.JD_CFG_DEB) ∨ x.cls = bits (s.dev.rd R.JD_STATUS) (4 * n) 3) →
    Completes (.jackTypeAccept n) s (fun t => t.dev.regs = s.dev.regs))

/-- Resets (16_modes_power.md R451, R453, R455; 19_electrical_package.md R496). -/
def Obligations.ResetsComplete : Prop :=
  (∀ s, s.dev.f F.STATUS_DP_RSTEP = 1 ∨ s.dev.f F.STATUS_DP_RSTEP = 2 → Completes .railStepEnd s (fun t =>
    t.dev.f F.STATUS_DP_RSTEP = s.dev.f F.STATUS_DP_RSTEP + 1 ∧ t.mem = s.mem ∧
    (s.dev.f F.STATUS_DP_RSTEP = 2 → t.dev.f F.STATUS_DP_MAIN = 1))) ∧
  (∀ s, s.dev.f F.STATUS_DP_RSTEP = 0 → s.dev.inMode mDepot = false → Completes .railStepEnd s (fun t =>
    t.dev.f F.STATUS_DP_RSTEP = 1 ∧ t.mem = s.mem)) ∧
  (∀ s, s.dev.f F.STATUS_DP_RSTEP = 3 → s.dev.inMode mDepot = false → Completes .railStepEnd s (fun t =>
    t.dev.f F.STATUS_DP_RSTEP = 4 ∧ t.mem = s.mem ∧ t.dev.md = s.dev.md)) ∧
  (∀ s, s.dev.f F.STATUS_DP_RSTEP = 3 → s.dev.inMode mDepot = true → Completes .railStepEnd s (fun t =>
    t.dev.f F.STATUS_DP_RSTEP = 4 ∧ t.dev.md.boot = true ∧ t.dev.md.woke = true ∧ bit (t.dev.rd R.DP_RST_CAUSE) 4 = true ∧
    t.dev.mode = mShunt)) ∧
  (∀ s strap, s.dev.se.pgm = none → s.dev.se.burn = none → Completes (.powerOnReset strap) s (fun t =>
    t.mem = [] ∧ t.fuses = s.fuses ∧ t.dev.regs = (Dev.por s.fuses s.dev.cap.pkg strap s.dev.free).regs ∧ t.dev.hi.strap = strap)) ∧
  (∀ s strap k v, s.dev.se.pgm = some (k, v) → Completes (.powerOnReset strap) s (fun t =>
    t.mem = [] ∧ fuse t.fuses k = fuse s.fuses k ||| (v &&& Config.freeWord s.dev.free) ∧
    ∀ j, j ≠ k → fuse t.fuses j = fuse s.fuses j)) ∧
  (∀ s, s.dev.dark = true → Completes .resetN s (fun t => t.mem = s.mem ∧ t.dev.regs = s.dev.regs ∧ t.dev.md = s.dev.md)) ∧
  (∀ s, s.dev.dark = false → s.dev.se.pgm = none → s.dev.se.burn = none → Completes .resetN s (fun t =>
    t.mem = [] ∧ t.fuses = s.fuses ∧ t.dev.md = .reset ∧ t.dev.q = .reset ∧ bit (t.dev.rd R.DP_RST_CAUSE) 1 = true)) ∧
  (∀ s m v, Serves s m → bits v 8 8 = 0x5A → bit v 0 = true → s.dev.se.pgm = none → s.dev.se.burn = none →
    Completes (.sysRst m v) s (fun t =>
      t.mem = s.mem ∧ t.fuses = s.fuses ∧ t.dev.md = .reset ∧ t.dev.q = .reset ∧ bit (t.dev.rd R.DP_RST_CAUSE) 2 = true)) ∧
  (∀ s m v, Serves s m → (bits v 8 8 ≠ 0x5A ∨ bit v 0 = false) → Completes (.sysRst m v) s (fun t =>
    t.mem = s.mem ∧ t.dev.regs = s.dev.regs ∧ t.dev.md = s.dev.md)) ∧
  (∀ s m v n, Serves s m → 2 ≤ n → n ≤ 5 → bit v n = true → s.dev.fb F.TWN_CFG_EN = true → s.dev.inMode mShunt = false →
    s.dev.inMode mInspection = false → Completes (.sysBlkrst m v) s (fun t =>
    ((n, s.dev.nextDep) ∈ t.dev.md.blkrst → (n, s.dev.nextDep) ∈ s.dev.md.blkrst) ∧ evtBit t.dev Ev.SYS_REQ_IGN = true)) ∧
  (∀ s m v n, Serves s m → 2 ≤ n → n ≤ 15 → bit v n = true → s.dev.fb F.TWN_CFG_EN = false → Completes (.sysBlkrst m v) s (fun t =>
    (n, s.dev.nextDep) ∈ t.dev.md.blkrst ∧ t.dev.regs = s.dev.regs)) ∧
  (∀ s, s.dev.dark = false → s.dev.se.pgm = none → s.dev.se.burn = none → Completes .railUndervoltage s (fun t =>
    t.mem = [] ∧ t.fuses = s.fuses ∧ t.dev.md = .reset ∧ bit (t.dev.rd R.DP_RST_CAUSE) 3 = true ∧
    t.dev.f F.STATUS_DP_RSTEP = 3))

/-- Life-cycle, fuses and unlocks (17_security_debug.md R462 to R474, R477). -/
def Obligations.SecurityComplete : Prop :=
  (∀ s m v, Serves s m → bits v 8 8 = 0xA5 → s.dev.inMode mShunt = true → s.dev.trans = false → s.dev.f F.CFG_STATUS_STATE = 0 →
    hostOrCore m = true → s.dev.se.burn = none → lcAllowed s.dev.lc (bits v 0 2) (s.dev.fb F.STATUS_SEC_KEYSET) = true →
    Completes (.secLcReq m v) s (fun t => t.dev.se.burn = some (bits v 0 2) ∧ t.mem = clearSram s.mem ∧ t.fuses = s.fuses)) ∧
  (∀ s m v, Serves s m → bits v 8 8 = 0xA5 → (s.dev.inMode mShunt = false ∨ hostOrCore m = false ∨
      lcAllowed s.dev.lc (bits v 0 2) (s.dev.fb F.STATUS_SEC_KEYSET) = false) →
    Completes (.secLcReq m v) s (fun t =>
      t.dev.se = s.dev.se ∧ t.mem = s.mem ∧ t.fuses = s.fuses ∧ evtBit t.dev Ev.SEC_LC_REFUSED = true)) ∧
  (∀ s m v, Serves s m → bits v 8 8 ≠ 0xA5 → Completes (.secLcReq m v) s (fun t =>
      t.dev.se = s.dev.se ∧ t.mem = s.mem ∧ t.fuses = s.fuses ∧ t.dev.regs = s.dev.regs)) ∧
  (∀ s k, s.dev.se.burn = some (k + 1) → s.dev.se.pgm = none → Completes (.lcBurnDone false) s (fun t =>
    fuse t.fuses k = fuse s.fuses k ||| Config.freeWord s.dev.free ∧ t.mem = [] ∧ (∀ j, j ≠ k → fuse t.fuses j = fuse s.fuses j) ∧
    t.dev.f F.SEC_FAIL_COUNT = 0)) ∧
  (∀ s k, s.dev.se.burn = some (k + 1) → Completes (.lcBurnDone true) s (fun t =>
    fuse t.fuses k = 0xFFFFFFFF#32 ∧ t.mem = [] ∧ t.dev.se.burn = none ∧ t.dev.md.boot = true ∧
    t.dev.f F.SEC_FAIL_COUNT = 0 ∧ t.dev.fb F.STATUS_SEC_UNLOCK_DIS = false)) ∧
  (∀ s m v, Serves s m → bit v 31 = true → bits v 8 8 = 0xC3 → s.dev.lc ≤ lcDev → s.dev.inMode mShunt = true → hostOrCore m = true →
    8 ≤ bits v 0 7 → bits v 0 7 < 16 → s.dev.se.pgm = none →
    Completes (.fusePgm m v) s (fun t =>
      t.dev.se.pgm = some (bits v 0 7, s.dev.rd R.FUSE_PGM_DATA) ∧ t.dev.f F.STATUS_SEC_PGM_BUSY = 1 ∧ t.fuses = s.fuses)) ∧
  (∀ s m v, Serves s m → bit v 31 = true → (bits v 8 8 ≠ 0xC3 ∨ lcDev < s.dev.lc ∨ s.dev.inMode mShunt = false ∨ hostOrCore m = false ∨
      bits v 0 7 < 8 ∨ 16 ≤ bits v 0 7) →
    Completes (.fusePgm m v) s (fun t => t.dev.se = s.dev.se ∧ t.fuses = s.fuses ∧ evtBit t.dev Ev.SEC_PGM_ERR = true)) ∧
  (∀ s k v, s.dev.se.pgm = some (k, v) → Completes (.pgmDone false) s (fun t =>
    fuse t.fuses k = fuse s.fuses k ||| (v &&& Config.freeWord s.dev.free) ∧ t.dev.se.pgm = none ∧
    t.dev.f F.STATUS_SEC_PGM_BUSY = 0 ∧ evtBit t.dev Ev.SEC_PGM_DONE = true)) ∧
  (∀ s k v, s.dev.se.pgm = some (k, v) → Completes (.pgmDone true) s (fun t =>
    fuse t.fuses k = fuse s.fuses k ||| v ∧ t.dev.se.pgm = none ∧ t.dev.f F.STATUS_SEC_PGM_BUSY = 0 ∧
    evtBit t.dev Ev.SEC_PGM_DONE = true)) ∧
  (∀ s, s.dev.dark = false → s.dev.secStep = false → Completes .monitorTrip s (fun t =>
    evtBit t.dev Ev.SEC_GLITCH = true ∧ t.mem = s.mem)) ∧
  (∀ s, s.dev.dark = false → s.dev.secStep = true → Completes .monitorTrip s (fun t =>
    t.mem = [] ∧ t.dev.md = .reset ∧ bit (t.dev.rd R.DP_RST_CAUSE) 3 = true)) ∧
  (∀ s a, s.dev.se.attempt = some a → passes s.fuses a = true → Completes .unlockVerified s (fun t =>
    t.dev.md.insp = true ∧ t.dev.md.boot = true ∧ t.dev.md.reply = a.reply ∧ t.dev.se.attempt = none)) ∧
  (∀ s a, s.dev.se.attempt = some a → passes s.fuses a = false → Completes .unlockVerified s (fun t =>
    t.dev.se.attempt = none ∧ t.dev.f F.SEC_FAIL_COUNT = min 8 (s.dev.f F.SEC_FAIL_COUNT + 1) ∧
    evtBit t.dev Ev.SEC_UNLOCK_FAIL = true ∧ t.mem = s.mem)) ∧
  (∀ s, Completes .nonceExpire s (fun t => t.dev.se.nonce = none ∧ t.dev.regs = s.dev.regs)) ∧
  (∀ s m v, Serves s m → bit v 0 = true → s.dev.fb F.STATUS_SEC_UNLOCKED = true → Completes (.relock m v) s (fun t =>
    t.dev.f F.STATUS_SEC_UNLOCKED = 0 ∧ t.mem = s.mem)) ∧
  (∀ s m v, TakesBy s m → bit v 0 = true → s.dev.fb F.STATUS_SEC_UNLOCKED = true → s.dev.lc = lcSealed → s.dev.inMode mInspection = true →
    Completes (.relock m v) s (fun t =>
      t.dev.f F.STATUS_SEC_UNLOCKED = 0 ∧ t.dev.md.change = some (mShunt, s.dev.nextDep) ∧ t.dev.trans = true)) ∧
  (∀ s m v, Serves s m → (bit v 0 = false ∨ s.dev.fb F.STATUS_SEC_UNLOCKED = false) → Completes (.relock m v) s (fun t =>
    t.dev.regs = s.dev.regs ∧ t.dev.md = s.dev.md)) ∧
  (∀ s, s.dev.se.attempt = none → Completes .unlockVerified s (fun t =>
    t.dev.regs = s.dev.regs ∧ t.mem = s.mem ∧ t.dev.md = s.dev.md))

/-- The debug access port answers: neither dark nor in Siding. -/
abbrev Sys2Proof.TapOn (s : State) : Prop := s.dev.dark = false ∧ s.dev.inMode mSiding = false

/-- The debug access port (17_security_debug.md R469 to R472, R475, R476). -/
def Obligations.DebugPortComplete : Prop :=
  (∀ s, s.dev.dark = false → Completes .trstN s (fun t =>
    t.dev.se.ir = 1 ∧ t.dev.se.drive = false ∧ t.dev.fb F.STATUS_SEC_ATTACH = false)) ∧
  (∀ s, s.dev.dark = false → Completes .idcode s (fun t =>
    t.dev.se.ir = 0x01 ∧ t.dev.se.dr = Config.dieLetter % 16 * 2 ^ 28 + 0xFF09 * 2 ^ 12 + 0x7FF * 2 + 1 ∧ t.dev.regs = s.dev.regs)) ∧
  (∀ s, s.dev.dark = false → Completes .bypass s (fun t => t.dev.se.ir = 0xFF ∧ t.dev.se.dr = 0 ∧ t.dev.regs = s.dev.regs)) ∧
  (∀ s pins, TapOn s → s.dev.level ≠ 0 → Completes (.samplePreload pins) s (fun t =>
    t.dev.se.ir = 0x02 ∧ t.dev.se.chain = pins ∧ t.dev.se.drive = false)) ∧
  (∀ s pins, TapOn s → s.dev.level ≠ 0 → s.dev.inMode mInspection = true → Completes (.extest pins) s (fun t =>
    t.dev.se.ir = 0x03 ∧ t.dev.se.chain = pins ∧ t.dev.se.drive = (s.dev.level == 3 || s.dev.lc == lcRetired))) ∧
  (∀ s pins, TapOn s → s.dev.level = 0 → Completes (.samplePreload pins) s (fun t =>
    t.dev.se.ir = 0xFF ∧ t.dev.se.dr = 0 ∧ t.dev.se.chain = s.dev.se.chain)) ∧
  (∀ s pins, TapOn s → (s.dev.level = 0 ∨ s.dev.inMode mInspection = false) → Completes (.extest pins) s (fun t =>
    t.dev.se.ir = 0xFF ∧ t.dev.se.dr = 0 ∧ t.dev.se.chain = s.dev.se.chain ∧ t.dev.se.drive = false)) ∧
  (∀ s pins nonce v, s.dev.dark = false → s.dev.inMode mSiding = true →
    ∀ i ∈ [.samplePreload pins, .extest pins, .dbgChal nonce, .dbgResp v], Completes i s (fun t =>
      t.dev.se.ir = 0xFF ∧ t.dev.se.dr = 0 ∧ t.dev.se.nonce = s.dev.se.nonce ∧ t.dev.se.resp = s.dev.se.resp)) ∧
  (∀ s nonce, TapOn s → Completes (.dbgChal nonce) s (fun t =>
    t.dev.se.ir = 0x11 ∧ t.dev.se.dr = wordsNat (s.dev.challenge nonce) ∧
    t.dev.se.nonce = some (leBytes (s.dev.challenge nonce) ++ List.replicate 4 0#8))) ∧
  (∀ s v, TapOn s → Completes (.dbgResp v) s (fun t => t.dev.se.ir = 0x12 ∧ t.dev.se.resp = v % 2 ^ 1032)) ∧
  (∀ s, TapOn s → Completes .dbgAttach s (fun t =>
    t.dev.fb F.STATUS_SEC_ATTACH = true ∧ t.dev.se.ir = 0x10 ∧ t.dev.se.dr = s.dev.dbgCtrl ∧
    (s.dev.fb F.STATUS_SEC_ATTACH = false → evtBit t.dev Ev.SEC_ATTACH = true))) ∧
  (∀ s, s.dev.dark = false → s.dev.inMode mSiding = true → Completes .dbgAttach s (fun t =>
    t.dev.se.heldAttach = true ∧ t.dev.regs = s.dev.regs)) ∧
  (∀ s, Takes s → s.dev.fb F.STATUS_SEC_ATTACH = true → s.dev.inMode mShunt = true → s.dev.inspOk = true →
    Completes .dbgInsp s (fun t =>
      t.dev.se.ir = 0x10 ∧ t.dev.md.change = some (mInspection, s.dev.nextDep) ∧ t.dev.f F.STATUS_SYS_TARGET = mInspection)) ∧
  (∀ s, TapOn s → s.dev.fb F.STATUS_SEC_ATTACH = false → Completes .dbgInsp s (fun t =>
      t.dev.se.ir = 0x10 ∧ t.dev.md = s.dev.md ∧ evtBit t.dev Ev.SYS_REQ_IGN = true)) ∧
  (∀ s, s.dev.dark = false → s.dev.inMode mSiding = true → Completes .dbgInsp s (fun t =>
    t.dev.se.heldInsp = true ∧ t.dev.regs = s.dev.regs)) ∧
  (∀ s, s.dev.dark = false → s.dev.inMode mSiding = true → Completes .dbgRelease s (fun t =>
    t.dev.se.heldInsp = false ∧ t.dev.se.heldAttach = false ∧ t.dev.regs = s.dev.regs)) ∧
  (∀ s, TapOn s → (s.dev.fb F.STATUS_SEC_UNLOCK_DIS = true ∨ s.dev.lc = lcRetired) → Completes .dbgSubmit s (fun t =>
    t.dev.se.ir = 0x10 ∧ t.dev.se.nonce = none ∧ t.dev.se.attempt = s.dev.se.attempt ∧ t.dev.regs = s.dev.regs)) ∧
  (∀ s, TapOn s → Completes .dbgRelease s (fun t => t.dev.se.ir = 0x10 ∧ t.dev.fb F.STATUS_SEC_ATTACH = false)) ∧
  (∀ s, TapOn s → s.dev.fb F.STATUS_SEC_UNLOCK_DIS = false → s.dev.lc = lcDev → s.dev.trans = false →
    Completes .dbgSubmit s (fun t =>
      t.dev.fb F.STATUS_SEC_ATTACH = true ∧ t.dev.se.ir = 0x10 ∧ t.dev.se.nonce = none ∧ t.dev.se.attempt = s.dev.se.attempt)) ∧
  (∀ s, TapOn s → s.dev.fb F.STATUS_SEC_UNLOCK_DIS = false → (s.dev.lc = lcOpen ∨ s.dev.lc = lcSealed) → s.dev.trans = false →
    (s.dev.inMode mShunt = true ∨ s.dev.inMode mInspection = true) → s.dev.se.attempt = none →
    Completes .dbgSubmit s (fun t =>
      t.dev.se.ir = 0x10 ∧ t.dev.se.nonce = none ∧ t.dev.se.attempt = some ⟨s.dev.se.resp % 2 == 1, respBytes s.dev.se.resp 0,
        respBytes s.dev.se.resp 32, respBytes s.dev.se.resp 64, respBytes s.dev.se.resp 96, s.dev.se.nonce, none⟩))

/-! ### Frames: what a command leaves unchanged -/

/-- The registers outside the blocks `bs` keep their values. An access by the PCIe or the SPI host in Siding latches a wake cause in block
16 (16_modes_power.md R452), so block 16 is spoken of only while the units take commands. -/
abbrev Sys2Proof.OnlyBlocks (bs : List Nat) (s t : State) : Prop :=
  ∀ r : Reg, r.off < 65536 → r.inst < 65536 → r.blk ∉ bs → (r.blk = 16 → Awake s) → t.dev.rd r = s.dev.rd r

/-- Of the memory system and the host side an access through a bridge changes only what its target granted last, how often, a sequence that it ends,
and the accesses that wait for the exit from Siding (13_memory.md R376, R377, R388; 16_modes_power.md R452). -/
abbrev Sys2Proof.BusKept (s t : State) : Prop :=
  t.dev.ms = { s.dev.ms with granted := t.dev.ms.granted, reqs := t.dev.ms.reqs, locks := t.dev.ms.locks } ∧
  t.dev.hi = { s.dev.hi with late := t.dev.hi.late }

/-- The queue, the memory and the fuses are as they were. -/
abbrev Sys2Proof.DevAlone (s t : State) : Prop := t.pending = s.pending ∧ t.mem = s.mem ∧ t.fuses = s.fuses

/-- Commands of the TDM and AES3 ports and the asynchronous converters (07_tdm_ports.md). -/
def Sys2Proof.isTdm (i : Instr) : Bool :=
  match i with
  | .portEnable .. | .portDisable .. | .tdmFrame .. | .portLock .. | .started .. | .slotZcSwitch .. | .zcTo .. | .stopped .. | .loss ..
  | .rate .. | .rejoin .. | .tdmGroupStart .. | .tdmGroupStop .. | .groupMemberLeft .. | .aesRxLock .. | .aes3Frame ..
  | .channelStatusBlock .. | .arCsCaptureRead .. | .atCsStage .. | .atCs5Commit .. | .csBlockBegin .. | .srcLocked .. | .srcRelock ..
  | .tioCntClr .. => true
  | _ => false

/-- Network commands that do not touch the memory (08_network.md). -/
def Sys2Proof.isNet (i : Instr) : Bool :=
  match i with
  | .nbPoolCreate .. | .nbAlloc .. | .nbRelease .. | .npTxpost .. | .npTxdonePop .. | .npRxrdyPop .. | .streamEnable ..
  | .streamPacketTx .. | .prpEntryExpire .. | .netLinkChange .. | .txSelect .. | .gclEntryAdvance .. | .gclGo .. | .gclSwap ..
  | .backoffExpire | .deferExpire | .tsQueuePop .. | .mdCfgWrite .. | .netCntClr .. => true
  | _ => false

/-- The rows of a received frame: an ordinary frame, a stream packet, a metadata packet (08_network.md R237, R245, R257). -/
def Sys2Proof.isArrival (i : Instr) : Bool :=
  match i with
  | .frameReceive .. | .streamPacketRx .. | .metadataPacket .. => true
  | _ => false

/-- Commands of the time instances, media clocks, pulses and captures (09_time_references.md R261 to R277). -/
def Sys2Proof.isTime (i : Instr) : Bool :=
  match i with
  | .ptpMessage .. | .tiOfsp .. | .tiOfss .. | .primaryTimeout .. | .shadowTimeout .. | .clrBias .. | .timeCaptureRead ..
  | .mediaClockTick .. | .realign .. | .pulseArm .. | .pulseEdge .. | .captureEdge .. | .capturePop .. | .tuCntClr .. => true
  | _ => false

/-- Commands of the reference unit (09_time_references.md R278 to R291). -/
def Sys2Proof.isRefs (i : Instr) : Bool :=
  match i with
  | .refTick .. | .refInputLoss .. | .holdoffExpire .. | .reselect .. | .force .. | .switchEnd .. | .acquireLock .. | .histValid ..
  | .ruCntClr .. => true
  | _ => false

/-- Commands of the analog inputs, mic biases and jack sense (10_analog_inputs.md). -/
def Sys2Proof.isAnalogIn (i : Instr) : Bool :=
  match i with
  | .aiEnable .. | .aiDisable .. | .aiSync .. | .syncDone .. | .fvalidSet .. | .pgaWrite .. | .pgaStep .. | .pgaTo .. | .adcSample ..
  | .thrOff .. | .mbEnable .. | .mbDisable .. | .mbDwellEnd .. | .mbOc .. | .mbOpen .. | .aiCntClr .. | .jackMeasure .. => true
  | _ => false

/-- Commands of the analog outputs and express paths (11_analog_outputs.md). -/
def Sys2Proof.isAnalogOut (i : Instr) : Bool :=
  match i with
  | .aoEnable .. | .aoDisable .. | .aoDwellEnd .. | .slewUpdate .. | .seqDone .. | .aoSpanWrite .. | .aoSosCoefAccess .. | .aoSosCommit ..
  | .exCfgWrite .. | .expressRampDone .. | .expressFadeDone .. | .aoCntClr .. => true
  | _ => false

/-- Commands of the gain solver (02_gain_solver.md). -/
def Sys2Proof.isGsv (i : Instr) : Bool :=
  match i with
  | .objUpdStage .. | .objPost .. | .gsvRingHead .. | .gsvRingEnable .. | .ringRecordFetched .. | .ringStallEnd | .ringErr | .flush ..
  | .solveBlock | .gsvCntClr .. => true
  | _ => false

/-- Commands of the crosspoint (03_crosspoint.md). -/
def Sys2Proof.isCrm (i : Instr) : Bool :=
  match i with
  | .nodeWr .. | .nodeCaptureRead .. | .copy .. | .copyDone | .qclr .. | .nzClr .. | .crmSwap .. | .crmRenderGroup .. | .blkGo ..
  | .blkRecordApply .. | .blkErr | .crmCntClr .. => true
  | _ => false

/-- Commands of the correction engine (04_correction.md). -/
def Sys2Proof.isCce (i : Instr) : Bool :=
  match i with
  | .cceFeedBlock .. | .tailWaitEnd .. | .fcDlyWrite .. | .fcSosCoefAccess .. | .fcSosBypWrite .. | .fldGo .. | .fldStartAfterSwap
  | .fldDone .. | .fldErr .. | .fcSwap .. | .cceSwap .. | .cceCntClr .. => true
  | _ => false

/-- Commands of the signal box (06_signal_box.md). -/
def Sys2Proof.isSbox (i : Instr) : Bool :=
  match i with
  | .dispatch .. | .stageDone .. | .releaseExpire .. | .deadlineExpire .. | .daudit .. | .gldGo .. | .gldStartAfterOld | .gldDone ..
  | .sbGswap .. | .traceClr .. | .traceCaptureRead .. | .sbCntClr .. => true
  | _ => false

/-- Commands of the twin link but BLOCK frames and the copy's departure, which render, and the DRAM pattern test (12_twin.md). -/
def Sys2Proof.isTwin (i : Instr) : Bool :=
  match i with
  | .pairUp .. | .switchTwin .. | .take .. | .giveup .. | .resync .. | .hello .. | .mark .. | .switchFrame .. | .ack .. | .chunk ..
  | .crcpass .. | .bulk .. | .check .. | .health .. | .fault .. | .ephamLinkUp .. | .ephamLinkDown .. | .linkSilence | .markSend
  | .pinInstant .. | .clockSkewFault | .healthReport .. | .transferEnd | .catchupEnd | .synced | .twnCntClr .. | .builtInTest .. => true
  | _ => false

/-- Commands of the memory system but accesses through the fabric (13_memory.md). -/
def Sys2Proof.isMsys (i : Instr) : Bool :=
  match i with
  | .scrubVisit .. | .msRemapWrite .. | .selfCheck .. | .drSegWrite .. | .drInitDone .. | .dramRequest .. | .drTrainDone ..
  | .dramTrack .. | .retrain .. | .msCntClr .. => true
  | _ => false

/-- Commands of the host interfaces, mailboxes, locks and pins (14_host_mailboxes.md). -/
def Sys2Proof.isMbox (i : Instr) : Bool :=
  match i with
  | .spiStatus | .pcieReset .. | .pcieLink .. | .qsCmdGo .. | .qsDone .. | .mbStageWrite .. | .mbDb .. | .mbAck .. | .mbTimeout ..
  | .sideRst .. | .stationCoreReset .. | .mbAudit | .mbCntClr .. | .lockRead .. | .lockWrite .. | .gpioEdge .. | .heldReplyPost .. => true
  | _ => false

/-- Requests of a mode and the wake sources, a jack among them (16_modes_power.md R441 to R452; 10_analog_inputs.md R314, R316). -/
def Sys2Proof.isMode (i : Instr) : Bool :=
  match i with
  | .haltRequest .. | .resumeRequest .. | .shuntRequest .. | .inspectionRequest .. | .sidingRequest .. | .depotRequest .. | .wakeN
  | .rtcAlarm | .wake .. | .sysBlkrst .. | .jackTypeAccept .. => true
  | _ => false

/-- Commands of the debug port that only move its own registers (17_security_debug.md R469, R471). -/
def Sys2Proof.isTap (i : Instr) : Bool :=
  match i with
  | .idcode | .bypass | .samplePreload .. | .extest .. | .dbgChal .. | .dbgResp .. | .nonceExpire => true
  | _ => false

/-- Commands of the debug port and of security that change registers of block 1 or move a mode (17_security_debug.md R467, R470, R476). -/
def Sys2Proof.isDebugCtl (i : Instr) : Bool :=
  match i with
  | .dbgAttach | .dbgSubmit | .dbgInsp | .dbgRelease | .trstN | .relock .. | .fusePgm .. => true
  | _ => false

/-- What an engine does with its item and its transfers beside bundles and the end of a transfer (05_virif_engines.md R167 to R174). -/
def Sys2Proof.isItem (i : Instr) : Bool :=
  match i with
  | .xferStartAfterWait .. | .xferErr .. | .qputTicketArrive .. | .protTimeout .. | .itemStart .. | .itemDone .. | .itemAbort ..
  | .preemptAct .. | .contextSaved .. | .contextRestored .. | .engCntClr .. => true
  | _ => false

/-- Station commands that neither load, change the mode nor reach the stores (14_host_mailboxes.md R407). -/
def Sys2Proof.isService (i : Instr) : Bool :=
  match i with
  | .ping .. | .getInfo .. | .getStatus .. | .flashErase .. | .ptpSet .. | .ptpGet .. | .sdpGet .. | .frameRxSet .. | .healthGet ..
  | .secChallenge .. | .secUnlock .. => true
  | _ => false

/-- A command of the ports changes block 6, the ports, their queues and the answer alone, and what any access through a bridge may change: `BusKept`,
and in block 13 the event of a sequence that it ends (07_tdm_ports.md R233; 01_architecture.md R34; 13_memory.md R377); what belongs to one port leaves the other ports as they were. -/
def Obligations.PortsFrame : Prop :=
  (∀ i s t, isTdm i = true → exec i s = .next t →
    DevAlone s t ∧ OnlyBlocks [6, 13] s t ∧ BusKept s t ∧
    t.dev = { s.dev with regs := t.dev.regs, msix := t.dev.msix, caps := t.dev.caps, resp := t.dev.resp, q := t.dev.q, tdm := t.dev.tdm,
                         ms := t.dev.ms, hi := t.dev.hi }) ∧
  (∀ s t (p : Fin 16) fr k, k ≠ p.val → exec (.tdmFrame p fr) s = .next t → t.dev.port k = s.dev.port k) ∧
  (∀ s t (p : Fin 16) tx slot k, k ≠ p.val → exec (.slotZcSwitch p tx slot) s = .next t → t.dev.port k = s.dev.port k) ∧
  (∀ s t (p : Fin 16) k, k ≠ p.val → exec (.portLock p) s = .next t → t.dev.port k = s.dev.port k) ∧
  (∀ s t (p : Fin 16) k, k ≠ p.val → exec (.zcTo p) s = .next t → t.dev.port k = s.dev.port k)

/-- A network command that does not touch the memory changes block 7, the network unit, the latest instant, holding registers and the answer
alone (08_network.md R260); a received frame beside them what a metadata update reaches and the host's mailboxes (R257, R258; 13_memory.md
R387; 14_host_mailboxes.md R407), a sent one the mailboxes and what the errors that its fetch finds reach (13_memory.md R368). -/
def Obligations.NetworkFrame : Prop :=
  (∀ i s t, isNet i = true → i.wellFormed = true → exec i s = .next t →
    DevAlone s t ∧ OnlyBlocks [7, 13] s t ∧ BusKept s t ∧
    t.dev = { s.dev with regs := t.dev.regs, msix := t.dev.msix, caps := t.dev.caps, resp := t.dev.resp, now := t.dev.now,
                         net := t.dev.net, ms := t.dev.ms, hi := t.dev.hi }) ∧
  (∀ i s t, isArrival i = true → i.wellFormed = true → exec i s = .next t →
    t.pending = s.pending ∧ t.fuses = s.fuses ∧ OnlyBlocks [3, 4, 7, 12, 13, 14, 16] s t ∧
    t.dev = { s.dev with regs := t.dev.regs, msix := t.dev.msix, now := t.dev.now, net := t.dev.net, gsv := t.dev.gsv, q := t.dev.q,
                         crm := t.dev.crm, ms := t.dev.ms, tw := t.dev.tw, hi := t.dev.hi }) ∧
  (∀ s t p r, exec (.txDone p r) s = .next t →
    t.pending = s.pending ∧ t.fuses = s.fuses ∧ OnlyBlocks [7, 12, 13, 14, 16] s t ∧
    t.dev = { s.dev with regs := t.dev.regs, msix := t.dev.msix, now := t.dev.now, net := t.dev.net, ms := t.dev.ms, tw := t.dev.tw,
                         hi := t.dev.hi })

/-- The commands of the time unit change block 8, those of the reference unit blocks 8 and 9 (09_time_references.md R290, R291), beside
the unit's own state, the instant of the latest command, the block that departs next (which a realign of MCK0 moves, R274), holding registers
and the answer; an access through a bridge what `BusKept` names and the event of a sequence that it ends (13_memory.md R377). -/
def Obligations.TimeFrame : Prop :=
  (∀ i s t, isTime i = true → exec i s = .next t →
    DevAlone s t ∧ OnlyBlocks [8, 13] s t ∧ BusKept s t ∧
    t.dev = { s.dev with regs := t.dev.regs, msix := t.dev.msix, caps := t.dev.caps, resp := t.dev.resp, now := t.dev.now, nextDep := t.dev.nextDep,
                         tu := t.dev.tu, ms := t.dev.ms, hi := t.dev.hi }) ∧
  (∀ i s t, isRefs i = true → exec i s = .next t →
    DevAlone s t ∧ OnlyBlocks [8, 9, 13] s t ∧ BusKept s t ∧
    t.dev = { s.dev with regs := t.dev.regs, msix := t.dev.msix, resp := t.dev.resp, tu := t.dev.tu, ms := t.dev.ms, hi := t.dev.hi })

/-- The commands of the analog inputs change block 10 and the jack registers of block 11, those of the outputs block 11 and, where a
copy of the renderer ignores a write, block 12; an access through a bridge what `BusKept` names and in block 13 the event of a sequence that it
ends (10_analog_inputs.md R316, R318; 11_analog_outputs.md R336; 12_twin.md R345, R366; 13_memory.md R377). -/
def Obligations.AnalogFrame : Prop :=
  (∀ i s t, isAnalogIn i = true → exec i s = .next t →
    DevAlone s t ∧ OnlyBlocks [10, 11, 13] s t ∧ BusKept s t ∧
    t.dev = { s.dev with regs := t.dev.regs, msix := t.dev.msix, resp := t.dev.resp, ai := t.dev.ai, ms := t.dev.ms, hi := t.dev.hi }) ∧
  (∀ i s t, isAnalogOut i = true → exec i s = .next t →
    DevAlone s t ∧ OnlyBlocks [11, 12, 13] s t ∧ BusKept s t ∧
    t.dev = { s.dev with regs := t.dev.regs, msix := t.dev.msix, resp := t.dev.resp, ao := t.dev.ao, tw := t.dev.tw, ms := t.dev.ms,
                         hi := t.dev.hi })

/-- A command of the gain solver changes block 4, block 12 where a copy ignores a write, the solver, its queues, the staging words and
what the twin is to be told; an access through a bridge what `BusKept` names and in block 13 the event of a sequence that it ends
(02_gain_solver.md R50, R75; 01_architecture.md R34; 12_twin.md R345; 13_memory.md R377). -/
def Obligations.SolverFrame : Prop :=
  ∀ i s t, isGsv i = true → exec i s = .next t →
    DevAlone s t ∧ OnlyBlocks [4, 12, 13] s t ∧ BusKept s t ∧
    t.dev = { s.dev with regs := t.dev.regs, msix := t.dev.msix, resp := t.dev.resp, stg := t.dev.stg, q := t.dev.q, gsv := t.dev.gsv,
                         tw := t.dev.tw, ms := t.dev.ms, hi := t.dev.hi }

/-- Commands of the crosspoint and of the correction engine, while the consist has no more feeds than the part (00_scope.md R1): those of
the crosspoint change blocks 2, 3, 4, 12 and 13, those of the correction engine blocks 2, 5, 12 and 13, the signal box where decrements of a
completed item's successors are due (06_signal_box.md R186, R194) (03_crosspoint.md R107; 04_correction.md
R140; 12_twin.md R345, R353; 13_memory.md R388). -/
def Obligations.RendererFrame : Prop :=
  (∀ i s t, isCrm i = true → s.dev.crm.nout ≤ 1024 → exec i s = .next t →
    DevAlone s t ∧ OnlyBlocks [2, 3, 4, 12, 13] s t ∧
    t.dev = { s.dev with regs := t.dev.regs, msix := t.dev.msix, caps := t.dev.caps, resp := t.dev.resp, q := t.dev.q, crm := t.dev.crm,
                         sb := t.dev.sb, tw := t.dev.tw, ms := t.dev.ms, hi := t.dev.hi }) ∧
  (∀ i s t, isCce i = true → i.wellFormed = true → s.dev.crm.nout ≤ 1024 → exec i s = .next t →
    DevAlone s t ∧ OnlyBlocks [2, 5, 12, 13] s t ∧
    t.dev = { s.dev with regs := t.dev.regs, msix := t.dev.msix, resp := t.dev.resp, q := t.dev.q, crm := t.dev.crm, cce := t.dev.cce,
                         sb := t.dev.sb, tw := t.dev.tw, ms := t.dev.ms, hi := t.dev.hi })

/-- A command of the signal box changes blocks 2, 12 and 13, the signal box, the engines it dispatches to, holding registers, the answer
and what the twin is to be told (06_signal_box.md R188, R205; 12_twin.md R345; 13_memory.md R388); what an engine does with its item changes
the engines, their queues, blocks 2, 12, 13 and the engine's own registers (05_virif_engines.md R144, R166, R169, R171 to R174). -/
def Obligations.SignalBoxFrame : Prop :=
  (∀ i s t, isSbox i = true → exec i s = .next t →
    DevAlone s t ∧ OnlyBlocks [2, 12, 13] s t ∧
    t.dev = { s.dev with regs := t.dev.regs, msix := t.dev.msix, caps := t.dev.caps, resp := t.dev.resp, vf := t.dev.vf, sb := t.dev.sb,
                         tw := t.dev.tw, ms := t.dev.ms, hi := t.dev.hi }) ∧
  (∀ i s t, isItem i = true → exec i s = .next t →
    DevAlone s t ∧ OnlyBlocks [2, 12, 13, 64] s t ∧
    t.dev = { s.dev with regs := t.dev.regs, msix := t.dev.msix, resp := t.dev.resp, q := t.dev.q, vf := t.dev.vf, sb := t.dev.sb,
                         tw := t.dev.tw, ms := t.dev.ms, hi := t.dev.hi })

/-- A command of the twin link changes block 12, the twin unit, the link's queue with its audit in block 0, and the loaders of the renderer
and of the signal box, which a unit that becomes a copy stops (12_twin.md R342, R348, R366; 01_architecture.md R39); an access through a bridge what
`BusKept` names and in block 13 the event of a sequence that it ends (13_memory.md R377); the DRAM pattern test block 12, the twin unit and the
count of the bursts (12_twin.md R360; 13_memory.md R388). -/
def Obligations.TwinFrame : Prop :=
  (∀ i s t, isTwin i = true → exec i s = .next t →
    DevAlone s t ∧ OnlyBlocks [0, 2, 3, 5, 12, 13] s t ∧ BusKept s t ∧
    t.dev = { s.dev with regs := t.dev.regs, msix := t.dev.msix, resp := t.dev.resp, q := t.dev.q, tw := t.dev.tw, crm := t.dev.crm,
                         cce := t.dev.cce, sb := t.dev.sb, ms := t.dev.ms, hi := t.dev.hi }) ∧
  (∀ s t good, exec (.dramPatternTest good) s = .next t →
    t.pending = s.pending ∧ t.fuses = s.fuses ∧ OnlyBlocks [12] s t ∧
    t.dev = { s.dev with regs := t.dev.regs, msix := t.dev.msix, tw := t.dev.tw, ms := { s.dev.ms with bursts := t.dev.ms.bursts } })

/-- A command of the memory system changes blocks 3, 5, 12 and 13, the memory system, what an uncorrectable word silences, what the twin is
to be told, the answer and the result of a debug access (13_memory.md R368, R369, R387, R388; 12_twin.md R353; 17_security_debug.md R469); a
sequence that times out changes block 13 and the memory system alone (R377). -/
def Obligations.MemorySystemFrame : Prop :=
  (∀ i s t, isMsys i = true → i.wellFormed = true → exec i s = .next t →
    t.pending = s.pending ∧ t.fuses = s.fuses ∧ OnlyBlocks [3, 5, 12, 13] s t ∧
    t.dev = { s.dev with regs := t.dev.regs, msix := t.dev.msix, resp := t.dev.resp, crm := t.dev.crm, cce := t.dev.cce, tw := t.dev.tw,
                         ms := t.dev.ms, se := t.dev.se, hi := t.dev.hi }) ∧
  (∀ s t k, exec (.lockTo k) s = .next t →
    DevAlone s t ∧ OnlyBlocks [13] s t ∧ t.dev = { s.dev with regs := t.dev.regs, msix := t.dev.msix, ms := t.dev.ms })

/-- A command of the host side changes blocks 12, 14, 15 and 16, the host unit, in block 13 the event of a sequence that an access ends, and what its
target granted (13_memory.md R376, R377), the staging words, what the twin is to be told and the
answer; an access to a lock leaves every other lock; a Station command of `isService` changes blocks 1, 14 and 16, the host unit, frames
that firmware frees, the PTP configuration, the challenge and the free values (14_host_mailboxes.md R397, R404, R406 to R409;
16_modes_power.md R452; 17_security_debug.md R471). -/
def Obligations.HostSideFrame : Prop :=
  (∀ i s t, isMbox i = true → exec i s = .next t →
    DevAlone s t ∧ OnlyBlocks [12, 13, 14, 15, 16] s t ∧
    t.dev.ms = { s.dev.ms with granted := t.dev.ms.granted, reqs := t.dev.ms.reqs, locks := t.dev.ms.locks } ∧
    t.dev = { s.dev with regs := t.dev.regs, msix := t.dev.msix, stg := t.dev.stg, resp := t.dev.resp, tw := t.dev.tw, hi := t.dev.hi,
                         ms := t.dev.ms }) ∧
  (∀ i s t, isService i = true → exec i s = .next t →
    DevAlone s t ∧ OnlyBlocks [1, 14, 16] s t ∧
    t.dev = { s.dev with regs := t.dev.regs, msix := t.dev.msix, free := t.dev.free, net := t.dev.net, tu := t.dev.tu, hi := t.dev.hi,
                         se := t.dev.se }) ∧
  (∀ s t m (k : Fin 64) j, j ≠ k.val → exec (.lockRead m k) s = .next t → Tbl.get? t.dev.hi.locks j = Tbl.get? s.dev.hi.locks j) ∧
  (∀ s t m (k : Fin 64) v j, j ≠ k.val → exec (.lockWrite m k v) s = .next t → Tbl.get? t.dev.hi.locks j = Tbl.get? s.dev.hi.locks j)

/-- A request of a mode changes the mode's own state, the output ramps, what was solved for a resume, the pin of Siding, what an access through a
bridge changes, and blocks 0, 11, 12, 13 and 16 (02_gain_solver.md R59; 16_modes_power.md R441 to R447, R452,
R459, R460); a command of the debug port that only moves its registers changes no register of the part (17_security_debug.md R469), and one
that attaches, releases or moves to Inspection blocks 0, 1, 11 and 13 (R470, R476; 13_memory.md R377); a ticket moves in its queue alone, and the audit's counters
are cleared in block 0 alone (01_architecture.md R34, R40, R41). -/
def Obligations.ModesDebugFrame : Prop :=
  (∀ i s t, isMode i = true → exec i s = .next t →
    DevAlone s t ∧ OnlyBlocks [0, 11, 12, 13, 16] s t ∧
    t.dev = { s.dev with regs := t.dev.regs, msix := t.dev.msix, resp := t.dev.resp, gsv := t.dev.gsv, q := t.dev.q, cce := t.dev.cce,
                         ao := t.dev.ao, tw := t.dev.tw, md := t.dev.md, ms := t.dev.ms, hi := t.dev.hi }) ∧
  (∀ i s t, isTap i = true → exec i s = .next t → t = { s with dev := { s.dev with se := t.dev.se, msix := t.dev.msix } }) ∧
  (∀ i s t, isDebugCtl i = true → exec i s = .next t →
    DevAlone s t ∧ OnlyBlocks [0, 1, 11, 13] s t ∧ BusKept s t ∧
    t.dev = { s.dev with regs := t.dev.regs, msix := t.dev.msix, resp := t.dev.resp, gsv := t.dev.gsv, q := t.dev.q, cce := t.dev.cce,
                         ao := t.dev.ao, md := t.dev.md, se := t.dev.se, ms := t.dev.ms, hi := t.dev.hi }) ∧
  (∀ s t m v, exec (.tkaClr m v) s = .next t →
    OnlyBlocks [0, 13] s t ∧ BusKept s t ∧
    t = { s with dev := { s.dev with regs := t.dev.regs, msix := t.dev.msix, resp := t.dev.resp, q := t.dev.q, ms := t.dev.ms, hi := t.dev.hi } }) ∧
  (∀ s t n, exec (.queueSlotFilled n) s = .next t → t = { s with dev := { s.dev with q := t.dev.q, msix := t.dev.msix } }) ∧
  (∀ s t n, exec (.ticketReturn n) s = .next t → t = { s with dev := { s.dev with q := t.dev.q, msix := t.dev.msix } })

/-- The engine and the standard bundle of a row of 05_virif_engines.md R152 or R157. -/
def Sys2Proof.stdRow (i : Instr) : Option (Fin 16 × Std) :=
  match i with
  | .vNop e o | .vMov e o | .vAdd e o | .vSub e o | .vAdds e o | .vSubs e o | .vNegs e o | .vAbss e o | .vAnd e o | .vOr e o | .vXor e o
  | .vNot e o | .vShl e o | .vShr e o | .vShrl e o | .vMin e o | .vMax e o | .vCmp e o | .vNsb e o | .vMpy e o | .vMac e o | .vMsu e o
  | .vMac2 e o | .vAclr e o | .vAmov e o | .vAadd e o | .vAshl e o | .vAshr e o | .vArd e o | .vAld e o | .vTapm e o | .vBxv e o
  | .vCmac e o | .vBfly e o | .vMvc e o | .vMcv e o => some (e, o)
  | .loadWord e y sl other ce => some (e, slotBundle y sl other ce 1)
  | .storeWord e y sl other ce => some (e, slotBundle y sl other ce 2)
  | .loadPair e y sl other ce => some (e, slotBundle y sl other ce 3)
  | .storePair e y sl other ce => some (e, slotBundle y sl other ce 4)
  | .storeAcc e y sl other ce => some (e, slotBundle y sl other ce 5)
  | .registerCopy e y sl other ce => some (e, slotBundle y sl other ce 6)
  | _ => none

/-- The engine of an immediate or control bundle. -/
def Sys2Proof.immRow (i : Instr) : Option (Fin 16) :=
  match i with
  | .ldi e _ | .ldip e _ | .ldim e _ | .ldil e _ | .addi e _ | .addip e _ | .mvp e _ | .mpv e _ | .controlNop e _ | .bra e _ | .call e _
  | .ret e _ | .loop e _ | .loopr e _ | .endItem e _ | .prot e _ | .unprot e _ | .xgo e _ | .xwait e _ | .brk e _ => some e
  | _ => none

/-- The word of Y that a TAPM shifts (05_virif_engines.md R160). -/
def Sys2Proof.tapmWords (i : Instr) (s : State) : List (Nat × Word) :=
  match i with
  | .vTapm e o => (opTapm (ctxOf s e.val) o (xMove s e.val o) (yMove s e.val o)).yw
  | _ => []

/-- Byte `a` is none of the bytes of the local words that `ws` names. -/
abbrev Sys2Proof.clearOf (e : Nat) (y : Bool) (ws : List (Nat × Word)) (a : Nat) : Prop :=
  ∀ p ∈ ws, a < localAddr e y p.1 ∨ localAddr e y p.1 + 4 ≤ a

/-- A bundle changes its own engine alone, and of the memory the words that its move slots store and a TAPM shifts (05_virif_engines.md
R142, R152, R155, R160); errors of the words it reads are counted in block 13 and told to the twin, whose block 12 a fault reaches (R144; 12_twin.md R353). An immediate or a
control bundle stores nothing, and an XGO may take a ticket of a queue (R169). -/
def Obligations.BundleFrame : Prop :=
  (∀ i s t e o, stdRow i = some (e, o) → exec i s = .next t →
    t.pending = s.pending ∧ t.fuses = s.fuses ∧ OnlyBlocks [12, 13] s t ∧
    t.dev = { s.dev with regs := t.dev.regs, vf := t.dev.vf, ms := t.dev.ms, tw := t.dev.tw, msix := t.dev.msix } ∧
    (∀ k, k ≠ e.val → t.dev.eng k = s.dev.eng k) ∧
    (∀ a, clearOf e.val false (xMove s e.val o).sw a → clearOf e.val true (yMove s e.val o).sw a →
      clearOf e.val true (tapmWords i s) a → Memory.rd8 t.mem a = Memory.rd8 s.mem a)) ∧
  (∀ i s t e, immRow i = some e → exec i s = .next t →
    DevAlone s t ∧ OnlyBlocks [13] s t ∧
    t.dev = { s.dev with regs := t.dev.regs, vf := t.dev.vf, q := t.dev.q, ms := t.dev.ms, tw := t.dev.tw, msix := t.dev.msix } ∧
    (∀ k, k ≠ e.val → t.dev.eng k = s.dev.eng k))

/-- The commands that may write or clear the memory. -/
def Sys2Proof.touchesMem (i : Instr) : Bool :=
  (stdRow i).isSome ||
  match i with
  | .xferDone .. | .regWrite .. | .wideLoWrite .. | .wideHiWrite .. | .peakRegWrite .. | .unmappedAccess .. | .spiWrite .. | .spiRead ..
  | .fabricGrant .. | .lockedRead .. | .unlockingWrite .. | .dbgMem .. | .txDone .. | .frameReceive .. | .streamPacketRx .. | .metadataPacket ..
  | .collision .. | .block .. | .dramPatternTest ..
  | .standbyDeparture .. | .selfCheck .. | .drInitDone .. | .dramRequest .. | .consistLoad .. | .flashRead .. | .frameTx .. | .frameRxDone ..
  | .carReceived .. | .boot .. | .consistFetchFailure | .secLcReq .. | .unlockVerified | .transitionStepEnd | .powerOnReset .. | .resetN
  | .railUndervoltage | .lcBurnDone .. | .monitorTrip => true
  | _ => false

/-- The commands in which a fuse may be burned: a burn that ends, and every reset that may cut one short. -/
def Sys2Proof.touchesFuses (i : Instr) : Bool :=
  match i with
  | .lcBurnDone .. | .pgmDone .. | .powerOnReset .. | .resetN | .railUndervoltage | .monitorTrip | .sysRst .. | .unlockVerified | .transitionStepEnd
  | .regWrite .. | .wideLoWrite .. | .wideHiWrite .. | .peakRegWrite .. | .unmappedAccess .. | .spiWrite .. | .spiRead .. | .fabricGrant ..
  | .lockedRead .. | .unlockingWrite .. | .dbgMem .. | .consistLoad .. | .carReceived .. | .boot .. | .consistFetchFailure => true
  | _ => false

/-- Every command but those named leaves every byte of the memory, and every command but those named leaves every fuse
(13_memory.md R367; 18_variants_fuses.md R479). -/
def Obligations.MemoryAndFusesKept : Prop :=
  (∀ i s t, touchesMem i = false → exec i s = .next t → t.mem = s.mem) ∧
  (∀ i s t, touchesFuses i = false → exec i s = .next t → t.fuses = s.fuses)

/-- Byte `a` lies outside the `n` bytes from `b`. -/
abbrev Sys2Proof.outside (b n a : Nat) : Prop := a < b ∨ b + n ≤ a

/-- What the masters have issued stands at its targets as `g` grants (13_memory.md R374, R379). -/
abbrev Sys2Proof.issued (s : State) (g : Grant) : World :=
  g.reqs.foldl (fun w q => (w.onDev (issue false { q with lock := false })).sends w) ⟨s.fuses, s.mem, s.dev⟩

/-- The burst that target `k` grants (13_memory.md R376). -/
abbrev Sys2Proof.chosen (d : Dev) (k : Nat) (write : Bool) (cyc : Nat) : Option FabWait := d.winner k write cyc (d.ripe k write)

/-- The burst that its target grants as agent `m` issues the access to one word at `a`. -/
abbrev Sys2Proof.wordChosen (s : State) (tap : Bool) (m : Agent) (write : Bool) (a : Nat) (v : Word) (lock : Bool) (ecc : List EccHit) :
    Option FabWait :=
  (s.dev.targetOf a).bind (fun k =>
    chosen (issue tap (s.dev.wordReq m 0 write a v lock ecc) s.dev) k write s.dev.now)

/-- The burst `x` does not store to byte `a`, nor to a register. -/
abbrev Sys2Proof.spares (x : Option FabWait) (a : Nat) : Prop :=
  ∀ w, x = some w → w.tgt ≠ 11 ∧ engOf w.req.addr = none ∧ (w.req.write = true → outside w.req.addr w.req.size a)

/-- A store through the fabric changes the bytes of the burst that is granted alone, at a target that is no register: the unlocking write, a granted
burst and a debug write; a read changes none (13_memory.md R374, R376 to R379; 17_security_debug.md R469). -/
def Obligations.FabricStoresFrame : Prop :=
  (∀ s t m a v ecc x, s.dev.targetOf a ≠ some 11 → spares (wordChosen s false m true a v true ecc) x →
    exec (.unlockingWrite m a v ecc) s = .next t → Memory.rd8 t.mem x = Memory.rd8 s.mem x) ∧
  (∀ s t m a ecc, exec (.lockedRead m a ecc) s = .next t → t.mem = s.mem) ∧
  (∀ s t (g : Grant) x, spares (chosen (issued s g).dev g.tgt.val g.write g.cyc) x →
    exec (.fabricGrant g) s = .next t → Memory.rd8 t.mem x = Memory.rd8 s.mem x) ∧
  (∀ s t a v ecc x, s.dev.targetOf (a % 2 ^ 40) ≠ some 11 → spares (wordChosen s true .debug true (a % 2 ^ 40) v false ecc) x →
    exec (.dbgMem true a v ecc) s = .next t → Memory.rd8 t.mem x = Memory.rd8 s.mem x) ∧
  (∀ s t a v ecc, exec (.dbgMem false a v ecc) s = .next t → t.mem = s.mem)

/-- A unit that stores changes the bytes it stores to alone: the self-check its areas (13_memory.md R380), the zeroing of segments (R382), the DRAM
controller the burst it serves (R383), the pattern test its region (12_twin.md R360), a received frame its buffer, two words of its descriptor and
the host's ring (08_network.md R237, R238; 14_host_mailboxes.md R407), a transfer its external or its local range (05_virif_engines.md R167). -/
def Obligations.UnitStoresFrame : Prop :=
  (∀ s t res x, (∀ k a n, k < 14 → s.dev.checkArea k = some (a, n, true) → outside a n x) →
    exec (.selfCheck res) s = .next t → Memory.rd8 t.mem x = Memory.rd8 s.mem x) ∧
  (∀ s t n x, (∀ k ∈ zeroed s n, outside (drBase + k * s.dev.segBytes) s.dev.segBytes x) →
    exec (.drInitDone n) s = .next t → Memory.rd8 t.mem x = Memory.rd8 s.mem x) ∧
  (∀ s t r x, (∀ q, drServed s r = some q → q.write = true → outside q.addr q.data.length x) →
    exec (.dramRequest r) s = .next t → Memory.rd8 t.mem x = Memory.rd8 s.mem x) ∧
  (∀ s t good x, (∀ a, s.dev.patternAt = some a → outside a (2 ^ 20) x) →
    exec (.dramPatternTest good) s = .next t → Memory.rd8 t.mem x = Memory.rd8 s.mem x) ∧
  (∀ s t (p : Fin 3) (fr : RxFrame) i x, i ∈ [.frameReceive p fr, .streamPacketRx p fr, .metadataPacket p fr] → (∀ k rest, s.dev.net.free = k :: rest →
      outside (descBuf s.mem (s.dev.descAt k)).1 fr.bytes.length x ∧ outside (s.dev.descAt k + 4) 8 x) →
    (∀ r, s.dev.hi.ring = some r → ∀ n, n < r.count → outside (r.addr + 2048 * n) 2048 x) →
    exec i s = .next t → Memory.rd8 t.mem x = Memory.rd8 s.mem x) ∧
  (∀ s t (e : Fin 16) (c : Fin 4) waited ecc x, (∀ a, ((ctxOf s e.val).chan c.val).act = some a →
      if a.kind = 1 then outside a.ext (4 * a.n) x else ∀ i, i < a.n → outside (localAddr e.val a.y (a.word + i)) 4 x) →
    exec (.xferDone e c waited ecc) s = .next t → Memory.rd8 t.mem x = Memory.rd8 s.mem x)

/-- The registers of the descriptor pool and of the time-stamp queues act on accesses from agents 4 to 7 alone: any other agent reads 0
and its writes are ignored (08_network.md R236); the bridge alone counts the access (13_memory.md R376, R388). -/
def Obligations.DescriptorAgents : Prop :=
  ∀ s m (p : Fin 3) tx v, Serves s m → (m.num < 4 ∨ 7 < m.num) →
    let rd : Dev := granted 11 m.master false s.dev
    let wr : State := { s with dev := granted 11 m.master true s.dev }
    exec (.nbAlloc m) s = .next { s with dev := { rd with resp := ⟨[0#32], false⟩ } } ∧
    exec (.npTxdonePop m p) s = .next { s with dev := { rd with resp := ⟨[0#32], false⟩ } } ∧
    exec (.npRxrdyPop m p) s = .next { s with dev := { rd with resp := ⟨[0#32], false⟩ } } ∧
    exec (.tsQueuePop m p tx) s = .next { s with dev := { rd with resp := ⟨[0#32], false⟩ } } ∧
    exec (.nbRelease m v) s = .next wr ∧
    exec (.npTxpost m p v) s = .next wr

/-! ### The step and the whole machine -/

/-- A step takes the command at the front of the queue and is its effect on the state with the queue's rest; with no command waiting the
block idles (the model's queue and its idling: notes/assumptions/1.md). -/
def Obligations.StepTakesFront : Prop :=
  (∀ i rest s, s.pending = i :: rest → step s = exec i { s with pending := rest }) ∧
  (∀ s, s.pending = [] → step s = .next s)

/-- Every command of the table answers a next state, and none touches the queue (the model's queue: notes/assumptions/1.md;
00_scope.md R6, R13: what the part does not accept it answers or ignores). -/
def Obligations.CommandsAlwaysComplete : Prop :=
  ∀ i s, ∃ t, exec i s = .next t ∧ t.pending = s.pending

/-- The state after reset: canonical tables, no command waiting, every store 0 (13_memory.md R370), Shunt with the boot due, no debug
attach and no lock held (the choice of the instant of the release: notes/assumptions/2.md). -/
def Obligations.ResetState : Prop :=
  Sys2Proof.Inv State.reset ∧ State.reset.pending = [] ∧ (∀ a, Memory.rd8 State.reset.mem a = 0#8) ∧ Awake State.reset ∧
  State.reset.dev.mode = mShunt ∧ State.reset.dev.f F.STATUS_DP_RSTEP = 4 ∧ State.reset.dev.hi.locks = [] ∧
  State.reset.dev.fb F.STATUS_SEC_ATTACH = false ∧ State.reset.dev.ms.locks = [] ∧ State.reset.dev.ld = none

/-- From every state whose memory and fuse bank are in canonical form, a step leaves them so (13_memory.md R367; 18_variants_fuses.md R479;
the canonical form is the model's: notes/assumptions/3.md). -/
def Obligations.StepKeepsInv : Prop :=
  ∀ s t, Sys2Proof.Inv s → step s = .next t → Sys2Proof.Inv t

/-- No step unburns a fuse: a bit that reads 1 reads 1 for ever (18_variants_fuses.md R479). -/
def Obligations.FusesStayBurned : Prop :=
  ∀ s t, step s = .next t → fusesKept s.fuses t.fuses
end

