-- ==== Sys2Proof/Laws/Bits.lean ====
section
/-!
SUPPORT. Bit fields: a field read back after it is set, and the fields beside it.
-/
namespace Sys2Proof.Machine

/-- A word taken apart at a field: what lies above it, the field, what lies below. -/
theorem word_split (x lo n : Nat) : x = (x / 2 ^ lo / 2 ^ n * 2 ^ n + x / 2 ^ lo % 2 ^ n) * 2 ^ lo + x % 2 ^ lo := by
  have h1 := Nat.div_add_mod (x / 2 ^ lo) (2 ^ n)
  have h2 := Nat.div_add_mod x (2 ^ lo)
  rw [Nat.mul_comm] at h1 h2
  rw [h1, h2]

theorem bits_eq (w : Word) (lo n : Nat) : bits w lo n = w.toNat / 2 ^ lo % 2 ^ n := by
  rw [bits, Nat.shiftRight_eq_div_pow]

theorem bits_lt (w : Word) (lo n : Nat) : bits w lo n < 2 ^ n := Nat.mod_lt _ (Nat.two_pow_pos n)

theorem setBits_toNat (w : Word) {lo n : Nat} (v : Nat) (h : lo + n ≤ 32) :
    (setBits w lo n v).toNat = (w.toNat / 2 ^ lo / 2 ^ n * 2 ^ n + v % 2 ^ n) * 2 ^ lo + w.toNat % 2 ^ lo := by
  have hs := word_split w.toNat lo n
  have hv : v % 2 ^ n < 2 ^ n := Nat.mod_lt _ (Nat.two_pow_pos n)
  have hr : w.toNat % 2 ^ lo < 2 ^ lo := Nat.mod_lt _ (Nat.two_pow_pos lo)
  have hb : w.toNat / 2 ^ lo % 2 ^ n < 2 ^ n := Nat.mod_lt _ (Nat.two_pow_pos n)
  have hc : w.toNat / 2 ^ lo / 2 ^ n < 2 ^ (32 - lo - n) := by
    rw [Nat.div_div_eq_div_mul, ← Nat.pow_add]
    apply Nat.div_lt_of_lt_mul
    rw [← Nat.pow_add]
    have : lo + n + (32 - lo - n) = 32 := by omega
    rw [this]; exact w.isLt
  have hn : w.toNat - bits w lo n * 2 ^ lo + v % 2 ^ n * 2 ^ lo =
      (w.toNat / 2 ^ lo / 2 ^ n * 2 ^ n + v % 2 ^ n) * 2 ^ lo + w.toNat % 2 ^ lo := by
    rw [bits_eq]
    generalize w.toNat / 2 ^ lo / 2 ^ n * 2 ^ n = c at *
    generalize w.toNat / 2 ^ lo % 2 ^ n = b at *
    generalize w.toNat % 2 ^ lo = r at *
    rw [hs, Nat.add_mul, Nat.add_mul]
    omega
  rw [setBits, BitVec.toNat_ofNat, hn]
  apply Nat.mod_eq_of_lt
  have h32 : (2 : Nat) ^ 32 = 2 ^ (32 - lo - n) * 2 ^ n * 2 ^ lo := by
    rw [← Nat.pow_add, ← Nat.pow_add]; congr 1; omega
  rw [h32]
  have h1 : w.toNat / 2 ^ lo / 2 ^ n * 2 ^ n + v % 2 ^ n < 2 ^ (32 - lo - n) * 2 ^ n := by
    have := Nat.mul_le_mul_right (2 ^ n) (Nat.succ_le_of_lt hc)
    rw [Nat.succ_mul] at this
    omega
  have := Nat.mul_le_mul_right (2 ^ lo) (Nat.succ_le_of_lt h1)
  rw [Nat.succ_mul] at this
  omega

/-- A field read back. -/
theorem bits_setBits_same (w : Word) {lo n : Nat} (v : Nat) (h : lo + n ≤ 32) : bits (setBits w lo n v) lo n = v % 2 ^ n := by
  rw [bits_eq, setBits_toNat w v h]
  have hr : w.toNat % 2 ^ lo < 2 ^ lo := Nat.mod_lt _ (Nat.two_pow_pos lo)
  rw [Nat.mul_comm _ (2 ^ lo), Nat.mul_add_div (Nat.two_pow_pos lo), Nat.div_eq_of_lt hr, Nat.add_zero, Nat.mul_comm _ (2 ^ n),
    Nat.mul_add_mod, Nat.mod_mod]

/-- A field beside the one that is set. -/
theorem bits_setBits_other (w : Word) {lo n lo' n' : Nat} (v : Nat) (h : lo + n ≤ 32) (hd : lo' + n' ≤ lo ∨ lo + n ≤ lo') :
    bits (setBits w lo n v) lo' n' = bits w lo' n' := by
  rw [bits_eq, bits_eq, setBits_toNat w v h]
  have hr : w.toNat % 2 ^ lo < 2 ^ lo := Nat.mod_lt _ (Nat.two_pow_pos lo)
  have hv : v % 2 ^ n < 2 ^ n := Nat.mod_lt _ (Nat.two_pow_pos n)
  rcases hd with hd | hd
  · have hp : (2 : Nat) ^ lo = 2 ^ (lo - lo') * 2 ^ lo' := by rw [← Nat.pow_add]; congr 1; omega
    have hq : (2 : Nat) ^ (lo - lo') = 2 ^ (lo - lo' - n') * 2 ^ n' := by rw [← Nat.pow_add]; congr 1; omega
    generalize hX : w.toNat / 2 ^ lo / 2 ^ n * 2 ^ n + v % 2 ^ n = X
    have key : ∀ Y : Nat, (Y * 2 ^ lo + w.toNat % 2 ^ lo) / 2 ^ lo' % 2 ^ n' = w.toNat % 2 ^ lo / 2 ^ lo' % 2 ^ n' := by
      intro Y
      rw [show Y * 2 ^ lo = 2 ^ lo' * (Y * 2 ^ (lo - lo')) by rw [hp]; ac_rfl, Nat.mul_add_div (Nat.two_pow_pos _), hq,
        show Y * (2 ^ (lo - lo' - n') * 2 ^ n') = 2 ^ n' * (Y * 2 ^ (lo - lo' - n')) by ac_rfl, Nat.mul_add_mod]
    rw [key X]
    have hw := word_split w.toNat lo n
    generalize hZ : w.toNat / 2 ^ lo / 2 ^ n * 2 ^ n + w.toNat / 2 ^ lo % 2 ^ n = Z at hw
    conv => rhs; rw [hw, key Z]
  · have hs : lo' = lo + n + (lo' - lo - n) := by omega
    have e1 : ∀ c b r : Nat, b < 2 ^ n → r < 2 ^ lo → ((c * 2 ^ n + b) * 2 ^ lo + r) / 2 ^ lo' = c / 2 ^ (lo' - lo - n) := by
      intro c b r hb hr
      rw [hs, Nat.pow_add, Nat.pow_add, ← Nat.div_div_eq_div_mul, ← Nat.div_div_eq_div_mul, Nat.mul_comm _ (2 ^ lo),
        Nat.mul_add_div (Nat.two_pow_pos _), Nat.div_eq_of_lt hr, Nat.add_zero, Nat.mul_comm _ (2 ^ n),
        Nat.mul_add_div (Nat.two_pow_pos _), Nat.div_eq_of_lt hb, Nat.add_zero]
      congr 2
      omega
    rw [e1 _ _ _ hv hr]
    conv => rhs; rw [word_split w.toNat lo n, e1 _ _ _ (Nat.mod_lt _ (Nat.two_pow_pos n)) hr]

/-- A bit of a word after bit `i` is set. -/
theorem bit_or (w v : Word) (i : Nat) : bit (w ||| v) i = (bit w i || bit v i) := by
  have h (x : Nat) : (x >>> i % 2 == 1) = x.testBit i := by
    rw [Nat.testBit, Nat.one_and_eq_mod_two]
    rcases Nat.mod_two_eq_zero_or_one (x >>> i) with h | h <;> simp [h]
  simp only [bit, h, BitVec.toNat_or, Nat.testBit_or]

theorem bit_pow (i j : Nat) (h : i < 32) : bit (w32 (2 ^ i)) j = decide (i = j) := by
  have h1 : (w32 (2 ^ i)).toNat = 2 ^ i := by
    rw [w32, BitVec.toNat_ofNat]; exact Nat.mod_eq_of_lt (Nat.pow_lt_pow_right (by omega) h)
  have h2 : ((2 ^ i) >>> j % 2 == 1) = (2 ^ i).testBit j := by
    rw [Nat.testBit, Nat.one_and_eq_mod_two]
    rcases Nat.mod_two_eq_zero_or_one ((2 ^ i) >>> j) with h | h <;> simp [h]
  simp [bit, h1, h2, Nat.testBit_two_pow]

end Sys2Proof.Machine
end

