-- ==== Sys2Proof/Laws/State.lean ====
section
/-!
SUPPORT. One lemma per field of the device for each of its updates, all true by rfl.
-/
namespace Sys2Proof.Machine

@[simp] theorem Dev.wr_caps (d : Dev) (r : Reg) (v : Word) : (d.wr r v).caps = d.caps := rfl
@[simp] theorem Dev.wr_stg (d : Dev) (r : Reg) (v : Word) : (d.wr r v).stg = d.stg := rfl
@[simp] theorem Dev.wr_resp (d : Dev) (r : Reg) (v : Word) : (d.wr r v).resp = d.resp := rfl
@[simp] theorem Dev.wr_free (d : Dev) (r : Reg) (v : Word) : (d.wr r v).free = d.free := rfl
@[simp] theorem Dev.wr_nextDep (d : Dev) (r : Reg) (v : Word) : (d.wr r v).nextDep = d.nextDep := rfl
@[simp] theorem Dev.wr_now (d : Dev) (r : Reg) (v : Word) : (d.wr r v).now = d.now := rfl
@[simp] theorem Dev.wr_msix (d : Dev) (r : Reg) (v : Word) : (d.wr r v).msix = d.msix := rfl
@[simp] theorem Dev.wr_cap (d : Dev) (r : Reg) (v : Word) : (d.wr r v).cap = d.cap := rfl
@[simp] theorem Dev.wr_fs (d : Dev) (r : Reg) (v : Word) : (d.wr r v).fs = d.fs := rfl
@[simp] theorem Dev.wr_q (d : Dev) (r : Reg) (v : Word) : (d.wr r v).q = d.q := rfl
@[simp] theorem Dev.wr_gsv (d : Dev) (r : Reg) (v : Word) : (d.wr r v).gsv = d.gsv := rfl
@[simp] theorem Dev.wr_crm (d : Dev) (r : Reg) (v : Word) : (d.wr r v).crm = d.crm := rfl
@[simp] theorem Dev.wr_cce (d : Dev) (r : Reg) (v : Word) : (d.wr r v).cce = d.cce := rfl
@[simp] theorem Dev.wr_vf (d : Dev) (r : Reg) (v : Word) : (d.wr r v).vf = d.vf := rfl
@[simp] theorem Dev.wr_sb (d : Dev) (r : Reg) (v : Word) : (d.wr r v).sb = d.sb := rfl
@[simp] theorem Dev.wr_tdm (d : Dev) (r : Reg) (v : Word) : (d.wr r v).tdm = d.tdm := rfl
@[simp] theorem Dev.wr_net (d : Dev) (r : Reg) (v : Word) : (d.wr r v).net = d.net := rfl
@[simp] theorem Dev.wr_tu (d : Dev) (r : Reg) (v : Word) : (d.wr r v).tu = d.tu := rfl
@[simp] theorem Dev.wr_ai (d : Dev) (r : Reg) (v : Word) : (d.wr r v).ai = d.ai := rfl
@[simp] theorem Dev.wr_ao (d : Dev) (r : Reg) (v : Word) : (d.wr r v).ao = d.ao := rfl
@[simp] theorem Dev.wr_tw (d : Dev) (r : Reg) (v : Word) : (d.wr r v).tw = d.tw := rfl
@[simp] theorem Dev.wr_ms (d : Dev) (r : Reg) (v : Word) : (d.wr r v).ms = d.ms := rfl
@[simp] theorem Dev.wr_hi (d : Dev) (r : Reg) (v : Word) : (d.wr r v).hi = d.hi := rfl
@[simp] theorem Dev.wr_md (d : Dev) (r : Reg) (v : Word) : (d.wr r v).md = d.md := rfl
@[simp] theorem Dev.wr_ld (d : Dev) (r : Reg) (v : Word) : (d.wr r v).ld = d.ld := rfl
@[simp] theorem Dev.wr_cs (d : Dev) (r : Reg) (v : Word) : (d.wr r v).cs = d.cs := rfl
@[simp] theorem Dev.wr_se (d : Dev) (r : Reg) (v : Word) : (d.wr r v).se = d.se := rfl
@[simp] theorem Dev.setF_caps (d : Dev) (f : Fld) (v : Nat) : (d.setF f v).caps = d.caps := rfl
@[simp] theorem Dev.setF_stg (d : Dev) (f : Fld) (v : Nat) : (d.setF f v).stg = d.stg := rfl
@[simp] theorem Dev.setF_resp (d : Dev) (f : Fld) (v : Nat) : (d.setF f v).resp = d.resp := rfl
@[simp] theorem Dev.setF_free (d : Dev) (f : Fld) (v : Nat) : (d.setF f v).free = d.free := rfl
@[simp] theorem Dev.setF_nextDep (d : Dev) (f : Fld) (v : Nat) : (d.setF f v).nextDep = d.nextDep := rfl
@[simp] theorem Dev.setF_now (d : Dev) (f : Fld) (v : Nat) : (d.setF f v).now = d.now := rfl
@[simp] theorem Dev.setF_msix (d : Dev) (f : Fld) (v : Nat) : (d.setF f v).msix = d.msix := rfl
@[simp] theorem Dev.setF_cap (d : Dev) (f : Fld) (v : Nat) : (d.setF f v).cap = d.cap := rfl
@[simp] theorem Dev.setF_fs (d : Dev) (f : Fld) (v : Nat) : (d.setF f v).fs = d.fs := rfl
@[simp] theorem Dev.setF_q (d : Dev) (f : Fld) (v : Nat) : (d.setF f v).q = d.q := rfl
@[simp] theorem Dev.setF_gsv (d : Dev) (f : Fld) (v : Nat) : (d.setF f v).gsv = d.gsv := rfl
@[simp] theorem Dev.setF_crm (d : Dev) (f : Fld) (v : Nat) : (d.setF f v).crm = d.crm := rfl
@[simp] theorem Dev.setF_cce (d : Dev) (f : Fld) (v : Nat) : (d.setF f v).cce = d.cce := rfl
@[simp] theorem Dev.setF_vf (d : Dev) (f : Fld) (v : Nat) : (d.setF f v).vf = d.vf := rfl
@[simp] theorem Dev.setF_sb (d : Dev) (f : Fld) (v : Nat) : (d.setF f v).sb = d.sb := rfl
@[simp] theorem Dev.setF_tdm (d : Dev) (f : Fld) (v : Nat) : (d.setF f v).tdm = d.tdm := rfl
@[simp] theorem Dev.setF_net (d : Dev) (f : Fld) (v : Nat) : (d.setF f v).net = d.net := rfl
@[simp] theorem Dev.setF_tu (d : Dev) (f : Fld) (v : Nat) : (d.setF f v).tu = d.tu := rfl
@[simp] theorem Dev.setF_ai (d : Dev) (f : Fld) (v : Nat) : (d.setF f v).ai = d.ai := rfl
@[simp] theorem Dev.setF_ao (d : Dev) (f : Fld) (v : Nat) : (d.setF f v).ao = d.ao := rfl
@[simp] theorem Dev.setF_tw (d : Dev) (f : Fld) (v : Nat) : (d.setF f v).tw = d.tw := rfl
@[simp] theorem Dev.setF_ms (d : Dev) (f : Fld) (v : Nat) : (d.setF f v).ms = d.ms := rfl
@[simp] theorem Dev.setF_hi (d : Dev) (f : Fld) (v : Nat) : (d.setF f v).hi = d.hi := rfl
@[simp] theorem Dev.setF_md (d : Dev) (f : Fld) (v : Nat) : (d.setF f v).md = d.md := rfl
@[simp] theorem Dev.setF_ld (d : Dev) (f : Fld) (v : Nat) : (d.setF f v).ld = d.ld := rfl
@[simp] theorem Dev.setF_cs (d : Dev) (f : Fld) (v : Nat) : (d.setF f v).cs = d.cs := rfl
@[simp] theorem Dev.setF_se (d : Dev) (f : Fld) (v : Nat) : (d.setF f v).se = d.se := rfl
@[simp] theorem Dev.setB_caps (d : Dev) (f : Fld) (v : Bool) : (d.setB f v).caps = d.caps := rfl
@[simp] theorem Dev.setB_stg (d : Dev) (f : Fld) (v : Bool) : (d.setB f v).stg = d.stg := rfl
@[simp] theorem Dev.setB_resp (d : Dev) (f : Fld) (v : Bool) : (d.setB f v).resp = d.resp := rfl
@[simp] theorem Dev.setB_free (d : Dev) (f : Fld) (v : Bool) : (d.setB f v).free = d.free := rfl
@[simp] theorem Dev.setB_nextDep (d : Dev) (f : Fld) (v : Bool) : (d.setB f v).nextDep = d.nextDep := rfl
@[simp] theorem Dev.setB_now (d : Dev) (f : Fld) (v : Bool) : (d.setB f v).now = d.now := rfl
@[simp] theorem Dev.setB_msix (d : Dev) (f : Fld) (v : Bool) : (d.setB f v).msix = d.msix := rfl
@[simp] theorem Dev.setB_cap (d : Dev) (f : Fld) (v : Bool) : (d.setB f v).cap = d.cap := rfl
@[simp] theorem Dev.setB_fs (d : Dev) (f : Fld) (v : Bool) : (d.setB f v).fs = d.fs := rfl
@[simp] theorem Dev.setB_q (d : Dev) (f : Fld) (v : Bool) : (d.setB f v).q = d.q := rfl
@[simp] theorem Dev.setB_gsv (d : Dev) (f : Fld) (v : Bool) : (d.setB f v).gsv = d.gsv := rfl
@[simp] theorem Dev.setB_crm (d : Dev) (f : Fld) (v : Bool) : (d.setB f v).crm = d.crm := rfl
@[simp] theorem Dev.setB_cce (d : Dev) (f : Fld) (v : Bool) : (d.setB f v).cce = d.cce := rfl
@[simp] theorem Dev.setB_vf (d : Dev) (f : Fld) (v : Bool) : (d.setB f v).vf = d.vf := rfl
@[simp] theorem Dev.setB_sb (d : Dev) (f : Fld) (v : Bool) : (d.setB f v).sb = d.sb := rfl
@[simp] theorem Dev.setB_tdm (d : Dev) (f : Fld) (v : Bool) : (d.setB f v).tdm = d.tdm := rfl
@[simp] theorem Dev.setB_net (d : Dev) (f : Fld) (v : Bool) : (d.setB f v).net = d.net := rfl
@[simp] theorem Dev.setB_tu (d : Dev) (f : Fld) (v : Bool) : (d.setB f v).tu = d.tu := rfl
@[simp] theorem Dev.setB_ai (d : Dev) (f : Fld) (v : Bool) : (d.setB f v).ai = d.ai := rfl
@[simp] theorem Dev.setB_ao (d : Dev) (f : Fld) (v : Bool) : (d.setB f v).ao = d.ao := rfl
@[simp] theorem Dev.setB_tw (d : Dev) (f : Fld) (v : Bool) : (d.setB f v).tw = d.tw := rfl
@[simp] theorem Dev.setB_ms (d : Dev) (f : Fld) (v : Bool) : (d.setB f v).ms = d.ms := rfl
@[simp] theorem Dev.setB_hi (d : Dev) (f : Fld) (v : Bool) : (d.setB f v).hi = d.hi := rfl
@[simp] theorem Dev.setB_md (d : Dev) (f : Fld) (v : Bool) : (d.setB f v).md = d.md := rfl
@[simp] theorem Dev.setB_ld (d : Dev) (f : Fld) (v : Bool) : (d.setB f v).ld = d.ld := rfl
@[simp] theorem Dev.setB_cs (d : Dev) (f : Fld) (v : Bool) : (d.setB f v).cs = d.cs := rfl
@[simp] theorem Dev.setB_se (d : Dev) (f : Fld) (v : Bool) : (d.setB f v).se = d.se := rfl
@[simp] theorem Dev.evt_caps (d : Dev) (e : EvBit) : (d.evt e).caps = d.caps := rfl
@[simp] theorem Dev.evt_stg (d : Dev) (e : EvBit) : (d.evt e).stg = d.stg := rfl
@[simp] theorem Dev.evt_resp (d : Dev) (e : EvBit) : (d.evt e).resp = d.resp := rfl
@[simp] theorem Dev.evt_free (d : Dev) (e : EvBit) : (d.evt e).free = d.free := rfl
@[simp] theorem Dev.evt_nextDep (d : Dev) (e : EvBit) : (d.evt e).nextDep = d.nextDep := rfl
@[simp] theorem Dev.evt_now (d : Dev) (e : EvBit) : (d.evt e).now = d.now := rfl
@[simp] theorem Dev.evt_msix (d : Dev) (e : EvBit) : (d.evt e).msix = d.msix := rfl
@[simp] theorem Dev.evt_cap (d : Dev) (e : EvBit) : (d.evt e).cap = d.cap := rfl
@[simp] theorem Dev.evt_fs (d : Dev) (e : EvBit) : (d.evt e).fs = d.fs := rfl
@[simp] theorem Dev.evt_q (d : Dev) (e : EvBit) : (d.evt e).q = d.q := rfl
@[simp] theorem Dev.evt_gsv (d : Dev) (e : EvBit) : (d.evt e).gsv = d.gsv := rfl
@[simp] theorem Dev.evt_crm (d : Dev) (e : EvBit) : (d.evt e).crm = d.crm := rfl
@[simp] theorem Dev.evt_cce (d : Dev) (e : EvBit) : (d.evt e).cce = d.cce := rfl
@[simp] theorem Dev.evt_vf (d : Dev) (e : EvBit) : (d.evt e).vf = d.vf := rfl
@[simp] theorem Dev.evt_sb (d : Dev) (e : EvBit) : (d.evt e).sb = d.sb := rfl
@[simp] theorem Dev.evt_tdm (d : Dev) (e : EvBit) : (d.evt e).tdm = d.tdm := rfl
@[simp] theorem Dev.evt_net (d : Dev) (e : EvBit) : (d.evt e).net = d.net := rfl
@[simp] theorem Dev.evt_tu (d : Dev) (e : EvBit) : (d.evt e).tu = d.tu := rfl
@[simp] theorem Dev.evt_ai (d : Dev) (e : EvBit) : (d.evt e).ai = d.ai := rfl
@[simp] theorem Dev.evt_ao (d : Dev) (e : EvBit) : (d.evt e).ao = d.ao := rfl
@[simp] theorem Dev.evt_tw (d : Dev) (e : EvBit) : (d.evt e).tw = d.tw := rfl
@[simp] theorem Dev.evt_ms (d : Dev) (e : EvBit) : (d.evt e).ms = d.ms := rfl
@[simp] theorem Dev.evt_hi (d : Dev) (e : EvBit) : (d.evt e).hi = d.hi := rfl
@[simp] theorem Dev.evt_md (d : Dev) (e : EvBit) : (d.evt e).md = d.md := rfl
@[simp] theorem Dev.evt_ld (d : Dev) (e : EvBit) : (d.evt e).ld = d.ld := rfl
@[simp] theorem Dev.evt_cs (d : Dev) (e : EvBit) : (d.evt e).cs = d.cs := rfl
@[simp] theorem Dev.evt_se (d : Dev) (e : EvBit) : (d.evt e).se = d.se := rfl
@[simp] theorem Dev.setBit_caps (d : Dev) (r : Reg) (i : Nat) : (d.setBit r i).caps = d.caps := rfl
@[simp] theorem Dev.setBit_stg (d : Dev) (r : Reg) (i : Nat) : (d.setBit r i).stg = d.stg := rfl
@[simp] theorem Dev.setBit_resp (d : Dev) (r : Reg) (i : Nat) : (d.setBit r i).resp = d.resp := rfl
@[simp] theorem Dev.setBit_free (d : Dev) (r : Reg) (i : Nat) : (d.setBit r i).free = d.free := rfl
@[simp] theorem Dev.setBit_nextDep (d : Dev) (r : Reg) (i : Nat) : (d.setBit r i).nextDep = d.nextDep := rfl
@[simp] theorem Dev.setBit_now (d : Dev) (r : Reg) (i : Nat) : (d.setBit r i).now = d.now := rfl
@[simp] theorem Dev.setBit_msix (d : Dev) (r : Reg) (i : Nat) : (d.setBit r i).msix = d.msix := rfl
@[simp] theorem Dev.setBit_cap (d : Dev) (r : Reg) (i : Nat) : (d.setBit r i).cap = d.cap := rfl
@[simp] theorem Dev.setBit_fs (d : Dev) (r : Reg) (i : Nat) : (d.setBit r i).fs = d.fs := rfl
@[simp] theorem Dev.setBit_q (d : Dev) (r : Reg) (i : Nat) : (d.setBit r i).q = d.q := rfl
@[simp] theorem Dev.setBit_gsv (d : Dev) (r : Reg) (i : Nat) : (d.setBit r i).gsv = d.gsv := rfl
@[simp] theorem Dev.setBit_crm (d : Dev) (r : Reg) (i : Nat) : (d.setBit r i).crm = d.crm := rfl
@[simp] theorem Dev.setBit_cce (d : Dev) (r : Reg) (i : Nat) : (d.setBit r i).cce = d.cce := rfl
@[simp] theorem Dev.setBit_vf (d : Dev) (r : Reg) (i : Nat) : (d.setBit r i).vf = d.vf := rfl
@[simp] theorem Dev.setBit_sb (d : Dev) (r : Reg) (i : Nat) : (d.setBit r i).sb = d.sb := rfl
@[simp] theorem Dev.setBit_tdm (d : Dev) (r : Reg) (i : Nat) : (d.setBit r i).tdm = d.tdm := rfl
@[simp] theorem Dev.setBit_net (d : Dev) (r : Reg) (i : Nat) : (d.setBit r i).net = d.net := rfl
@[simp] theorem Dev.setBit_tu (d : Dev) (r : Reg) (i : Nat) : (d.setBit r i).tu = d.tu := rfl
@[simp] theorem Dev.setBit_ai (d : Dev) (r : Reg) (i : Nat) : (d.setBit r i).ai = d.ai := rfl
@[simp] theorem Dev.setBit_ao (d : Dev) (r : Reg) (i : Nat) : (d.setBit r i).ao = d.ao := rfl
@[simp] theorem Dev.setBit_tw (d : Dev) (r : Reg) (i : Nat) : (d.setBit r i).tw = d.tw := rfl
@[simp] theorem Dev.setBit_ms (d : Dev) (r : Reg) (i : Nat) : (d.setBit r i).ms = d.ms := rfl
@[simp] theorem Dev.setBit_hi (d : Dev) (r : Reg) (i : Nat) : (d.setBit r i).hi = d.hi := rfl
@[simp] theorem Dev.setBit_md (d : Dev) (r : Reg) (i : Nat) : (d.setBit r i).md = d.md := rfl
@[simp] theorem Dev.setBit_ld (d : Dev) (r : Reg) (i : Nat) : (d.setBit r i).ld = d.ld := rfl
@[simp] theorem Dev.setBit_cs (d : Dev) (r : Reg) (i : Nat) : (d.setBit r i).cs = d.cs := rfl
@[simp] theorem Dev.setBit_se (d : Dev) (r : Reg) (i : Nat) : (d.setBit r i).se = d.se := rfl
@[simp] theorem Dev.bump_caps (d : Dev) (r : Reg) : (d.bump r).caps = d.caps := rfl
@[simp] theorem Dev.bump_stg (d : Dev) (r : Reg) : (d.bump r).stg = d.stg := rfl
@[simp] theorem Dev.bump_resp (d : Dev) (r : Reg) : (d.bump r).resp = d.resp := rfl
@[simp] theorem Dev.bump_free (d : Dev) (r : Reg) : (d.bump r).free = d.free := rfl
@[simp] theorem Dev.bump_nextDep (d : Dev) (r : Reg) : (d.bump r).nextDep = d.nextDep := rfl
@[simp] theorem Dev.bump_now (d : Dev) (r : Reg) : (d.bump r).now = d.now := rfl
@[simp] theorem Dev.bump_msix (d : Dev) (r : Reg) : (d.bump r).msix = d.msix := rfl
@[simp] theorem Dev.bump_cap (d : Dev) (r : Reg) : (d.bump r).cap = d.cap := rfl
@[simp] theorem Dev.bump_fs (d : Dev) (r : Reg) : (d.bump r).fs = d.fs := rfl
@[simp] theorem Dev.bump_q (d : Dev) (r : Reg) : (d.bump r).q = d.q := rfl
@[simp] theorem Dev.bump_gsv (d : Dev) (r : Reg) : (d.bump r).gsv = d.gsv := rfl
@[simp] theorem Dev.bump_crm (d : Dev) (r : Reg) : (d.bump r).crm = d.crm := rfl
@[simp] theorem Dev.bump_cce (d : Dev) (r : Reg) : (d.bump r).cce = d.cce := rfl
@[simp] theorem Dev.bump_vf (d : Dev) (r : Reg) : (d.bump r).vf = d.vf := rfl
@[simp] theorem Dev.bump_sb (d : Dev) (r : Reg) : (d.bump r).sb = d.sb := rfl
@[simp] theorem Dev.bump_tdm (d : Dev) (r : Reg) : (d.bump r).tdm = d.tdm := rfl
@[simp] theorem Dev.bump_net (d : Dev) (r : Reg) : (d.bump r).net = d.net := rfl
@[simp] theorem Dev.bump_tu (d : Dev) (r : Reg) : (d.bump r).tu = d.tu := rfl
@[simp] theorem Dev.bump_ai (d : Dev) (r : Reg) : (d.bump r).ai = d.ai := rfl
@[simp] theorem Dev.bump_ao (d : Dev) (r : Reg) : (d.bump r).ao = d.ao := rfl
@[simp] theorem Dev.bump_tw (d : Dev) (r : Reg) : (d.bump r).tw = d.tw := rfl
@[simp] theorem Dev.bump_ms (d : Dev) (r : Reg) : (d.bump r).ms = d.ms := rfl
@[simp] theorem Dev.bump_hi (d : Dev) (r : Reg) : (d.bump r).hi = d.hi := rfl
@[simp] theorem Dev.bump_md (d : Dev) (r : Reg) : (d.bump r).md = d.md := rfl
@[simp] theorem Dev.bump_ld (d : Dev) (r : Reg) : (d.bump r).ld = d.ld := rfl
@[simp] theorem Dev.bump_cs (d : Dev) (r : Reg) : (d.bump r).cs = d.cs := rfl
@[simp] theorem Dev.bump_se (d : Dev) (r : Reg) : (d.bump r).se = d.se := rfl
@[simp] theorem Dev.wr64_caps (d : Dev) (a b : Reg) (v : Nat) : (d.wr64 a b v).caps = d.caps := rfl
@[simp] theorem Dev.wr64_stg (d : Dev) (a b : Reg) (v : Nat) : (d.wr64 a b v).stg = d.stg := rfl
@[simp] theorem Dev.wr64_resp (d : Dev) (a b : Reg) (v : Nat) : (d.wr64 a b v).resp = d.resp := rfl
@[simp] theorem Dev.wr64_free (d : Dev) (a b : Reg) (v : Nat) : (d.wr64 a b v).free = d.free := rfl
@[simp] theorem Dev.wr64_nextDep (d : Dev) (a b : Reg) (v : Nat) : (d.wr64 a b v).nextDep = d.nextDep := rfl
@[simp] theorem Dev.wr64_now (d : Dev) (a b : Reg) (v : Nat) : (d.wr64 a b v).now = d.now := rfl
@[simp] theorem Dev.wr64_msix (d : Dev) (a b : Reg) (v : Nat) : (d.wr64 a b v).msix = d.msix := rfl
@[simp] theorem Dev.wr64_cap (d : Dev) (a b : Reg) (v : Nat) : (d.wr64 a b v).cap = d.cap := rfl
@[simp] theorem Dev.wr64_fs (d : Dev) (a b : Reg) (v : Nat) : (d.wr64 a b v).fs = d.fs := rfl
@[simp] theorem Dev.wr64_q (d : Dev) (a b : Reg) (v : Nat) : (d.wr64 a b v).q = d.q := rfl
@[simp] theorem Dev.wr64_gsv (d : Dev) (a b : Reg) (v : Nat) : (d.wr64 a b v).gsv = d.gsv := rfl
@[simp] theorem Dev.wr64_crm (d : Dev) (a b : Reg) (v : Nat) : (d.wr64 a b v).crm = d.crm := rfl
@[simp] theorem Dev.wr64_cce (d : Dev) (a b : Reg) (v : Nat) : (d.wr64 a b v).cce = d.cce := rfl
@[simp] theorem Dev.wr64_vf (d : Dev) (a b : Reg) (v : Nat) : (d.wr64 a b v).vf = d.vf := rfl
@[simp] theorem Dev.wr64_sb (d : Dev) (a b : Reg) (v : Nat) : (d.wr64 a b v).sb = d.sb := rfl
@[simp] theorem Dev.wr64_tdm (d : Dev) (a b : Reg) (v : Nat) : (d.wr64 a b v).tdm = d.tdm := rfl
@[simp] theorem Dev.wr64_net (d : Dev) (a b : Reg) (v : Nat) : (d.wr64 a b v).net = d.net := rfl
@[simp] theorem Dev.wr64_tu (d : Dev) (a b : Reg) (v : Nat) : (d.wr64 a b v).tu = d.tu := rfl
@[simp] theorem Dev.wr64_ai (d : Dev) (a b : Reg) (v : Nat) : (d.wr64 a b v).ai = d.ai := rfl
@[simp] theorem Dev.wr64_ao (d : Dev) (a b : Reg) (v : Nat) : (d.wr64 a b v).ao = d.ao := rfl
@[simp] theorem Dev.wr64_tw (d : Dev) (a b : Reg) (v : Nat) : (d.wr64 a b v).tw = d.tw := rfl
@[simp] theorem Dev.wr64_ms (d : Dev) (a b : Reg) (v : Nat) : (d.wr64 a b v).ms = d.ms := rfl
@[simp] theorem Dev.wr64_hi (d : Dev) (a b : Reg) (v : Nat) : (d.wr64 a b v).hi = d.hi := rfl
@[simp] theorem Dev.wr64_md (d : Dev) (a b : Reg) (v : Nat) : (d.wr64 a b v).md = d.md := rfl
@[simp] theorem Dev.wr64_ld (d : Dev) (a b : Reg) (v : Nat) : (d.wr64 a b v).ld = d.ld := rfl
@[simp] theorem Dev.wr64_cs (d : Dev) (a b : Reg) (v : Nat) : (d.wr64 a b v).cs = d.cs := rfl
@[simp] theorem Dev.wr64_se (d : Dev) (a b : Reg) (v : Nat) : (d.wr64 a b v).se = d.se := rfl
@[simp] theorem Dev.answer_regs (d : Dev) (w : Word) : (d.answer w).regs = d.regs := rfl
@[simp] theorem Dev.answer_caps (d : Dev) (w : Word) : (d.answer w).caps = d.caps := rfl
@[simp] theorem Dev.answer_stg (d : Dev) (w : Word) : (d.answer w).stg = d.stg := rfl
@[simp] theorem Dev.answer_free (d : Dev) (w : Word) : (d.answer w).free = d.free := rfl
@[simp] theorem Dev.answer_nextDep (d : Dev) (w : Word) : (d.answer w).nextDep = d.nextDep := rfl
@[simp] theorem Dev.answer_now (d : Dev) (w : Word) : (d.answer w).now = d.now := rfl
@[simp] theorem Dev.answer_msix (d : Dev) (w : Word) : (d.answer w).msix = d.msix := rfl
@[simp] theorem Dev.answer_cap (d : Dev) (w : Word) : (d.answer w).cap = d.cap := rfl
@[simp] theorem Dev.answer_fs (d : Dev) (w : Word) : (d.answer w).fs = d.fs := rfl
@[simp] theorem Dev.answer_q (d : Dev) (w : Word) : (d.answer w).q = d.q := rfl
@[simp] theorem Dev.answer_gsv (d : Dev) (w : Word) : (d.answer w).gsv = d.gsv := rfl
@[simp] theorem Dev.answer_crm (d : Dev) (w : Word) : (d.answer w).crm = d.crm := rfl
@[simp] theorem Dev.answer_cce (d : Dev) (w : Word) : (d.answer w).cce = d.cce := rfl
@[simp] theorem Dev.answer_vf (d : Dev) (w : Word) : (d.answer w).vf = d.vf := rfl
@[simp] theorem Dev.answer_sb (d : Dev) (w : Word) : (d.answer w).sb = d.sb := rfl
@[simp] theorem Dev.answer_tdm (d : Dev) (w : Word) : (d.answer w).tdm = d.tdm := rfl
@[simp] theorem Dev.answer_net (d : Dev) (w : Word) : (d.answer w).net = d.net := rfl
@[simp] theorem Dev.answer_tu (d : Dev) (w : Word) : (d.answer w).tu = d.tu := rfl
@[simp] theorem Dev.answer_ai (d : Dev) (w : Word) : (d.answer w).ai = d.ai := rfl
@[simp] theorem Dev.answer_ao (d : Dev) (w : Word) : (d.answer w).ao = d.ao := rfl
@[simp] theorem Dev.answer_tw (d : Dev) (w : Word) : (d.answer w).tw = d.tw := rfl
@[simp] theorem Dev.answer_ms (d : Dev) (w : Word) : (d.answer w).ms = d.ms := rfl
@[simp] theorem Dev.answer_hi (d : Dev) (w : Word) : (d.answer w).hi = d.hi := rfl
@[simp] theorem Dev.answer_md (d : Dev) (w : Word) : (d.answer w).md = d.md := rfl
@[simp] theorem Dev.answer_ld (d : Dev) (w : Word) : (d.answer w).ld = d.ld := rfl
@[simp] theorem Dev.answer_cs (d : Dev) (w : Word) : (d.answer w).cs = d.cs := rfl
@[simp] theorem Dev.answer_se (d : Dev) (w : Word) : (d.answer w).se = d.se := rfl
@[simp] theorem Dev.setHold_regs (d : Dev) (r : Reg) (m : Agent) (v : Word) : (d.setHold r m v).regs = d.regs := rfl
@[simp] theorem Dev.setHold_stg (d : Dev) (r : Reg) (m : Agent) (v : Word) : (d.setHold r m v).stg = d.stg := rfl
@[simp] theorem Dev.setHold_resp (d : Dev) (r : Reg) (m : Agent) (v : Word) : (d.setHold r m v).resp = d.resp := rfl
@[simp] theorem Dev.setHold_free (d : Dev) (r : Reg) (m : Agent) (v : Word) : (d.setHold r m v).free = d.free := rfl
@[simp] theorem Dev.setHold_nextDep (d : Dev) (r : Reg) (m : Agent) (v : Word) : (d.setHold r m v).nextDep = d.nextDep := rfl
@[simp] theorem Dev.setHold_now (d : Dev) (r : Reg) (m : Agent) (v : Word) : (d.setHold r m v).now = d.now := rfl
@[simp] theorem Dev.setHold_msix (d : Dev) (r : Reg) (m : Agent) (v : Word) : (d.setHold r m v).msix = d.msix := rfl
@[simp] theorem Dev.setHold_cap (d : Dev) (r : Reg) (m : Agent) (v : Word) : (d.setHold r m v).cap = d.cap := rfl
@[simp] theorem Dev.setHold_fs (d : Dev) (r : Reg) (m : Agent) (v : Word) : (d.setHold r m v).fs = d.fs := rfl
@[simp] theorem Dev.setHold_q (d : Dev) (r : Reg) (m : Agent) (v : Word) : (d.setHold r m v).q = d.q := rfl
@[simp] theorem Dev.setHold_gsv (d : Dev) (r : Reg) (m : Agent) (v : Word) : (d.setHold r m v).gsv = d.gsv := rfl
@[simp] theorem Dev.setHold_crm (d : Dev) (r : Reg) (m : Agent) (v : Word) : (d.setHold r m v).crm = d.crm := rfl
@[simp] theorem Dev.setHold_cce (d : Dev) (r : Reg) (m : Agent) (v : Word) : (d.setHold r m v).cce = d.cce := rfl
@[simp] theorem Dev.setHold_vf (d : Dev) (r : Reg) (m : Agent) (v : Word) : (d.setHold r m v).vf = d.vf := rfl
@[simp] theorem Dev.setHold_sb (d : Dev) (r : Reg) (m : Agent) (v : Word) : (d.setHold r m v).sb = d.sb := rfl
@[simp] theorem Dev.setHold_tdm (d : Dev) (r : Reg) (m : Agent) (v : Word) : (d.setHold r m v).tdm = d.tdm := rfl
@[simp] theorem Dev.setHold_net (d : Dev) (r : Reg) (m : Agent) (v : Word) : (d.setHold r m v).net = d.net := rfl
@[simp] theorem Dev.setHold_tu (d : Dev) (r : Reg) (m : Agent) (v : Word) : (d.setHold r m v).tu = d.tu := rfl
@[simp] theorem Dev.setHold_ai (d : Dev) (r : Reg) (m : Agent) (v : Word) : (d.setHold r m v).ai = d.ai := rfl
@[simp] theorem Dev.setHold_ao (d : Dev) (r : Reg) (m : Agent) (v : Word) : (d.setHold r m v).ao = d.ao := rfl
@[simp] theorem Dev.setHold_tw (d : Dev) (r : Reg) (m : Agent) (v : Word) : (d.setHold r m v).tw = d.tw := rfl
@[simp] theorem Dev.setHold_ms (d : Dev) (r : Reg) (m : Agent) (v : Word) : (d.setHold r m v).ms = d.ms := rfl
@[simp] theorem Dev.setHold_hi (d : Dev) (r : Reg) (m : Agent) (v : Word) : (d.setHold r m v).hi = d.hi := rfl
@[simp] theorem Dev.setHold_md (d : Dev) (r : Reg) (m : Agent) (v : Word) : (d.setHold r m v).md = d.md := rfl
@[simp] theorem Dev.setHold_ld (d : Dev) (r : Reg) (m : Agent) (v : Word) : (d.setHold r m v).ld = d.ld := rfl
@[simp] theorem Dev.setHold_cs (d : Dev) (r : Reg) (m : Agent) (v : Word) : (d.setHold r m v).cs = d.cs := rfl
@[simp] theorem Dev.setHold_se (d : Dev) (r : Reg) (m : Agent) (v : Word) : (d.setHold r m v).se = d.se := rfl
@[simp] theorem Dev.stage_regs (d : Dev) (r : Reg) (m : Agent) (v : Word) : (d.stage r m v).regs = d.regs := rfl
@[simp] theorem Dev.stage_caps (d : Dev) (r : Reg) (m : Agent) (v : Word) : (d.stage r m v).caps = d.caps := rfl
@[simp] theorem Dev.stage_resp (d : Dev) (r : Reg) (m : Agent) (v : Word) : (d.stage r m v).resp = d.resp := rfl
@[simp] theorem Dev.stage_free (d : Dev) (r : Reg) (m : Agent) (v : Word) : (d.stage r m v).free = d.free := rfl
@[simp] theorem Dev.stage_nextDep (d : Dev) (r : Reg) (m : Agent) (v : Word) : (d.stage r m v).nextDep = d.nextDep := rfl
@[simp] theorem Dev.stage_now (d : Dev) (r : Reg) (m : Agent) (v : Word) : (d.stage r m v).now = d.now := rfl
@[simp] theorem Dev.stage_msix (d : Dev) (r : Reg) (m : Agent) (v : Word) : (d.stage r m v).msix = d.msix := rfl
@[simp] theorem Dev.stage_cap (d : Dev) (r : Reg) (m : Agent) (v : Word) : (d.stage r m v).cap = d.cap := rfl
@[simp] theorem Dev.stage_fs (d : Dev) (r : Reg) (m : Agent) (v : Word) : (d.stage r m v).fs = d.fs := rfl
@[simp] theorem Dev.stage_q (d : Dev) (r : Reg) (m : Agent) (v : Word) : (d.stage r m v).q = d.q := rfl
@[simp] theorem Dev.stage_gsv (d : Dev) (r : Reg) (m : Agent) (v : Word) : (d.stage r m v).gsv = d.gsv := rfl
@[simp] theorem Dev.stage_crm (d : Dev) (r : Reg) (m : Agent) (v : Word) : (d.stage r m v).crm = d.crm := rfl
@[simp] theorem Dev.stage_cce (d : Dev) (r : Reg) (m : Agent) (v : Word) : (d.stage r m v).cce = d.cce := rfl
@[simp] theorem Dev.stage_vf (d : Dev) (r : Reg) (m : Agent) (v : Word) : (d.stage r m v).vf = d.vf := rfl
@[simp] theorem Dev.stage_sb (d : Dev) (r : Reg) (m : Agent) (v : Word) : (d.stage r m v).sb = d.sb := rfl
@[simp] theorem Dev.stage_tdm (d : Dev) (r : Reg) (m : Agent) (v : Word) : (d.stage r m v).tdm = d.tdm := rfl
@[simp] theorem Dev.stage_net (d : Dev) (r : Reg) (m : Agent) (v : Word) : (d.stage r m v).net = d.net := rfl
@[simp] theorem Dev.stage_tu (d : Dev) (r : Reg) (m : Agent) (v : Word) : (d.stage r m v).tu = d.tu := rfl
@[simp] theorem Dev.stage_ai (d : Dev) (r : Reg) (m : Agent) (v : Word) : (d.stage r m v).ai = d.ai := rfl
@[simp] theorem Dev.stage_ao (d : Dev) (r : Reg) (m : Agent) (v : Word) : (d.stage r m v).ao = d.ao := rfl
@[simp] theorem Dev.stage_tw (d : Dev) (r : Reg) (m : Agent) (v : Word) : (d.stage r m v).tw = d.tw := rfl
@[simp] theorem Dev.stage_ms (d : Dev) (r : Reg) (m : Agent) (v : Word) : (d.stage r m v).ms = d.ms := rfl
@[simp] theorem Dev.stage_hi (d : Dev) (r : Reg) (m : Agent) (v : Word) : (d.stage r m v).hi = d.hi := rfl
@[simp] theorem Dev.stage_md (d : Dev) (r : Reg) (m : Agent) (v : Word) : (d.stage r m v).md = d.md := rfl
@[simp] theorem Dev.stage_ld (d : Dev) (r : Reg) (m : Agent) (v : Word) : (d.stage r m v).ld = d.ld := rfl
@[simp] theorem Dev.stage_cs (d : Dev) (r : Reg) (m : Agent) (v : Word) : (d.stage r m v).cs = d.cs := rfl
@[simp] theorem Dev.stage_se (d : Dev) (r : Reg) (m : Agent) (v : Word) : (d.stage r m v).se = d.se := rfl
@[simp] theorem Dev.onQ_regs (d : Dev) (g : Queues → Queues) : (d.onQ g).regs = d.regs := rfl
@[simp] theorem Dev.onQ_caps (d : Dev) (g : Queues → Queues) : (d.onQ g).caps = d.caps := rfl
@[simp] theorem Dev.onQ_stg (d : Dev) (g : Queues → Queues) : (d.onQ g).stg = d.stg := rfl
@[simp] theorem Dev.onQ_resp (d : Dev) (g : Queues → Queues) : (d.onQ g).resp = d.resp := rfl
@[simp] theorem Dev.onQ_free (d : Dev) (g : Queues → Queues) : (d.onQ g).free = d.free := rfl
@[simp] theorem Dev.onQ_nextDep (d : Dev) (g : Queues → Queues) : (d.onQ g).nextDep = d.nextDep := rfl
@[simp] theorem Dev.onQ_now (d : Dev) (g : Queues → Queues) : (d.onQ g).now = d.now := rfl
@[simp] theorem Dev.onQ_msix (d : Dev) (g : Queues → Queues) : (d.onQ g).msix = d.msix := rfl
@[simp] theorem Dev.onQ_cap (d : Dev) (g : Queues → Queues) : (d.onQ g).cap = d.cap := rfl
@[simp] theorem Dev.onQ_fs (d : Dev) (g : Queues → Queues) : (d.onQ g).fs = d.fs := rfl
@[simp] theorem Dev.onQ_gsv (d : Dev) (g : Queues → Queues) : (d.onQ g).gsv = d.gsv := rfl
@[simp] theorem Dev.onQ_crm (d : Dev) (g : Queues → Queues) : (d.onQ g).crm = d.crm := rfl
@[simp] theorem Dev.onQ_cce (d : Dev) (g : Queues → Queues) : (d.onQ g).cce = d.cce := rfl
@[simp] theorem Dev.onQ_vf (d : Dev) (g : Queues → Queues) : (d.onQ g).vf = d.vf := rfl
@[simp] theorem Dev.onQ_sb (d : Dev) (g : Queues → Queues) : (d.onQ g).sb = d.sb := rfl
@[simp] theorem Dev.onQ_tdm (d : Dev) (g : Queues → Queues) : (d.onQ g).tdm = d.tdm := rfl
@[simp] theorem Dev.onQ_net (d : Dev) (g : Queues → Queues) : (d.onQ g).net = d.net := rfl
@[simp] theorem Dev.onQ_tu (d : Dev) (g : Queues → Queues) : (d.onQ g).tu = d.tu := rfl
@[simp] theorem Dev.onQ_ai (d : Dev) (g : Queues → Queues) : (d.onQ g).ai = d.ai := rfl
@[simp] theorem Dev.onQ_ao (d : Dev) (g : Queues → Queues) : (d.onQ g).ao = d.ao := rfl
@[simp] theorem Dev.onQ_tw (d : Dev) (g : Queues → Queues) : (d.onQ g).tw = d.tw := rfl
@[simp] theorem Dev.onQ_ms (d : Dev) (g : Queues → Queues) : (d.onQ g).ms = d.ms := rfl
@[simp] theorem Dev.onQ_hi (d : Dev) (g : Queues → Queues) : (d.onQ g).hi = d.hi := rfl
@[simp] theorem Dev.onQ_md (d : Dev) (g : Queues → Queues) : (d.onQ g).md = d.md := rfl
@[simp] theorem Dev.onQ_ld (d : Dev) (g : Queues → Queues) : (d.onQ g).ld = d.ld := rfl
@[simp] theorem Dev.onQ_cs (d : Dev) (g : Queues → Queues) : (d.onQ g).cs = d.cs := rfl
@[simp] theorem Dev.onQ_se (d : Dev) (g : Queues → Queues) : (d.onQ g).se = d.se := rfl
@[simp] theorem Dev.onQ_q (d : Dev) (g : Queues → Queues) : (d.onQ g).q = g d.q := rfl
@[simp] theorem Dev.onMd_regs (d : Dev) (g : Modes → Modes) : (d.onMd g).regs = d.regs := rfl
@[simp] theorem Dev.onMd_caps (d : Dev) (g : Modes → Modes) : (d.onMd g).caps = d.caps := rfl
@[simp] theorem Dev.onMd_stg (d : Dev) (g : Modes → Modes) : (d.onMd g).stg = d.stg := rfl
@[simp] theorem Dev.onMd_resp (d : Dev) (g : Modes → Modes) : (d.onMd g).resp = d.resp := rfl
@[simp] theorem Dev.onMd_free (d : Dev) (g : Modes → Modes) : (d.onMd g).free = d.free := rfl
@[simp] theorem Dev.onMd_nextDep (d : Dev) (g : Modes → Modes) : (d.onMd g).nextDep = d.nextDep := rfl
@[simp] theorem Dev.onMd_now (d : Dev) (g : Modes → Modes) : (d.onMd g).now = d.now := rfl
@[simp] theorem Dev.onMd_msix (d : Dev) (g : Modes → Modes) : (d.onMd g).msix = d.msix := rfl
@[simp] theorem Dev.onMd_cap (d : Dev) (g : Modes → Modes) : (d.onMd g).cap = d.cap := rfl
@[simp] theorem Dev.onMd_fs (d : Dev) (g : Modes → Modes) : (d.onMd g).fs = d.fs := rfl
@[simp] theorem Dev.onMd_q (d : Dev) (g : Modes → Modes) : (d.onMd g).q = d.q := rfl
@[simp] theorem Dev.onMd_gsv (d : Dev) (g : Modes → Modes) : (d.onMd g).gsv = d.gsv := rfl
@[simp] theorem Dev.onMd_crm (d : Dev) (g : Modes → Modes) : (d.onMd g).crm = d.crm := rfl
@[simp] theorem Dev.onMd_cce (d : Dev) (g : Modes → Modes) : (d.onMd g).cce = d.cce := rfl
@[simp] theorem Dev.onMd_vf (d : Dev) (g : Modes → Modes) : (d.onMd g).vf = d.vf := rfl
@[simp] theorem Dev.onMd_sb (d : Dev) (g : Modes → Modes) : (d.onMd g).sb = d.sb := rfl
@[simp] theorem Dev.onMd_tdm (d : Dev) (g : Modes → Modes) : (d.onMd g).tdm = d.tdm := rfl
@[simp] theorem Dev.onMd_net (d : Dev) (g : Modes → Modes) : (d.onMd g).net = d.net := rfl
@[simp] theorem Dev.onMd_tu (d : Dev) (g : Modes → Modes) : (d.onMd g).tu = d.tu := rfl
@[simp] theorem Dev.onMd_ai (d : Dev) (g : Modes → Modes) : (d.onMd g).ai = d.ai := rfl
@[simp] theorem Dev.onMd_ao (d : Dev) (g : Modes → Modes) : (d.onMd g).ao = d.ao := rfl
@[simp] theorem Dev.onMd_tw (d : Dev) (g : Modes → Modes) : (d.onMd g).tw = d.tw := rfl
@[simp] theorem Dev.onMd_ms (d : Dev) (g : Modes → Modes) : (d.onMd g).ms = d.ms := rfl
@[simp] theorem Dev.onMd_hi (d : Dev) (g : Modes → Modes) : (d.onMd g).hi = d.hi := rfl
@[simp] theorem Dev.onMd_ld (d : Dev) (g : Modes → Modes) : (d.onMd g).ld = d.ld := rfl
@[simp] theorem Dev.onMd_cs (d : Dev) (g : Modes → Modes) : (d.onMd g).cs = d.cs := rfl
@[simp] theorem Dev.onMd_se (d : Dev) (g : Modes → Modes) : (d.onMd g).se = d.se := rfl
@[simp] theorem Dev.onMd_md (d : Dev) (g : Modes → Modes) : (d.onMd g).md = g d.md := rfl
@[simp] theorem Dev.onSb_regs (d : Dev) (g : Sbox → Sbox) : (d.onSb g).regs = d.regs := rfl
@[simp] theorem Dev.onSb_caps (d : Dev) (g : Sbox → Sbox) : (d.onSb g).caps = d.caps := rfl
@[simp] theorem Dev.onSb_stg (d : Dev) (g : Sbox → Sbox) : (d.onSb g).stg = d.stg := rfl
@[simp] theorem Dev.onSb_resp (d : Dev) (g : Sbox → Sbox) : (d.onSb g).resp = d.resp := rfl
@[simp] theorem Dev.onSb_free (d : Dev) (g : Sbox → Sbox) : (d.onSb g).free = d.free := rfl
@[simp] theorem Dev.onSb_nextDep (d : Dev) (g : Sbox → Sbox) : (d.onSb g).nextDep = d.nextDep := rfl
@[simp] theorem Dev.onSb_now (d : Dev) (g : Sbox → Sbox) : (d.onSb g).now = d.now := rfl
@[simp] theorem Dev.onSb_msix (d : Dev) (g : Sbox → Sbox) : (d.onSb g).msix = d.msix := rfl
@[simp] theorem Dev.onSb_cap (d : Dev) (g : Sbox → Sbox) : (d.onSb g).cap = d.cap := rfl
@[simp] theorem Dev.onSb_fs (d : Dev) (g : Sbox → Sbox) : (d.onSb g).fs = d.fs := rfl
@[simp] theorem Dev.onSb_q (d : Dev) (g : Sbox → Sbox) : (d.onSb g).q = d.q := rfl
@[simp] theorem Dev.onSb_gsv (d : Dev) (g : Sbox → Sbox) : (d.onSb g).gsv = d.gsv := rfl
@[simp] theorem Dev.onSb_crm (d : Dev) (g : Sbox → Sbox) : (d.onSb g).crm = d.crm := rfl
@[simp] theorem Dev.onSb_cce (d : Dev) (g : Sbox → Sbox) : (d.onSb g).cce = d.cce := rfl
@[simp] theorem Dev.onSb_vf (d : Dev) (g : Sbox → Sbox) : (d.onSb g).vf = d.vf := rfl
@[simp] theorem Dev.onSb_tdm (d : Dev) (g : Sbox → Sbox) : (d.onSb g).tdm = d.tdm := rfl
@[simp] theorem Dev.onSb_net (d : Dev) (g : Sbox → Sbox) : (d.onSb g).net = d.net := rfl
@[simp] theorem Dev.onSb_tu (d : Dev) (g : Sbox → Sbox) : (d.onSb g).tu = d.tu := rfl
@[simp] theorem Dev.onSb_ai (d : Dev) (g : Sbox → Sbox) : (d.onSb g).ai = d.ai := rfl
@[simp] theorem Dev.onSb_ao (d : Dev) (g : Sbox → Sbox) : (d.onSb g).ao = d.ao := rfl
@[simp] theorem Dev.onSb_tw (d : Dev) (g : Sbox → Sbox) : (d.onSb g).tw = d.tw := rfl
@[simp] theorem Dev.onSb_ms (d : Dev) (g : Sbox → Sbox) : (d.onSb g).ms = d.ms := rfl
@[simp] theorem Dev.onSb_hi (d : Dev) (g : Sbox → Sbox) : (d.onSb g).hi = d.hi := rfl
@[simp] theorem Dev.onSb_md (d : Dev) (g : Sbox → Sbox) : (d.onSb g).md = d.md := rfl
@[simp] theorem Dev.onSb_ld (d : Dev) (g : Sbox → Sbox) : (d.onSb g).ld = d.ld := rfl
@[simp] theorem Dev.onSb_cs (d : Dev) (g : Sbox → Sbox) : (d.onSb g).cs = d.cs := rfl
@[simp] theorem Dev.onSb_se (d : Dev) (g : Sbox → Sbox) : (d.onSb g).se = d.se := rfl
@[simp] theorem Dev.onSb_sb (d : Dev) (g : Sbox → Sbox) : (d.onSb g).sb = g d.sb := rfl
@[simp] theorem Dev.onCrm_regs (d : Dev) (g : Crm → Crm) : (d.onCrm g).regs = d.regs := rfl
@[simp] theorem Dev.onCrm_caps (d : Dev) (g : Crm → Crm) : (d.onCrm g).caps = d.caps := rfl
@[simp] theorem Dev.onCrm_stg (d : Dev) (g : Crm → Crm) : (d.onCrm g).stg = d.stg := rfl
@[simp] theorem Dev.onCrm_resp (d : Dev) (g : Crm → Crm) : (d.onCrm g).resp = d.resp := rfl
@[simp] theorem Dev.onCrm_free (d : Dev) (g : Crm → Crm) : (d.onCrm g).free = d.free := rfl
@[simp] theorem Dev.onCrm_nextDep (d : Dev) (g : Crm → Crm) : (d.onCrm g).nextDep = d.nextDep := rfl
@[simp] theorem Dev.onCrm_now (d : Dev) (g : Crm → Crm) : (d.onCrm g).now = d.now := rfl
@[simp] theorem Dev.onCrm_msix (d : Dev) (g : Crm → Crm) : (d.onCrm g).msix = d.msix := rfl
@[simp] theorem Dev.onCrm_cap (d : Dev) (g : Crm → Crm) : (d.onCrm g).cap = d.cap := rfl
@[simp] theorem Dev.onCrm_fs (d : Dev) (g : Crm → Crm) : (d.onCrm g).fs = d.fs := rfl
@[simp] theorem Dev.onCrm_q (d : Dev) (g : Crm → Crm) : (d.onCrm g).q = d.q := rfl
@[simp] theorem Dev.onCrm_gsv (d : Dev) (g : Crm → Crm) : (d.onCrm g).gsv = d.gsv := rfl
@[simp] theorem Dev.onCrm_cce (d : Dev) (g : Crm → Crm) : (d.onCrm g).cce = d.cce := rfl
@[simp] theorem Dev.onCrm_vf (d : Dev) (g : Crm → Crm) : (d.onCrm g).vf = d.vf := rfl
@[simp] theorem Dev.onCrm_sb (d : Dev) (g : Crm → Crm) : (d.onCrm g).sb = d.sb := rfl
@[simp] theorem Dev.onCrm_tdm (d : Dev) (g : Crm → Crm) : (d.onCrm g).tdm = d.tdm := rfl
@[simp] theorem Dev.onCrm_net (d : Dev) (g : Crm → Crm) : (d.onCrm g).net = d.net := rfl
@[simp] theorem Dev.onCrm_tu (d : Dev) (g : Crm → Crm) : (d.onCrm g).tu = d.tu := rfl
@[simp] theorem Dev.onCrm_ai (d : Dev) (g : Crm → Crm) : (d.onCrm g).ai = d.ai := rfl
@[simp] theorem Dev.onCrm_ao (d : Dev) (g : Crm → Crm) : (d.onCrm g).ao = d.ao := rfl
@[simp] theorem Dev.onCrm_tw (d : Dev) (g : Crm → Crm) : (d.onCrm g).tw = d.tw := rfl
@[simp] theorem Dev.onCrm_ms (d : Dev) (g : Crm → Crm) : (d.onCrm g).ms = d.ms := rfl
@[simp] theorem Dev.onCrm_hi (d : Dev) (g : Crm → Crm) : (d.onCrm g).hi = d.hi := rfl
@[simp] theorem Dev.onCrm_md (d : Dev) (g : Crm → Crm) : (d.onCrm g).md = d.md := rfl
@[simp] theorem Dev.onCrm_ld (d : Dev) (g : Crm → Crm) : (d.onCrm g).ld = d.ld := rfl
@[simp] theorem Dev.onCrm_cs (d : Dev) (g : Crm → Crm) : (d.onCrm g).cs = d.cs := rfl
@[simp] theorem Dev.onCrm_se (d : Dev) (g : Crm → Crm) : (d.onCrm g).se = d.se := rfl
@[simp] theorem Dev.onCrm_crm (d : Dev) (g : Crm → Crm) : (d.onCrm g).crm = g d.crm := rfl
@[simp] theorem Dev.onGsv_regs (d : Dev) (g : Gsv → Gsv) : (d.onGsv g).regs = d.regs := rfl
@[simp] theorem Dev.onGsv_caps (d : Dev) (g : Gsv → Gsv) : (d.onGsv g).caps = d.caps := rfl
@[simp] theorem Dev.onGsv_stg (d : Dev) (g : Gsv → Gsv) : (d.onGsv g).stg = d.stg := rfl
@[simp] theorem Dev.onGsv_resp (d : Dev) (g : Gsv → Gsv) : (d.onGsv g).resp = d.resp := rfl
@[simp] theorem Dev.onGsv_free (d : Dev) (g : Gsv → Gsv) : (d.onGsv g).free = d.free := rfl
@[simp] theorem Dev.onGsv_nextDep (d : Dev) (g : Gsv → Gsv) : (d.onGsv g).nextDep = d.nextDep := rfl
@[simp] theorem Dev.onGsv_now (d : Dev) (g : Gsv → Gsv) : (d.onGsv g).now = d.now := rfl
@[simp] theorem Dev.onGsv_msix (d : Dev) (g : Gsv → Gsv) : (d.onGsv g).msix = d.msix := rfl
@[simp] theorem Dev.onGsv_cap (d : Dev) (g : Gsv → Gsv) : (d.onGsv g).cap = d.cap := rfl
@[simp] theorem Dev.onGsv_fs (d : Dev) (g : Gsv → Gsv) : (d.onGsv g).fs = d.fs := rfl
@[simp] theorem Dev.onGsv_q (d : Dev) (g : Gsv → Gsv) : (d.onGsv g).q = d.q := rfl
@[simp] theorem Dev.onGsv_crm (d : Dev) (g : Gsv → Gsv) : (d.onGsv g).crm = d.crm := rfl
@[simp] theorem Dev.onGsv_cce (d : Dev) (g : Gsv → Gsv) : (d.onGsv g).cce = d.cce := rfl
@[simp] theorem Dev.onGsv_vf (d : Dev) (g : Gsv → Gsv) : (d.onGsv g).vf = d.vf := rfl
@[simp] theorem Dev.onGsv_sb (d : Dev) (g : Gsv → Gsv) : (d.onGsv g).sb = d.sb := rfl
@[simp] theorem Dev.onGsv_tdm (d : Dev) (g : Gsv → Gsv) : (d.onGsv g).tdm = d.tdm := rfl
@[simp] theorem Dev.onGsv_net (d : Dev) (g : Gsv → Gsv) : (d.onGsv g).net = d.net := rfl
@[simp] theorem Dev.onGsv_tu (d : Dev) (g : Gsv → Gsv) : (d.onGsv g).tu = d.tu := rfl
@[simp] theorem Dev.onGsv_ai (d : Dev) (g : Gsv → Gsv) : (d.onGsv g).ai = d.ai := rfl
@[simp] theorem Dev.onGsv_ao (d : Dev) (g : Gsv → Gsv) : (d.onGsv g).ao = d.ao := rfl
@[simp] theorem Dev.onGsv_tw (d : Dev) (g : Gsv → Gsv) : (d.onGsv g).tw = d.tw := rfl
@[simp] theorem Dev.onGsv_ms (d : Dev) (g : Gsv → Gsv) : (d.onGsv g).ms = d.ms := rfl
@[simp] theorem Dev.onGsv_hi (d : Dev) (g : Gsv → Gsv) : (d.onGsv g).hi = d.hi := rfl
@[simp] theorem Dev.onGsv_md (d : Dev) (g : Gsv → Gsv) : (d.onGsv g).md = d.md := rfl
@[simp] theorem Dev.onGsv_ld (d : Dev) (g : Gsv → Gsv) : (d.onGsv g).ld = d.ld := rfl
@[simp] theorem Dev.onGsv_cs (d : Dev) (g : Gsv → Gsv) : (d.onGsv g).cs = d.cs := rfl
@[simp] theorem Dev.onGsv_se (d : Dev) (g : Gsv → Gsv) : (d.onGsv g).se = d.se := rfl
@[simp] theorem Dev.onGsv_gsv (d : Dev) (g : Gsv → Gsv) : (d.onGsv g).gsv = g d.gsv := rfl
@[simp] theorem Dev.onCce_regs (d : Dev) (g : Cce → Cce) : (d.onCce g).regs = d.regs := rfl
@[simp] theorem Dev.onCce_caps (d : Dev) (g : Cce → Cce) : (d.onCce g).caps = d.caps := rfl
@[simp] theorem Dev.onCce_stg (d : Dev) (g : Cce → Cce) : (d.onCce g).stg = d.stg := rfl
@[simp] theorem Dev.onCce_resp (d : Dev) (g : Cce → Cce) : (d.onCce g).resp = d.resp := rfl
@[simp] theorem Dev.onCce_free (d : Dev) (g : Cce → Cce) : (d.onCce g).free = d.free := rfl
@[simp] theorem Dev.onCce_nextDep (d : Dev) (g : Cce → Cce) : (d.onCce g).nextDep = d.nextDep := rfl
@[simp] theorem Dev.onCce_now (d : Dev) (g : Cce → Cce) : (d.onCce g).now = d.now := rfl
@[simp] theorem Dev.onCce_msix (d : Dev) (g : Cce → Cce) : (d.onCce g).msix = d.msix := rfl
@[simp] theorem Dev.onCce_cap (d : Dev) (g : Cce → Cce) : (d.onCce g).cap = d.cap := rfl
@[simp] theorem Dev.onCce_fs (d : Dev) (g : Cce → Cce) : (d.onCce g).fs = d.fs := rfl
@[simp] theorem Dev.onCce_q (d : Dev) (g : Cce → Cce) : (d.onCce g).q = d.q := rfl
@[simp] theorem Dev.onCce_gsv (d : Dev) (g : Cce → Cce) : (d.onCce g).gsv = d.gsv := rfl
@[simp] theorem Dev.onCce_crm (d : Dev) (g : Cce → Cce) : (d.onCce g).crm = d.crm := rfl
@[simp] theorem Dev.onCce_vf (d : Dev) (g : Cce → Cce) : (d.onCce g).vf = d.vf := rfl
@[simp] theorem Dev.onCce_sb (d : Dev) (g : Cce → Cce) : (d.onCce g).sb = d.sb := rfl
@[simp] theorem Dev.onCce_tdm (d : Dev) (g : Cce → Cce) : (d.onCce g).tdm = d.tdm := rfl
@[simp] theorem Dev.onCce_net (d : Dev) (g : Cce → Cce) : (d.onCce g).net = d.net := rfl
@[simp] theorem Dev.onCce_tu (d : Dev) (g : Cce → Cce) : (d.onCce g).tu = d.tu := rfl
@[simp] theorem Dev.onCce_ai (d : Dev) (g : Cce → Cce) : (d.onCce g).ai = d.ai := rfl
@[simp] theorem Dev.onCce_ao (d : Dev) (g : Cce → Cce) : (d.onCce g).ao = d.ao := rfl
@[simp] theorem Dev.onCce_tw (d : Dev) (g : Cce → Cce) : (d.onCce g).tw = d.tw := rfl
@[simp] theorem Dev.onCce_ms (d : Dev) (g : Cce → Cce) : (d.onCce g).ms = d.ms := rfl
@[simp] theorem Dev.onCce_hi (d : Dev) (g : Cce → Cce) : (d.onCce g).hi = d.hi := rfl
@[simp] theorem Dev.onCce_md (d : Dev) (g : Cce → Cce) : (d.onCce g).md = d.md := rfl
@[simp] theorem Dev.onCce_ld (d : Dev) (g : Cce → Cce) : (d.onCce g).ld = d.ld := rfl
@[simp] theorem Dev.onCce_cs (d : Dev) (g : Cce → Cce) : (d.onCce g).cs = d.cs := rfl
@[simp] theorem Dev.onCce_se (d : Dev) (g : Cce → Cce) : (d.onCce g).se = d.se := rfl
@[simp] theorem Dev.onCce_cce (d : Dev) (g : Cce → Cce) : (d.onCce g).cce = g d.cce := rfl
@[simp] theorem Dev.onTdm_regs (d : Dev) (g : Tdm → Tdm) : (d.onTdm g).regs = d.regs := rfl
@[simp] theorem Dev.onTdm_caps (d : Dev) (g : Tdm → Tdm) : (d.onTdm g).caps = d.caps := rfl
@[simp] theorem Dev.onTdm_stg (d : Dev) (g : Tdm → Tdm) : (d.onTdm g).stg = d.stg := rfl
@[simp] theorem Dev.onTdm_resp (d : Dev) (g : Tdm → Tdm) : (d.onTdm g).resp = d.resp := rfl
@[simp] theorem Dev.onTdm_free (d : Dev) (g : Tdm → Tdm) : (d.onTdm g).free = d.free := rfl
@[simp] theorem Dev.onTdm_nextDep (d : Dev) (g : Tdm → Tdm) : (d.onTdm g).nextDep = d.nextDep := rfl
@[simp] theorem Dev.onTdm_now (d : Dev) (g : Tdm → Tdm) : (d.onTdm g).now = d.now := rfl
@[simp] theorem Dev.onTdm_msix (d : Dev) (g : Tdm → Tdm) : (d.onTdm g).msix = d.msix := rfl
@[simp] theorem Dev.onTdm_cap (d : Dev) (g : Tdm → Tdm) : (d.onTdm g).cap = d.cap := rfl
@[simp] theorem Dev.onTdm_fs (d : Dev) (g : Tdm → Tdm) : (d.onTdm g).fs = d.fs := rfl
@[simp] theorem Dev.onTdm_q (d : Dev) (g : Tdm → Tdm) : (d.onTdm g).q = d.q := rfl
@[simp] theorem Dev.onTdm_gsv (d : Dev) (g : Tdm → Tdm) : (d.onTdm g).gsv = d.gsv := rfl
@[simp] theorem Dev.onTdm_crm (d : Dev) (g : Tdm → Tdm) : (d.onTdm g).crm = d.crm := rfl
@[simp] theorem Dev.onTdm_cce (d : Dev) (g : Tdm → Tdm) : (d.onTdm g).cce = d.cce := rfl
@[simp] theorem Dev.onTdm_vf (d : Dev) (g : Tdm → Tdm) : (d.onTdm g).vf = d.vf := rfl
@[simp] theorem Dev.onTdm_sb (d : Dev) (g : Tdm → Tdm) : (d.onTdm g).sb = d.sb := rfl
@[simp] theorem Dev.onTdm_net (d : Dev) (g : Tdm → Tdm) : (d.onTdm g).net = d.net := rfl
@[simp] theorem Dev.onTdm_tu (d : Dev) (g : Tdm → Tdm) : (d.onTdm g).tu = d.tu := rfl
@[simp] theorem Dev.onTdm_ai (d : Dev) (g : Tdm → Tdm) : (d.onTdm g).ai = d.ai := rfl
@[simp] theorem Dev.onTdm_ao (d : Dev) (g : Tdm → Tdm) : (d.onTdm g).ao = d.ao := rfl
@[simp] theorem Dev.onTdm_tw (d : Dev) (g : Tdm → Tdm) : (d.onTdm g).tw = d.tw := rfl
@[simp] theorem Dev.onTdm_ms (d : Dev) (g : Tdm → Tdm) : (d.onTdm g).ms = d.ms := rfl
@[simp] theorem Dev.onTdm_hi (d : Dev) (g : Tdm → Tdm) : (d.onTdm g).hi = d.hi := rfl
@[simp] theorem Dev.onTdm_md (d : Dev) (g : Tdm → Tdm) : (d.onTdm g).md = d.md := rfl
@[simp] theorem Dev.onTdm_ld (d : Dev) (g : Tdm → Tdm) : (d.onTdm g).ld = d.ld := rfl
@[simp] theorem Dev.onTdm_cs (d : Dev) (g : Tdm → Tdm) : (d.onTdm g).cs = d.cs := rfl
@[simp] theorem Dev.onTdm_se (d : Dev) (g : Tdm → Tdm) : (d.onTdm g).se = d.se := rfl
@[simp] theorem Dev.onTdm_tdm (d : Dev) (g : Tdm → Tdm) : (d.onTdm g).tdm = g d.tdm := rfl
@[simp] theorem Dev.onNet_regs (d : Dev) (g : Net → Net) : (d.onNet g).regs = d.regs := rfl
@[simp] theorem Dev.onNet_caps (d : Dev) (g : Net → Net) : (d.onNet g).caps = d.caps := rfl
@[simp] theorem Dev.onNet_stg (d : Dev) (g : Net → Net) : (d.onNet g).stg = d.stg := rfl
@[simp] theorem Dev.onNet_resp (d : Dev) (g : Net → Net) : (d.onNet g).resp = d.resp := rfl
@[simp] theorem Dev.onNet_free (d : Dev) (g : Net → Net) : (d.onNet g).free = d.free := rfl
@[simp] theorem Dev.onNet_nextDep (d : Dev) (g : Net → Net) : (d.onNet g).nextDep = d.nextDep := rfl
@[simp] theorem Dev.onNet_now (d : Dev) (g : Net → Net) : (d.onNet g).now = d.now := rfl
@[simp] theorem Dev.onNet_msix (d : Dev) (g : Net → Net) : (d.onNet g).msix = d.msix := rfl
@[simp] theorem Dev.onNet_cap (d : Dev) (g : Net → Net) : (d.onNet g).cap = d.cap := rfl
@[simp] theorem Dev.onNet_fs (d : Dev) (g : Net → Net) : (d.onNet g).fs = d.fs := rfl
@[simp] theorem Dev.onNet_q (d : Dev) (g : Net → Net) : (d.onNet g).q = d.q := rfl
@[simp] theorem Dev.onNet_gsv (d : Dev) (g : Net → Net) : (d.onNet g).gsv = d.gsv := rfl
@[simp] theorem Dev.onNet_crm (d : Dev) (g : Net → Net) : (d.onNet g).crm = d.crm := rfl
@[simp] theorem Dev.onNet_cce (d : Dev) (g : Net → Net) : (d.onNet g).cce = d.cce := rfl
@[simp] theorem Dev.onNet_vf (d : Dev) (g : Net → Net) : (d.onNet g).vf = d.vf := rfl
@[simp] theorem Dev.onNet_sb (d : Dev) (g : Net → Net) : (d.onNet g).sb = d.sb := rfl
@[simp] theorem Dev.onNet_tdm (d : Dev) (g : Net → Net) : (d.onNet g).tdm = d.tdm := rfl
@[simp] theorem Dev.onNet_tu (d : Dev) (g : Net → Net) : (d.onNet g).tu = d.tu := rfl
@[simp] theorem Dev.onNet_ai (d : Dev) (g : Net → Net) : (d.onNet g).ai = d.ai := rfl
@[simp] theorem Dev.onNet_ao (d : Dev) (g : Net → Net) : (d.onNet g).ao = d.ao := rfl
@[simp] theorem Dev.onNet_tw (d : Dev) (g : Net → Net) : (d.onNet g).tw = d.tw := rfl
@[simp] theorem Dev.onNet_ms (d : Dev) (g : Net → Net) : (d.onNet g).ms = d.ms := rfl
@[simp] theorem Dev.onNet_hi (d : Dev) (g : Net → Net) : (d.onNet g).hi = d.hi := rfl
@[simp] theorem Dev.onNet_md (d : Dev) (g : Net → Net) : (d.onNet g).md = d.md := rfl
@[simp] theorem Dev.onNet_ld (d : Dev) (g : Net → Net) : (d.onNet g).ld = d.ld := rfl
@[simp] theorem Dev.onNet_cs (d : Dev) (g : Net → Net) : (d.onNet g).cs = d.cs := rfl
@[simp] theorem Dev.onNet_se (d : Dev) (g : Net → Net) : (d.onNet g).se = d.se := rfl
@[simp] theorem Dev.onNet_net (d : Dev) (g : Net → Net) : (d.onNet g).net = g d.net := rfl
@[simp] theorem Dev.onTu_regs (d : Dev) (g : TimeUnit → TimeUnit) : (d.onTu g).regs = d.regs := rfl
@[simp] theorem Dev.onTu_caps (d : Dev) (g : TimeUnit → TimeUnit) : (d.onTu g).caps = d.caps := rfl
@[simp] theorem Dev.onTu_stg (d : Dev) (g : TimeUnit → TimeUnit) : (d.onTu g).stg = d.stg := rfl
@[simp] theorem Dev.onTu_resp (d : Dev) (g : TimeUnit → TimeUnit) : (d.onTu g).resp = d.resp := rfl
@[simp] theorem Dev.onTu_free (d : Dev) (g : TimeUnit → TimeUnit) : (d.onTu g).free = d.free := rfl
@[simp] theorem Dev.onTu_nextDep (d : Dev) (g : TimeUnit → TimeUnit) : (d.onTu g).nextDep = d.nextDep := rfl
@[simp] theorem Dev.onTu_now (d : Dev) (g : TimeUnit → TimeUnit) : (d.onTu g).now = d.now := rfl
@[simp] theorem Dev.onTu_msix (d : Dev) (g : TimeUnit → TimeUnit) : (d.onTu g).msix = d.msix := rfl
@[simp] theorem Dev.onTu_cap (d : Dev) (g : TimeUnit → TimeUnit) : (d.onTu g).cap = d.cap := rfl
@[simp] theorem Dev.onTu_fs (d : Dev) (g : TimeUnit → TimeUnit) : (d.onTu g).fs = d.fs := rfl
@[simp] theorem Dev.onTu_q (d : Dev) (g : TimeUnit → TimeUnit) : (d.onTu g).q = d.q := rfl
@[simp] theorem Dev.onTu_gsv (d : Dev) (g : TimeUnit → TimeUnit) : (d.onTu g).gsv = d.gsv := rfl
@[simp] theorem Dev.onTu_crm (d : Dev) (g : TimeUnit → TimeUnit) : (d.onTu g).crm = d.crm := rfl
@[simp] theorem Dev.onTu_cce (d : Dev) (g : TimeUnit → TimeUnit) : (d.onTu g).cce = d.cce := rfl
@[simp] theorem Dev.onTu_vf (d : Dev) (g : TimeUnit → TimeUnit) : (d.onTu g).vf = d.vf := rfl
@[simp] theorem Dev.onTu_sb (d : Dev) (g : TimeUnit → TimeUnit) : (d.onTu g).sb = d.sb := rfl
@[simp] theorem Dev.onTu_tdm (d : Dev) (g : TimeUnit → TimeUnit) : (d.onTu g).tdm = d.tdm := rfl
@[simp] theorem Dev.onTu_net (d : Dev) (g : TimeUnit → TimeUnit) : (d.onTu g).net = d.net := rfl
@[simp] theorem Dev.onTu_ai (d : Dev) (g : TimeUnit → TimeUnit) : (d.onTu g).ai = d.ai := rfl
@[simp] theorem Dev.onTu_ao (d : Dev) (g : TimeUnit → TimeUnit) : (d.onTu g).ao = d.ao := rfl
@[simp] theorem Dev.onTu_tw (d : Dev) (g : TimeUnit → TimeUnit) : (d.onTu g).tw = d.tw := rfl
@[simp] theorem Dev.onTu_ms (d : Dev) (g : TimeUnit → TimeUnit) : (d.onTu g).ms = d.ms := rfl
@[simp] theorem Dev.onTu_hi (d : Dev) (g : TimeUnit → TimeUnit) : (d.onTu g).hi = d.hi := rfl
@[simp] theorem Dev.onTu_md (d : Dev) (g : TimeUnit → TimeUnit) : (d.onTu g).md = d.md := rfl
@[simp] theorem Dev.onTu_ld (d : Dev) (g : TimeUnit → TimeUnit) : (d.onTu g).ld = d.ld := rfl
@[simp] theorem Dev.onTu_cs (d : Dev) (g : TimeUnit → TimeUnit) : (d.onTu g).cs = d.cs := rfl
@[simp] theorem Dev.onTu_se (d : Dev) (g : TimeUnit → TimeUnit) : (d.onTu g).se = d.se := rfl
@[simp] theorem Dev.onTu_tu (d : Dev) (g : TimeUnit → TimeUnit) : (d.onTu g).tu = g d.tu := rfl
@[simp] theorem Dev.onAi_regs (d : Dev) (g : AnalogIn → AnalogIn) : (d.onAi g).regs = d.regs := rfl
@[simp] theorem Dev.onAi_caps (d : Dev) (g : AnalogIn → AnalogIn) : (d.onAi g).caps = d.caps := rfl
@[simp] theorem Dev.onAi_stg (d : Dev) (g : AnalogIn → AnalogIn) : (d.onAi g).stg = d.stg := rfl
@[simp] theorem Dev.onAi_resp (d : Dev) (g : AnalogIn → AnalogIn) : (d.onAi g).resp = d.resp := rfl
@[simp] theorem Dev.onAi_free (d : Dev) (g : AnalogIn → AnalogIn) : (d.onAi g).free = d.free := rfl
@[simp] theorem Dev.onAi_nextDep (d : Dev) (g : AnalogIn → AnalogIn) : (d.onAi g).nextDep = d.nextDep := rfl
@[simp] theorem Dev.onAi_now (d : Dev) (g : AnalogIn → AnalogIn) : (d.onAi g).now = d.now := rfl
@[simp] theorem Dev.onAi_msix (d : Dev) (g : AnalogIn → AnalogIn) : (d.onAi g).msix = d.msix := rfl
@[simp] theorem Dev.onAi_cap (d : Dev) (g : AnalogIn → AnalogIn) : (d.onAi g).cap = d.cap := rfl
@[simp] theorem Dev.onAi_fs (d : Dev) (g : AnalogIn → AnalogIn) : (d.onAi g).fs = d.fs := rfl
@[simp] theorem Dev.onAi_q (d : Dev) (g : AnalogIn → AnalogIn) : (d.onAi g).q = d.q := rfl
@[simp] theorem Dev.onAi_gsv (d : Dev) (g : AnalogIn → AnalogIn) : (d.onAi g).gsv = d.gsv := rfl
@[simp] theorem Dev.onAi_crm (d : Dev) (g : AnalogIn → AnalogIn) : (d.onAi g).crm = d.crm := rfl
@[simp] theorem Dev.onAi_cce (d : Dev) (g : AnalogIn → AnalogIn) : (d.onAi g).cce = d.cce := rfl
@[simp] theorem Dev.onAi_vf (d : Dev) (g : AnalogIn → AnalogIn) : (d.onAi g).vf = d.vf := rfl
@[simp] theorem Dev.onAi_sb (d : Dev) (g : AnalogIn → AnalogIn) : (d.onAi g).sb = d.sb := rfl
@[simp] theorem Dev.onAi_tdm (d : Dev) (g : AnalogIn → AnalogIn) : (d.onAi g).tdm = d.tdm := rfl
@[simp] theorem Dev.onAi_net (d : Dev) (g : AnalogIn → AnalogIn) : (d.onAi g).net = d.net := rfl
@[simp] theorem Dev.onAi_tu (d : Dev) (g : AnalogIn → AnalogIn) : (d.onAi g).tu = d.tu := rfl
@[simp] theorem Dev.onAi_ao (d : Dev) (g : AnalogIn → AnalogIn) : (d.onAi g).ao = d.ao := rfl
@[simp] theorem Dev.onAi_tw (d : Dev) (g : AnalogIn → AnalogIn) : (d.onAi g).tw = d.tw := rfl
@[simp] theorem Dev.onAi_ms (d : Dev) (g : AnalogIn → AnalogIn) : (d.onAi g).ms = d.ms := rfl
@[simp] theorem Dev.onAi_hi (d : Dev) (g : AnalogIn → AnalogIn) : (d.onAi g).hi = d.hi := rfl
@[simp] theorem Dev.onAi_md (d : Dev) (g : AnalogIn → AnalogIn) : (d.onAi g).md = d.md := rfl
@[simp] theorem Dev.onAi_ld (d : Dev) (g : AnalogIn → AnalogIn) : (d.onAi g).ld = d.ld := rfl
@[simp] theorem Dev.onAi_cs (d : Dev) (g : AnalogIn → AnalogIn) : (d.onAi g).cs = d.cs := rfl
@[simp] theorem Dev.onAi_se (d : Dev) (g : AnalogIn → AnalogIn) : (d.onAi g).se = d.se := rfl
@[simp] theorem Dev.onAi_ai (d : Dev) (g : AnalogIn → AnalogIn) : (d.onAi g).ai = g d.ai := rfl
@[simp] theorem Dev.onTw_regs (d : Dev) (g : Twin → Twin) : (d.onTw g).regs = d.regs := rfl
@[simp] theorem Dev.onTw_caps (d : Dev) (g : Twin → Twin) : (d.onTw g).caps = d.caps := rfl
@[simp] theorem Dev.onTw_stg (d : Dev) (g : Twin → Twin) : (d.onTw g).stg = d.stg := rfl
@[simp] theorem Dev.onTw_resp (d : Dev) (g : Twin → Twin) : (d.onTw g).resp = d.resp := rfl
@[simp] theorem Dev.onTw_free (d : Dev) (g : Twin → Twin) : (d.onTw g).free = d.free := rfl
@[simp] theorem Dev.onTw_nextDep (d : Dev) (g : Twin → Twin) : (d.onTw g).nextDep = d.nextDep := rfl
@[simp] theorem Dev.onTw_now (d : Dev) (g : Twin → Twin) : (d.onTw g).now = d.now := rfl
@[simp] theorem Dev.onTw_msix (d : Dev) (g : Twin → Twin) : (d.onTw g).msix = d.msix := rfl
@[simp] theorem Dev.onTw_cap (d : Dev) (g : Twin → Twin) : (d.onTw g).cap = d.cap := rfl
@[simp] theorem Dev.onTw_fs (d : Dev) (g : Twin → Twin) : (d.onTw g).fs = d.fs := rfl
@[simp] theorem Dev.onTw_q (d : Dev) (g : Twin → Twin) : (d.onTw g).q = d.q := rfl
@[simp] theorem Dev.onTw_gsv (d : Dev) (g : Twin → Twin) : (d.onTw g).gsv = d.gsv := rfl
@[simp] theorem Dev.onTw_crm (d : Dev) (g : Twin → Twin) : (d.onTw g).crm = d.crm := rfl
@[simp] theorem Dev.onTw_cce (d : Dev) (g : Twin → Twin) : (d.onTw g).cce = d.cce := rfl
@[simp] theorem Dev.onTw_vf (d : Dev) (g : Twin → Twin) : (d.onTw g).vf = d.vf := rfl
@[simp] theorem Dev.onTw_sb (d : Dev) (g : Twin → Twin) : (d.onTw g).sb = d.sb := rfl
@[simp] theorem Dev.onTw_tdm (d : Dev) (g : Twin → Twin) : (d.onTw g).tdm = d.tdm := rfl
@[simp] theorem Dev.onTw_net (d : Dev) (g : Twin → Twin) : (d.onTw g).net = d.net := rfl
@[simp] theorem Dev.onTw_tu (d : Dev) (g : Twin → Twin) : (d.onTw g).tu = d.tu := rfl
@[simp] theorem Dev.onTw_ai (d : Dev) (g : Twin → Twin) : (d.onTw g).ai = d.ai := rfl
@[simp] theorem Dev.onTw_ao (d : Dev) (g : Twin → Twin) : (d.onTw g).ao = d.ao := rfl
@[simp] theorem Dev.onTw_ms (d : Dev) (g : Twin → Twin) : (d.onTw g).ms = d.ms := rfl
@[simp] theorem Dev.onTw_hi (d : Dev) (g : Twin → Twin) : (d.onTw g).hi = d.hi := rfl
@[simp] theorem Dev.onTw_md (d : Dev) (g : Twin → Twin) : (d.onTw g).md = d.md := rfl
@[simp] theorem Dev.onTw_ld (d : Dev) (g : Twin → Twin) : (d.onTw g).ld = d.ld := rfl
@[simp] theorem Dev.onTw_cs (d : Dev) (g : Twin → Twin) : (d.onTw g).cs = d.cs := rfl
@[simp] theorem Dev.onTw_se (d : Dev) (g : Twin → Twin) : (d.onTw g).se = d.se := rfl
@[simp] theorem Dev.onTw_tw (d : Dev) (g : Twin → Twin) : (d.onTw g).tw = g d.tw := rfl
@[simp] theorem Dev.onMs_regs (d : Dev) (g : Msys → Msys) : (d.onMs g).regs = d.regs := rfl
@[simp] theorem Dev.onMs_caps (d : Dev) (g : Msys → Msys) : (d.onMs g).caps = d.caps := rfl
@[simp] theorem Dev.onMs_stg (d : Dev) (g : Msys → Msys) : (d.onMs g).stg = d.stg := rfl
@[simp] theorem Dev.onMs_resp (d : Dev) (g : Msys → Msys) : (d.onMs g).resp = d.resp := rfl
@[simp] theorem Dev.onMs_free (d : Dev) (g : Msys → Msys) : (d.onMs g).free = d.free := rfl
@[simp] theorem Dev.onMs_nextDep (d : Dev) (g : Msys → Msys) : (d.onMs g).nextDep = d.nextDep := rfl
@[simp] theorem Dev.onMs_now (d : Dev) (g : Msys → Msys) : (d.onMs g).now = d.now := rfl
@[simp] theorem Dev.onMs_msix (d : Dev) (g : Msys → Msys) : (d.onMs g).msix = d.msix := rfl
@[simp] theorem Dev.onMs_cap (d : Dev) (g : Msys → Msys) : (d.onMs g).cap = d.cap := rfl
@[simp] theorem Dev.onMs_fs (d : Dev) (g : Msys → Msys) : (d.onMs g).fs = d.fs := rfl
@[simp] theorem Dev.onMs_q (d : Dev) (g : Msys → Msys) : (d.onMs g).q = d.q := rfl
@[simp] theorem Dev.onMs_gsv (d : Dev) (g : Msys → Msys) : (d.onMs g).gsv = d.gsv := rfl
@[simp] theorem Dev.onMs_crm (d : Dev) (g : Msys → Msys) : (d.onMs g).crm = d.crm := rfl
@[simp] theorem Dev.onMs_cce (d : Dev) (g : Msys → Msys) : (d.onMs g).cce = d.cce := rfl
@[simp] theorem Dev.onMs_vf (d : Dev) (g : Msys → Msys) : (d.onMs g).vf = d.vf := rfl
@[simp] theorem Dev.onMs_sb (d : Dev) (g : Msys → Msys) : (d.onMs g).sb = d.sb := rfl
@[simp] theorem Dev.onMs_tdm (d : Dev) (g : Msys → Msys) : (d.onMs g).tdm = d.tdm := rfl
@[simp] theorem Dev.onMs_net (d : Dev) (g : Msys → Msys) : (d.onMs g).net = d.net := rfl
@[simp] theorem Dev.onMs_tu (d : Dev) (g : Msys → Msys) : (d.onMs g).tu = d.tu := rfl
@[simp] theorem Dev.onMs_ai (d : Dev) (g : Msys → Msys) : (d.onMs g).ai = d.ai := rfl
@[simp] theorem Dev.onMs_ao (d : Dev) (g : Msys → Msys) : (d.onMs g).ao = d.ao := rfl
@[simp] theorem Dev.onMs_tw (d : Dev) (g : Msys → Msys) : (d.onMs g).tw = d.tw := rfl
@[simp] theorem Dev.onMs_hi (d : Dev) (g : Msys → Msys) : (d.onMs g).hi = d.hi := rfl
@[simp] theorem Dev.onMs_md (d : Dev) (g : Msys → Msys) : (d.onMs g).md = d.md := rfl
@[simp] theorem Dev.onMs_ld (d : Dev) (g : Msys → Msys) : (d.onMs g).ld = d.ld := rfl
@[simp] theorem Dev.onMs_cs (d : Dev) (g : Msys → Msys) : (d.onMs g).cs = d.cs := rfl
@[simp] theorem Dev.onMs_se (d : Dev) (g : Msys → Msys) : (d.onMs g).se = d.se := rfl
@[simp] theorem Dev.onMs_ms (d : Dev) (g : Msys → Msys) : (d.onMs g).ms = g d.ms := rfl
@[simp] theorem Dev.onHi_regs (d : Dev) (g : HostIf → HostIf) : (d.onHi g).regs = d.regs := rfl
@[simp] theorem Dev.onHi_caps (d : Dev) (g : HostIf → HostIf) : (d.onHi g).caps = d.caps := rfl
@[simp] theorem Dev.onHi_stg (d : Dev) (g : HostIf → HostIf) : (d.onHi g).stg = d.stg := rfl
@[simp] theorem Dev.onHi_resp (d : Dev) (g : HostIf → HostIf) : (d.onHi g).resp = d.resp := rfl
@[simp] theorem Dev.onHi_free (d : Dev) (g : HostIf → HostIf) : (d.onHi g).free = d.free := rfl
@[simp] theorem Dev.onHi_nextDep (d : Dev) (g : HostIf → HostIf) : (d.onHi g).nextDep = d.nextDep := rfl
@[simp] theorem Dev.onHi_now (d : Dev) (g : HostIf → HostIf) : (d.onHi g).now = d.now := rfl
@[simp] theorem Dev.onHi_msix (d : Dev) (g : HostIf → HostIf) : (d.onHi g).msix = d.msix := rfl
@[simp] theorem Dev.onHi_cap (d : Dev) (g : HostIf → HostIf) : (d.onHi g).cap = d.cap := rfl
@[simp] theorem Dev.onHi_fs (d : Dev) (g : HostIf → HostIf) : (d.onHi g).fs = d.fs := rfl
@[simp] theorem Dev.onHi_q (d : Dev) (g : HostIf → HostIf) : (d.onHi g).q = d.q := rfl
@[simp] theorem Dev.onHi_gsv (d : Dev) (g : HostIf → HostIf) : (d.onHi g).gsv = d.gsv := rfl
@[simp] theorem Dev.onHi_crm (d : Dev) (g : HostIf → HostIf) : (d.onHi g).crm = d.crm := rfl
@[simp] theorem Dev.onHi_cce (d : Dev) (g : HostIf → HostIf) : (d.onHi g).cce = d.cce := rfl
@[simp] theorem Dev.onHi_vf (d : Dev) (g : HostIf → HostIf) : (d.onHi g).vf = d.vf := rfl
@[simp] theorem Dev.onHi_sb (d : Dev) (g : HostIf → HostIf) : (d.onHi g).sb = d.sb := rfl
@[simp] theorem Dev.onHi_tdm (d : Dev) (g : HostIf → HostIf) : (d.onHi g).tdm = d.tdm := rfl
@[simp] theorem Dev.onHi_net (d : Dev) (g : HostIf → HostIf) : (d.onHi g).net = d.net := rfl
@[simp] theorem Dev.onHi_tu (d : Dev) (g : HostIf → HostIf) : (d.onHi g).tu = d.tu := rfl
@[simp] theorem Dev.onHi_ai (d : Dev) (g : HostIf → HostIf) : (d.onHi g).ai = d.ai := rfl
@[simp] theorem Dev.onHi_ao (d : Dev) (g : HostIf → HostIf) : (d.onHi g).ao = d.ao := rfl
@[simp] theorem Dev.onHi_tw (d : Dev) (g : HostIf → HostIf) : (d.onHi g).tw = d.tw := rfl
@[simp] theorem Dev.onHi_ms (d : Dev) (g : HostIf → HostIf) : (d.onHi g).ms = d.ms := rfl
@[simp] theorem Dev.onHi_md (d : Dev) (g : HostIf → HostIf) : (d.onHi g).md = d.md := rfl
@[simp] theorem Dev.onHi_ld (d : Dev) (g : HostIf → HostIf) : (d.onHi g).ld = d.ld := rfl
@[simp] theorem Dev.onHi_cs (d : Dev) (g : HostIf → HostIf) : (d.onHi g).cs = d.cs := rfl
@[simp] theorem Dev.onHi_se (d : Dev) (g : HostIf → HostIf) : (d.onHi g).se = d.se := rfl
@[simp] theorem Dev.onHi_hi (d : Dev) (g : HostIf → HostIf) : (d.onHi g).hi = g d.hi := rfl
@[simp] theorem Dev.onSe_regs (d : Dev) (g : Secure → Secure) : (d.onSe g).regs = d.regs := rfl
@[simp] theorem Dev.onSe_caps (d : Dev) (g : Secure → Secure) : (d.onSe g).caps = d.caps := rfl
@[simp] theorem Dev.onSe_stg (d : Dev) (g : Secure → Secure) : (d.onSe g).stg = d.stg := rfl
@[simp] theorem Dev.onSe_resp (d : Dev) (g : Secure → Secure) : (d.onSe g).resp = d.resp := rfl
@[simp] theorem Dev.onSe_free (d : Dev) (g : Secure → Secure) : (d.onSe g).free = d.free := rfl
@[simp] theorem Dev.onSe_nextDep (d : Dev) (g : Secure → Secure) : (d.onSe g).nextDep = d.nextDep := rfl
@[simp] theorem Dev.onSe_now (d : Dev) (g : Secure → Secure) : (d.onSe g).now = d.now := rfl
@[simp] theorem Dev.onSe_msix (d : Dev) (g : Secure → Secure) : (d.onSe g).msix = d.msix := rfl
@[simp] theorem Dev.onSe_cap (d : Dev) (g : Secure → Secure) : (d.onSe g).cap = d.cap := rfl
@[simp] theorem Dev.onSe_fs (d : Dev) (g : Secure → Secure) : (d.onSe g).fs = d.fs := rfl
@[simp] theorem Dev.onSe_q (d : Dev) (g : Secure → Secure) : (d.onSe g).q = d.q := rfl
@[simp] theorem Dev.onSe_gsv (d : Dev) (g : Secure → Secure) : (d.onSe g).gsv = d.gsv := rfl
@[simp] theorem Dev.onSe_crm (d : Dev) (g : Secure → Secure) : (d.onSe g).crm = d.crm := rfl
@[simp] theorem Dev.onSe_cce (d : Dev) (g : Secure → Secure) : (d.onSe g).cce = d.cce := rfl
@[simp] theorem Dev.onSe_vf (d : Dev) (g : Secure → Secure) : (d.onSe g).vf = d.vf := rfl
@[simp] theorem Dev.onSe_sb (d : Dev) (g : Secure → Secure) : (d.onSe g).sb = d.sb := rfl
@[simp] theorem Dev.onSe_tdm (d : Dev) (g : Secure → Secure) : (d.onSe g).tdm = d.tdm := rfl
@[simp] theorem Dev.onSe_net (d : Dev) (g : Secure → Secure) : (d.onSe g).net = d.net := rfl
@[simp] theorem Dev.onSe_tu (d : Dev) (g : Secure → Secure) : (d.onSe g).tu = d.tu := rfl
@[simp] theorem Dev.onSe_ai (d : Dev) (g : Secure → Secure) : (d.onSe g).ai = d.ai := rfl
@[simp] theorem Dev.onSe_ao (d : Dev) (g : Secure → Secure) : (d.onSe g).ao = d.ao := rfl
@[simp] theorem Dev.onSe_tw (d : Dev) (g : Secure → Secure) : (d.onSe g).tw = d.tw := rfl
@[simp] theorem Dev.onSe_ms (d : Dev) (g : Secure → Secure) : (d.onSe g).ms = d.ms := rfl
@[simp] theorem Dev.onSe_hi (d : Dev) (g : Secure → Secure) : (d.onSe g).hi = d.hi := rfl
@[simp] theorem Dev.onSe_md (d : Dev) (g : Secure → Secure) : (d.onSe g).md = d.md := rfl
@[simp] theorem Dev.onSe_ld (d : Dev) (g : Secure → Secure) : (d.onSe g).ld = d.ld := rfl
@[simp] theorem Dev.onSe_cs (d : Dev) (g : Secure → Secure) : (d.onSe g).cs = d.cs := rfl
@[simp] theorem Dev.onSe_se (d : Dev) (g : Secure → Secure) : (d.onSe g).se = g d.se := rfl
@[simp] theorem Dev.setEng_regs (d : Dev) (e : Nat) (g : Engine) : (d.setEng e g).regs = d.regs := rfl
@[simp] theorem Dev.setEng_caps (d : Dev) (e : Nat) (g : Engine) : (d.setEng e g).caps = d.caps := rfl
@[simp] theorem Dev.setEng_stg (d : Dev) (e : Nat) (g : Engine) : (d.setEng e g).stg = d.stg := rfl
@[simp] theorem Dev.setEng_resp (d : Dev) (e : Nat) (g : Engine) : (d.setEng e g).resp = d.resp := rfl
@[simp] theorem Dev.setEng_free (d : Dev) (e : Nat) (g : Engine) : (d.setEng e g).free = d.free := rfl
@[simp] theorem Dev.setEng_nextDep (d : Dev) (e : Nat) (g : Engine) : (d.setEng e g).nextDep = d.nextDep := rfl
@[simp] theorem Dev.setEng_now (d : Dev) (e : Nat) (g : Engine) : (d.setEng e g).now = d.now := rfl
@[simp] theorem Dev.setEng_msix (d : Dev) (e : Nat) (g : Engine) : (d.setEng e g).msix = d.msix := rfl
@[simp] theorem Dev.setEng_cap (d : Dev) (e : Nat) (g : Engine) : (d.setEng e g).cap = d.cap := rfl
@[simp] theorem Dev.setEng_fs (d : Dev) (e : Nat) (g : Engine) : (d.setEng e g).fs = d.fs := rfl
@[simp] theorem Dev.setEng_q (d : Dev) (e : Nat) (g : Engine) : (d.setEng e g).q = d.q := rfl
@[simp] theorem Dev.setEng_gsv (d : Dev) (e : Nat) (g : Engine) : (d.setEng e g).gsv = d.gsv := rfl
@[simp] theorem Dev.setEng_crm (d : Dev) (e : Nat) (g : Engine) : (d.setEng e g).crm = d.crm := rfl
@[simp] theorem Dev.setEng_cce (d : Dev) (e : Nat) (g : Engine) : (d.setEng e g).cce = d.cce := rfl
@[simp] theorem Dev.setEng_sb (d : Dev) (e : Nat) (g : Engine) : (d.setEng e g).sb = d.sb := rfl
@[simp] theorem Dev.setEng_tdm (d : Dev) (e : Nat) (g : Engine) : (d.setEng e g).tdm = d.tdm := rfl
@[simp] theorem Dev.setEng_net (d : Dev) (e : Nat) (g : Engine) : (d.setEng e g).net = d.net := rfl
@[simp] theorem Dev.setEng_tu (d : Dev) (e : Nat) (g : Engine) : (d.setEng e g).tu = d.tu := rfl
@[simp] theorem Dev.setEng_ai (d : Dev) (e : Nat) (g : Engine) : (d.setEng e g).ai = d.ai := rfl
@[simp] theorem Dev.setEng_ao (d : Dev) (e : Nat) (g : Engine) : (d.setEng e g).ao = d.ao := rfl
@[simp] theorem Dev.setEng_tw (d : Dev) (e : Nat) (g : Engine) : (d.setEng e g).tw = d.tw := rfl
@[simp] theorem Dev.setEng_ms (d : Dev) (e : Nat) (g : Engine) : (d.setEng e g).ms = d.ms := rfl
@[simp] theorem Dev.setEng_hi (d : Dev) (e : Nat) (g : Engine) : (d.setEng e g).hi = d.hi := rfl
@[simp] theorem Dev.setEng_md (d : Dev) (e : Nat) (g : Engine) : (d.setEng e g).md = d.md := rfl
@[simp] theorem Dev.setEng_ld (d : Dev) (e : Nat) (g : Engine) : (d.setEng e g).ld = d.ld := rfl
@[simp] theorem Dev.setEng_cs (d : Dev) (e : Nat) (g : Engine) : (d.setEng e g).cs = d.cs := rfl
@[simp] theorem Dev.setEng_se (d : Dev) (e : Nat) (g : Engine) : (d.setEng e g).se = d.se := rfl

end Sys2Proof.Machine
end

