-- ==== Sys2Proof/Laws/Table.lean ====
section
/-!
SUPPORT. What the sparse tables and the memory operations do: a read after a write, and the canonical form.
-/
namespace Sys2Proof.Machine

variable {α : Type}

/-! ### Reads after writes -/

theorem Tbl.get?_del_same (t : Tbl α) (k : Nat) : Tbl.get? (Tbl.del t k) k = none := by
  induction t with
  | nil => rfl
  | cons e t ih =>
    obtain ⟨a, v⟩ := e
    by_cases h : a = k <;> simp [Tbl.del, Tbl.get?, h, ih]

theorem Tbl.get?_del_other (t : Tbl α) {k j : Nat} (h : j ≠ k) : Tbl.get? (Tbl.del t k) j = Tbl.get? t j := by
  induction t with
  | nil => rfl
  | cons e t ih =>
    obtain ⟨a, v⟩ := e
    by_cases ha : a = k
    · subst ha; simp [Tbl.del, Tbl.get?, Ne.symm h, ih]
    · by_cases hj : a = j <;> simp [Tbl.del, Tbl.get?, ha, hj, ih, h]

theorem Tbl.get?_ins_same (t : Tbl α) (k : Nat) (v : α) (h : Tbl.get? t k = none) : Tbl.get? (Tbl.ins t k v) k = some v := by
  induction t with
  | nil => simp [Tbl.ins, Tbl.get?]
  | cons e t ih =>
    obtain ⟨a, w⟩ := e
    by_cases ha : a = k
    · simp [Tbl.get?, ha] at h
    · simp only [Tbl.get?, ha, if_false] at h
      by_cases hl : k < a <;> simp [Tbl.ins, Tbl.get?, hl, ha, ih h]

theorem Tbl.get?_ins_other (t : Tbl α) {k j : Nat} (v : α) (h : j ≠ k) : Tbl.get? (Tbl.ins t k v) j = Tbl.get? t j := by
  induction t with
  | nil => simp [Tbl.ins, Tbl.get?, Ne.symm h]
  | cons e t ih =>
    obtain ⟨a, w⟩ := e
    by_cases hl : k < a
    · simp [Tbl.ins, hl, Tbl.get?, Ne.symm h]
    · rw [Tbl.ins, if_neg hl]
      by_cases hj : a = j <;> simp [Tbl.get?, hj, ih]

theorem Tbl.get?_put_same (t : Tbl α) (k : Nat) (v : α) : Tbl.get? (Tbl.put t k v) k = some v :=
  Tbl.get?_ins_same _ _ _ (Tbl.get?_del_same t k)

theorem Tbl.get?_put_other (t : Tbl α) {k j : Nat} (v : α) (h : j ≠ k) : Tbl.get? (Tbl.put t k v) j = Tbl.get? t j := by
  rw [Tbl.put, Tbl.get?_ins_other _ _ h, Tbl.get?_del_other _ h]

@[simp] theorem Tbl.getD_set_same [DecidableEq α] (t : Tbl α) (d : α) (k : Nat) (v : α) : Tbl.getD (Tbl.set t d k v) k d = v := by
  by_cases h : v = d
  · simp [Tbl.set, Tbl.getD, h, Tbl.get?_del_same]
  · simp [Tbl.set, Tbl.getD, h, Tbl.get?_put_same]

theorem Tbl.getD_set_other [DecidableEq α] (t : Tbl α) (d e : α) {k j : Nat} (v : α) (h : j ≠ k) :
    Tbl.getD (Tbl.set t d k v) j e = Tbl.getD t j e := by
  by_cases hv : v = d
  · simp [Tbl.set, Tbl.getD, hv, Tbl.get?_del_other _ h]
  · simp [Tbl.set, Tbl.getD, hv, Tbl.get?_put_other _ _ h]

theorem Tbl.getD_set [DecidableEq α] (t : Tbl α) (d : α) (k j : Nat) (v : α) :
    Tbl.getD (Tbl.set t d k v) j d = if j = k then v else Tbl.getD t j d := by
  by_cases h : j = k
  · subst h; simp
  · simp [h, Tbl.getD_set_other]

@[simp] theorem Tbl.getD_put_same (t : Tbl α) (d : α) (k : Nat) (v : α) : Tbl.getD (Tbl.put t k v) k d = v := by
  simp [Tbl.getD, Tbl.get?_put_same]

/-! ### The canonical form -/

/-- Every key of the table is above `k`. -/
def Tbl.above (k : Nat) (t : Tbl α) : Prop := ∀ e ∈ t, k < e.1

theorem Tbl.rising_cons {k : Nat} {v : α} {t : Tbl α} : Tbl.rising ((k, v) :: t) = true ↔ Tbl.above k t ∧ Tbl.rising t = true := by
  induction t generalizing k v with
  | nil => simp [Tbl.rising, Tbl.above]
  | cons e t ih =>
    obtain ⟨b, w⟩ := e
    simp only [Tbl.rising, Bool.and_eq_true, decide_eq_true_eq]
    constructor
    · rintro ⟨h, hr⟩
      refine ⟨fun e he => ?_, hr⟩
      rcases List.mem_cons.1 he with rfl | he
      · exact h
      · exact Nat.lt_trans h ((ih.1 hr).1 e he)
    · rintro ⟨h, hr⟩
      exact ⟨h (b, w) (by simp), hr⟩

theorem Tbl.above_mono {j k : Nat} {t : Tbl α} (h : j ≤ k) (ht : Tbl.above k t) : Tbl.above j t :=
  fun e he => Nat.lt_of_le_of_lt h (ht e he)

theorem Tbl.mem_del {t : Tbl α} {k : Nat} {e : Nat × α} (h : e ∈ Tbl.del t k) : e ∈ t ∧ e.1 ≠ k := by
  induction t with
  | nil => simp [Tbl.del] at h
  | cons x t ih =>
    obtain ⟨a, v⟩ := x
    by_cases ha : a = k
    · simp [Tbl.del, ha] at h; exact ⟨List.mem_cons_of_mem _ (ih h).1, (ih h).2⟩
    · simp [Tbl.del, ha] at h
      rcases h with rfl | h
      · exact ⟨by simp, ha⟩
      · exact ⟨List.mem_cons_of_mem _ (ih h).1, (ih h).2⟩

theorem Tbl.rising_del {t : Tbl α} (k : Nat) (h : Tbl.rising t = true) : Tbl.rising (Tbl.del t k) = true := by
  induction t with
  | nil => rfl
  | cons e t ih =>
    obtain ⟨a, v⟩ := e
    have h' := Tbl.rising_cons.1 h
    by_cases ha : a = k
    · simp [Tbl.del, ha, ih h'.2]
    · simp only [Tbl.del, ha, if_false]
      exact Tbl.rising_cons.2 ⟨fun e he => h'.1 e (Tbl.mem_del he).1, ih h'.2⟩

theorem Tbl.mem_ins {t : Tbl α} {k : Nat} {v : α} {e : Nat × α} (h : e ∈ Tbl.ins t k v) : e = (k, v) ∨ e ∈ t := by
  induction t with
  | nil => simp [Tbl.ins] at h; exact Or.inl h
  | cons x t ih =>
    obtain ⟨a, w⟩ := x
    by_cases hl : k < a
    · simp [Tbl.ins, hl] at h
      rcases h with h | h | h
      · exact Or.inl h
      · exact Or.inr (by simp [h])
      · exact Or.inr (by simp [h])
    · simp [Tbl.ins, hl] at h
      rcases h with h | h
      · exact Or.inr (by simp [h])
      · rcases ih h with h | h
        · exact Or.inl h
        · exact Or.inr (by simp [h])

theorem Tbl.rising_ins {t : Tbl α} {k : Nat} (v : α) (h : Tbl.rising t = true) (hk : ∀ e ∈ t, e.1 ≠ k) :
    Tbl.rising (Tbl.ins t k v) = true := by
  induction t with
  | nil => rfl
  | cons x t ih =>
    obtain ⟨a, w⟩ := x
    have h' := Tbl.rising_cons.1 h
    by_cases hl : k < a
    · simp only [Tbl.ins, hl, if_true]
      refine Tbl.rising_cons.2 ⟨fun e he => ?_, h⟩
      rcases List.mem_cons.1 he with rfl | he
      · exact hl
      · exact Nat.lt_trans hl (h'.1 e he)
    · simp only [Tbl.ins, hl, if_false]
      refine Tbl.rising_cons.2 ⟨fun e he => ?_, ih h'.2 (fun e he => hk e (List.mem_cons_of_mem _ he))⟩
      rcases Tbl.mem_ins he with rfl | he
      · exact Nat.lt_of_le_of_ne (Nat.le_of_not_lt hl) (hk (a, w) (by simp))
      · exact h'.1 e he

theorem Tbl.rising_put {t : Tbl α} (k : Nat) (v : α) (h : Tbl.rising t = true) : Tbl.rising (Tbl.put t k v) = true :=
  Tbl.rising_ins v (Tbl.rising_del k h) (fun _ he => (Tbl.mem_del he).2)

theorem Tbl.rising_set [DecidableEq α] {t : Tbl α} (d : α) (k : Nat) (v : α) (h : Tbl.rising t = true) :
    Tbl.rising (Tbl.set t d k v) = true := by
  by_cases hv : v = d
  · simp [Tbl.set, hv, Tbl.rising_del k h]
  · simp [Tbl.set, hv, Tbl.rising_put k v h]

theorem Tbl.rising_drop {t : Tbl α} (p : Nat → Bool) (h : Tbl.rising t = true) : Tbl.rising (Tbl.drop t p) = true := by
  induction t with
  | nil => rfl
  | cons e t ih =>
    obtain ⟨a, v⟩ := e
    have h' := Tbl.rising_cons.1 h
    by_cases hp : p a = true
    · have : Tbl.drop ((a, v) :: t) p = Tbl.drop t p := by simp [Tbl.drop, hp]
      rw [this]; exact ih h'.2
    · have : Tbl.drop ((a, v) :: t) p = (a, v) :: Tbl.drop t p := by simp [Tbl.drop, hp]
      rw [this]
      exact Tbl.rising_cons.2 ⟨fun e he => h'.1 e ((List.mem_filter.1 he).1), ih h'.2⟩

theorem Tbl.wf_iff [DecidableEq α] {t : Tbl α} {d : α} : Tbl.wf t d = true ↔ Tbl.rising t = true ∧ ∀ e ∈ t, e.2 ≠ d := by
  simp [Tbl.wf]

theorem Tbl.wf_set [DecidableEq α] {t : Tbl α} {d : α} (k : Nat) (v : α) (h : Tbl.wf t d = true) :
    Tbl.wf (Tbl.set t d k v) d = true := by
  have h' := Tbl.wf_iff.1 h
  refine Tbl.wf_iff.2 ⟨Tbl.rising_set d k v h'.1, fun e he => ?_⟩
  by_cases hv : v = d
  · simp only [Tbl.set, hv, if_true] at he; exact h'.2 e (Tbl.mem_del he).1
  · simp only [Tbl.set, hv, if_false, Tbl.put] at he
    rcases Tbl.mem_ins he with rfl | he
    · exact hv
    · exact h'.2 e (Tbl.mem_del he).1

theorem Tbl.wf_drop [DecidableEq α] {t : Tbl α} {d : α} (p : Nat → Bool) (h : Tbl.wf t d = true) : Tbl.wf (Tbl.drop t p) d = true := by
  have h' := Tbl.wf_iff.1 h
  exact Tbl.wf_iff.2 ⟨Tbl.rising_drop p h'.1, fun e he => h'.2 e ((List.mem_filter.1 he).1)⟩

theorem Tbl.wf_nil [DecidableEq α] (d : α) : Tbl.wf ([] : Tbl α) d = true := rfl

/-! ### Memory -/

theorem Memory.rd8_wr8 (m : Memory) (a b : Nat) (v : Byte) :
    Memory.rd8 (Memory.wr8 m a v) b = if b = a then v else Memory.rd8 m b := Tbl.getD_set (α := Byte) m 0#8 a b v

theorem Memory.wf_nil : Memory.wf [] = true := rfl

theorem Memory.wf_wr8 {m : Memory} (a : Nat) (v : Byte) (h : Memory.wf m = true) : Memory.wf (Memory.wr8 m a v) = true :=
  Tbl.wf_set (α := Byte) a v h

theorem Memory.wf_wr32 {m : Memory} (a : Nat) (v : Word) (h : Memory.wf m = true) : Memory.wf (Memory.wr32 m a v) = true :=
  Memory.wf_wr8 _ _ (Memory.wf_wr8 _ _ (Memory.wf_wr8 _ _ (Memory.wf_wr8 _ _ h)))

theorem Memory.wf_wrBytes {m : Memory} (a : Nat) (bs : List Byte) (h : Memory.wf m = true) :
    Memory.wf (Memory.wrBytes m a bs) = true := by
  induction bs generalizing m a with
  | nil => exact h
  | cons b bs ih => exact ih (a + 1) (Memory.wf_wr8 a b h)

theorem Memory.wf_wrWords {m : Memory} (a : Nat) (ws : List Word) (h : Memory.wf m = true) :
    Memory.wf (Memory.wrWords m a ws) = true := by
  induction ws generalizing m a with
  | nil => exact h
  | cons w ws ih => exact ih (a + 4) (Memory.wf_wr32 a w h)

theorem Memory.wf_clear {m : Memory} (a n : Nat) (h : Memory.wf m = true) : Memory.wf (Memory.clear m a n) = true :=
  Tbl.wf_drop (α := Byte) _ h

/-- A write of a word leaves every byte outside it alone. -/
theorem Memory.rd8_wr32_other (m : Memory) (a b : Nat) (v : Word) (h : b < a ∨ a + 4 ≤ b) :
    Memory.rd8 (Memory.wr32 m a v) b = Memory.rd8 m b := by
  have : b ≠ a ∧ b ≠ a + 1 ∧ b ≠ a + 2 ∧ b ≠ a + 3 := by omega
  simp [Memory.wr32, Memory.rd8_wr8, this]

/-- A write of bytes leaves every byte outside them alone. -/
theorem Memory.rd8_wrBytes_other (m : Memory) (a b : Nat) (bs : List Byte) (h : b < a ∨ a + bs.length ≤ b) :
    Memory.rd8 (Memory.wrBytes m a bs) b = Memory.rd8 m b := by
  induction bs generalizing m a with
  | nil => rfl
  | cons x bs ih =>
    simp only [List.length_cons] at h
    rw [Memory.wrBytes, ih (Memory.wr8 m a x) (a + 1) (by omega), Memory.rd8_wr8, if_neg (by omega)]

end Sys2Proof.Machine
end

