-- ==== Sys2Proof/Laws/Regs.lean ====
section
/-!
SUPPORT. Registers: a read after a write, fields, events, and one event register read through another's write.
-/
namespace Sys2Proof.Machine

@[simp] theorem RegFile.rd_wr_same (t : RegFile) (r : Reg) (v : Word) : (RegFile.wr t r v).rd r = v :=
  Tbl.getD_set_same t _ _ _

theorem RegFile.rd_wr_other (t : RegFile) {r x : Reg} (v : Word) (h : x.key ≠ r.key) : (RegFile.wr t r v).rd x = RegFile.rd t x :=
  Tbl.getD_set_other t _ _ v h

@[simp] theorem Dev.rd_wr_same (d : Dev) (r : Reg) (v : Word) : (d.wr r v).rd r = v := RegFile.rd_wr_same _ _ _

theorem Dev.rd_wr_other (d : Dev) {r x : Reg} (v : Word) (h : x.key ≠ r.key) : (d.wr r v).rd x = d.rd x :=
  RegFile.rd_wr_other _ v h

/-- Keys of registers with offsets and instances within 16 bits are equal only for the same block, offset and instance. -/
theorem Reg.key_ne {r x : Reg} (h : x.blk ≠ r.blk ∨ x.off ≠ r.off ∨ x.inst ≠ r.inst) (ho : x.off < 65536 ∧ r.off < 65536)
    (hi : x.inst < 65536 ∧ r.inst < 65536) : x.key ≠ r.key := by
  simp only [Reg.key]; omega

/-- A read depends on the register file alone. -/
theorem Dev.rd_congr {d e : Dev} (h : d.regs = e.regs) (r : Reg) : d.rd r = e.rd r := by simp [Dev.rd, h]
theorem Dev.f_congr {d e : Dev} (h : d.regs = e.regs) (f : Fld) : d.f f = e.f f := by simp [Dev.f, Dev.rd, h]

theorem Dev.f_setF_same (d : Dev) (f : Fld) (v : Nat) (h : f.lo + f.len ≤ 32) : (d.setF f v).f f = v % 2 ^ f.len := by
  simp [Dev.f, Dev.setF, bits_setBits_same _ _ h]

/-- Another field of the same register. -/
theorem Dev.f_setF_beside (d : Dev) {f x : Fld} (v : Nat) (hr : x.reg = f.reg) (h : f.lo + f.len ≤ 32)
    (hd : x.lo + x.len ≤ f.lo ∨ f.lo + f.len ≤ x.lo) : (d.setF f v).f x = d.f x := by
  simp [Dev.f, Dev.setF, hr, bits_setBits_other _ _ h hd]

/-- A field of another register. -/
theorem Dev.f_setF_other (d : Dev) {f x : Fld} (v : Nat) (h : x.reg.key ≠ f.reg.key) : (d.setF f v).f x = d.f x := by
  simp [Dev.f, Dev.setF, Dev.rd_wr_other _ _ h]

theorem Dev.rd_setF_other (d : Dev) {f : Fld} {x : Reg} (v : Nat) (h : x.key ≠ f.reg.key) : (d.setF f v).rd x = d.rd x :=
  Dev.rd_wr_other _ _ h

theorem Dev.rd_evt_same (d : Dev) (e : EvBit) : (d.evt e).rd (evtReg e.blk) = d.rd (evtReg e.blk) ||| w32 (2 ^ e.bit) := by
  simp [Dev.evt, Dev.setBit]

theorem Dev.rd_evt_other (d : Dev) (e : EvBit) {x : Reg} (h : x.key ≠ (evtReg e.blk).key) : (d.evt e).rd x = d.rd x :=
  Dev.rd_wr_other _ _ h

theorem Dev.f_evt_other (d : Dev) (e : EvBit) {x : Fld} (h : x.reg.key ≠ (evtReg e.blk).key) : (d.evt e).f x = d.f x := by
  simp [Dev.f, Dev.rd_evt_other _ _ h]

/-- The event's bit is set. -/
theorem Dev.evt_bit (d : Dev) (e : EvBit) (h : e.bit < 32) : bit ((d.evt e).rd (evtReg e.blk)) e.bit = true := by
  rw [Dev.rd_evt_same, bit_or, bit_pow _ _ h]; simp

/-- A later event leaves a set bit set. -/
theorem Dev.evt_keeps (d : Dev) (e : EvBit) (b i : Nat) (h : bit (d.rd (evtReg b)) i = true) :
    bit ((d.evt e).rd (evtReg b)) i = true := by
  by_cases hb : (evtReg b).key = (evtReg e.blk).key
  · have hb' : b = e.blk := by simp only [Reg.key, evtReg] at hb; omega
    rw [hb', Dev.rd_evt_same, bit_or, ← hb', h]; simp
  · rw [Dev.rd_evt_other _ _ hb, h]

end Sys2Proof.Machine
end

