-- ==== Sys2Proof/Laws/Run.lean ====
section
/-!
SUPPORT. How a meaning answers: `notify` touches the MSI-X counts alone; what each form of answer leaves unchanged; which form a
command takes while the block is awake.
-/
namespace Sys2Proof.Machine

/-! ### MSI-X notification -/

theorem notify_eq (old new : Dev) : ∃ m, notify old new = { new with msix := m } := by
  let f (d : Dev) (n : Nat) : Dev :=
    if !old.sumBit n && new.sumBit n then { d with msix := d.msix.raise n } else d
  have key : ∀ (l : List Nat) (d : Dev), (∃ m, d = { new with msix := m }) → ∃ m, l.foldl f d = { new with msix := m } := by
    intro l
    induction l with
    | nil => intro d h; exact h
    | cons n l ih =>
      rintro d ⟨m, rfl⟩
      refine ih _ ?_
      by_cases h : (!old.sumBit n && new.sumBit n) = true
      · exact ⟨m.raise n, if_pos h⟩
      · exact ⟨m, if_neg h⟩
  exact key (List.range 17) new ⟨new.msix, rfl⟩

@[simp] theorem notify_regs (old new : Dev) : (notify old new).regs = new.regs := by
  obtain ⟨m, h⟩ := notify_eq old new; rw [h]
@[simp] theorem notify_caps (old new : Dev) : (notify old new).caps = new.caps := by
  obtain ⟨m, h⟩ := notify_eq old new; rw [h]
@[simp] theorem notify_stg (old new : Dev) : (notify old new).stg = new.stg := by
  obtain ⟨m, h⟩ := notify_eq old new; rw [h]
@[simp] theorem notify_resp (old new : Dev) : (notify old new).resp = new.resp := by
  obtain ⟨m, h⟩ := notify_eq old new; rw [h]
@[simp] theorem notify_free (old new : Dev) : (notify old new).free = new.free := by
  obtain ⟨m, h⟩ := notify_eq old new; rw [h]
@[simp] theorem notify_nextDep (old new : Dev) : (notify old new).nextDep = new.nextDep := by
  obtain ⟨m, h⟩ := notify_eq old new; rw [h]
@[simp] theorem notify_now (old new : Dev) : (notify old new).now = new.now := by
  obtain ⟨m, h⟩ := notify_eq old new; rw [h]
@[simp] theorem notify_cap (old new : Dev) : (notify old new).cap = new.cap := by
  obtain ⟨m, h⟩ := notify_eq old new; rw [h]
@[simp] theorem notify_fs (old new : Dev) : (notify old new).fs = new.fs := by
  obtain ⟨m, h⟩ := notify_eq old new; rw [h]
@[simp] theorem notify_q (old new : Dev) : (notify old new).q = new.q := by
  obtain ⟨m, h⟩ := notify_eq old new; rw [h]
@[simp] theorem notify_gsv (old new : Dev) : (notify old new).gsv = new.gsv := by
  obtain ⟨m, h⟩ := notify_eq old new; rw [h]
@[simp] theorem notify_crm (old new : Dev) : (notify old new).crm = new.crm := by
  obtain ⟨m, h⟩ := notify_eq old new; rw [h]
@[simp] theorem notify_cce (old new : Dev) : (notify old new).cce = new.cce := by
  obtain ⟨m, h⟩ := notify_eq old new; rw [h]
@[simp] theorem notify_vf (old new : Dev) : (notify old new).vf = new.vf := by
  obtain ⟨m, h⟩ := notify_eq old new; rw [h]
@[simp] theorem notify_sb (old new : Dev) : (notify old new).sb = new.sb := by
  obtain ⟨m, h⟩ := notify_eq old new; rw [h]
@[simp] theorem notify_tdm (old new : Dev) : (notify old new).tdm = new.tdm := by
  obtain ⟨m, h⟩ := notify_eq old new; rw [h]
@[simp] theorem notify_net (old new : Dev) : (notify old new).net = new.net := by
  obtain ⟨m, h⟩ := notify_eq old new; rw [h]
@[simp] theorem notify_tu (old new : Dev) : (notify old new).tu = new.tu := by
  obtain ⟨m, h⟩ := notify_eq old new; rw [h]
@[simp] theorem notify_ai (old new : Dev) : (notify old new).ai = new.ai := by
  obtain ⟨m, h⟩ := notify_eq old new; rw [h]
@[simp] theorem notify_ao (old new : Dev) : (notify old new).ao = new.ao := by
  obtain ⟨m, h⟩ := notify_eq old new; rw [h]
@[simp] theorem notify_tw (old new : Dev) : (notify old new).tw = new.tw := by
  obtain ⟨m, h⟩ := notify_eq old new; rw [h]
@[simp] theorem notify_ms (old new : Dev) : (notify old new).ms = new.ms := by
  obtain ⟨m, h⟩ := notify_eq old new; rw [h]
@[simp] theorem notify_hi (old new : Dev) : (notify old new).hi = new.hi := by
  obtain ⟨m, h⟩ := notify_eq old new; rw [h]
@[simp] theorem notify_md (old new : Dev) : (notify old new).md = new.md := by
  obtain ⟨m, h⟩ := notify_eq old new; rw [h]
@[simp] theorem notify_ld (old new : Dev) : (notify old new).ld = new.ld := by
  obtain ⟨m, h⟩ := notify_eq old new; rw [h]
@[simp] theorem notify_cs (old new : Dev) : (notify old new).cs = new.cs := by
  obtain ⟨m, h⟩ := notify_eq old new; rw [h]
@[simp] theorem notify_se (old new : Dev) : (notify old new).se = new.se := by
  obtain ⟨m, h⟩ := notify_eq old new; rw [h]

theorem notify_rd (old new : Dev) (r : Reg) : (notify old new).rd r = new.rd r := Dev.rd_congr (notify_regs old new) r
theorem notify_f (old new : Dev) (f : Fld) : (notify old new).f f = new.f f := Dev.f_congr (notify_regs old new) f

/-! ### What an answer leaves unchanged -/

@[simp] theorem State.onDev_pending (s : State) (g : Dev → Dev) : (s.onDev g).pending = s.pending := rfl
@[simp] theorem State.onDev_mem (s : State) (g : Dev → Dev) : (s.onDev g).mem = s.mem := rfl
@[simp] theorem State.onDev_fuses (s : State) (g : Dev → Dev) : (s.onDev g).fuses = s.fuses := rfl
@[simp] theorem State.onDev_dev (s : State) (g : Dev → Dev) : (s.onDev g).dev = notify s.dev (g s.dev) := rfl
@[simp] theorem State.onMem_pending (s : State) (g : List Host.Cell → Dev → List Host.Cell × Dev) :
    (s.onMem g).pending = s.pending := rfl
@[simp] theorem State.onMem_fuses (s : State) (g : List Host.Cell → Dev → List Host.Cell × Dev) : (s.onMem g).fuses = s.fuses := rfl
@[simp] theorem State.onMem_mem (s : State) (g : List Host.Cell → Dev → List Host.Cell × Dev) :
    (s.onMem g).mem = (g s.mem s.dev).1 := rfl
@[simp] theorem State.onMem_dev (s : State) (g : List Host.Cell → Dev → List Host.Cell × Dev) :
    (s.onMem g).dev = notify s.dev (g s.mem s.dev).2 := rfl
@[simp] theorem State.onAll_pending (s : State) (g : World → World) : (s.onAll g).pending = s.pending := rfl
@[simp] theorem State.onAll_mem (s : State) (g : World → World) : (s.onAll g).mem = (g ⟨s.fuses, s.mem, s.dev⟩).mem := rfl
@[simp] theorem State.onAll_fuses (s : State) (g : World → World) : (s.onAll g).fuses = (g ⟨s.fuses, s.mem, s.dev⟩).fuses := rfl
@[simp] theorem State.onAll_dev (s : State) (g : World → World) :
    (s.onAll g).dev = notify s.dev (g ⟨s.fuses, s.mem, s.dev⟩).dev := rfl

/-! ### Awake, a command's effect is its operation -/

theorem knocks_of_awake {d : Dev} (h : d.asleep = false) (m : Agent) : d.knocks m = false := by
  simp only [Dev.asleep, Bool.or_eq_false_iff] at h
  simp [Dev.knocks, h.2]

theorem dark_of_awake {d : Dev} (h : d.asleep = false) : d.dark = false := by
  simp only [Dev.asleep, Bool.or_eq_false_iff] at h
  exact h.1

theorem ok_awake {s : State} (h : s.dev.asleep = false) (g : Dev → Dev) : ok s g = .next (s.onDev g) := by
  simp [ok, State.onDev, Dev.when, h]

theorem okOn_lit {s : State} (h : s.dev.dark = false) (g : Dev → Dev) : okOn s g = .next (s.onDev g) := by
  simp [okOn, State.onDev, Dev.when, h]

theorem bridged_free {d : Dev} {m : Agent} (h : d.lockedBy m.master = none) (t : Nat) (write : Bool) (g : Dev → Dev) :
    bridged m t write g d = g (granted t m.master write d) := by simp [bridged, h]

/-- Inside a locked sequence of the same master, the access ends the sequence with an error response. -/
theorem bridged_locked {d : Dev} {m : Agent} {u : Nat} (h : d.lockedBy m.master = some u) (t : Nat) (write : Bool) (g : Dev → Dev) :
    bridged m t write g d = lockBreak u d := by simp [bridged, h]

theorem bridgedAll_free {w : World} {m : Agent} (h : w.dev.lockedBy m.master = none) (t : Nat) (write : Bool) (g : World → World) :
    bridgedAll m t write g w = g (w.onDev (granted t m.master write)) := by simp [bridgedAll, h]

theorem okBy_awake {s : State} (m : Agent) (a : Nat) (v : Word) (h : s.dev.asleep = false) (g : Dev → Dev) (write : Bool) (t : Nat) :
    okBy m a v s g write t = .next (s.onDev (bridged m t write g)) := by
  simp [okBy, State.onDev, Dev.when, h, knocks_of_awake h]

/-- In Siding, an access by the PCIe or the SPI host only latches its cause and waits. -/
theorem okBy_knocks {s : State} (m : Agent) (a : Nat) (v : Word) (h : s.dev.knocks m = true) (g : Dev → Dev) (write : Bool) (t : Nat) :
    okBy m a v s g write t = .next (s.onDev (knock (.word m a write v))) := by
  simp [okBy, State.onDev, h]

theorem okOnBy_awake {s : State} (m : Agent) (a : Nat) (v : Word) (h : s.dev.asleep = false) (g : Dev → Dev) (write : Bool) :
    okOnBy m a v s g write = .next (s.onDev (bridged m 11 write g)) := by
  simp [okOnBy, State.onDev, Dev.when, dark_of_awake h, knocks_of_awake h]

theorem okM_awake {s : State} (h : s.dev.asleep = false) (g : List Host.Cell → Dev → List Host.Cell × Dev) :
    okM s g = .next (s.onMem g) := by
  simp [okM, State.onMem, h]

theorem okAllBy_awake {s : State} (m : Agent) (a : Nat) (v : Word) (h : s.dev.asleep = false) (g : World → World) :
    okAllBy m a v s g = .next (s.onAll (bridgedAll m 11 true g)) := by
  simp [okAllBy, State.onAll, World.when, h, knocks_of_awake h]

theorem okAt_awake {s : State} (m : Agent) (a : Nat) (v : Word) (write : Bool) (h : s.dev.asleep = false) (hr : m.reaches a = true)
    (g : World → World) : okAt m a v write true s g = .next (s.onAll (accessAt m a write g)) := by
  simp [okAt, State.onAll, World.when, h, hr, knocks_of_awake h, dark_of_awake h]

/-- An access outside the agent's view, or one of another row, changes nothing. -/
theorem okAt_unseen {s : State} (m : Agent) (a : Nat) (v : Word) (write c : Bool) (hr : (m.reaches a && c) = false) (g : World → World) :
    ∃ t, okAt m a v write c s g = .next t ∧ t.mem = s.mem ∧ t.fuses = s.fuses ∧ t.dev = notify s.dev s.dev := by
  refine ⟨_, rfl, ?_⟩
  have h : (!m.reaches a || !c) = true := by revert hr; cases m.reaches a <;> cases c <;> decide
  simp only [State.onAll, h, if_true, and_self]

theorem okRs_awake {s : State} (m : Agent) (r : Reg) (v : Word) (h : s.dev.asleep = false) (g : Dev → Dev) :
    okRs m r v s g = .next (s.onDev (bridged m 11 true (rsGate m r v g))) := okBy_awake m _ v h _ _ _

theorem okNet_awake {s : State} (h : s.dev.asleep = false) (g : List Host.Cell → Dev → List Host.Cell × Dev) (k : World → World) :
    okNet s g k = .next (s.onAll (fun w => k { w with mem := (g w.mem w.dev).1, dev := (g w.mem w.dev).2 })) := by
  simp [okNet, State.onAll, World.when, h]

theorem okCmd_awake {s : State} (x : Fin 3) (code : Nat) (h : s.dev.asleep = false) (f : Nat → List Word → World → Answer × World) :
    okCmd x code s f = .next (s.onAll (fwCmd x.val code (fun _ _ => false) f)) := by
  simp [okCmd, State.onAll, World.when, h]

/-- Outside a copy of the renderer, a rendering-state write acts, but one of a loader that is busy. -/
theorem rsGate_free {d : Dev} (m : Agent) (r : Reg) (v : Word) (g : Dev → Dev) (h : d.twCopy = false) (hb : d.loaderBusy r = false) :
    rsGate m r v g d = g (twLogWr r.addr m v d) := by
  simp [rsGate, rsHold, h, hb]

end Sys2Proof.Machine
end

