-- ==== Sys2Proof/Tests/Slice0.lean ====
section
/-!
SUPPORT. Our own tests: an ill-formed command for each check of WellFormed, a few values that standards or the spec write out, and for each
statement of Certificates/Slice0 that has hypotheses a state and operands that meet them.
-/

set_option maxRecDepth 8000
namespace Sys2Proof.Tests
open Sys2Proof Sys2Proof.Machine

/-! ### Well-formedness: for each check an operand outside its range -/

theorem test_wf_queue : (Instr.queueSlotFilled 384).wellFormed = false ∧ (Instr.ticketReturn 384).wellFormed = false := by decide
theorem test_wf_address : (Instr.regWrite .pcie (2 ^ 40) 0).wellFormed = false ∧ (Instr.wideLoRead .pcie (2 ^ 40)).wellFormed = false ∧
    (Instr.wideLoWrite .pcie (2 ^ 40) 0).wellFormed = false ∧ (Instr.wideHiWrite .pcie (2 ^ 40) 0).wellFormed = false ∧
    (Instr.peakRegWrite .pcie (2 ^ 40) 0).wellFormed = false ∧ (Instr.unmappedAccess .pcie true (2 ^ 40) 0).wellFormed = false := by decide
theorem test_wf_fabric : (Instr.lockedRead .pcie (2 ^ 40) []).wellFormed = false ∧ (Instr.unlockingWrite .pcie (2 ^ 40) 0 []).wellFormed = false ∧
    (Instr.lockTo 14).wellFormed = false ∧ (Instr.spiWrite (2 ^ 32) []).wellFormed = false ∧ (Instr.spiRead (2 ^ 32) 1).wellFormed = false ∧
    (Instr.dbgMem false (2 ^ 40) 0 []).wellFormed = false := by decide
theorem test_wf_feed : (Instr.cceFeedBlock 1024 0 true []).wellFormed = false ∧
    (Instr.tailWaitEnd 1024 0).wellFormed = false := by decide
theorem test_wf_item : (Instr.stageDone 4096 0).wellFormed = false ∧ (Instr.releaseExpire 4096 0).wellFormed = false ∧
    (Instr.deadlineExpire 4096 0).wellFormed = false := by decide
theorem test_wf_slot : (Instr.slotZcSwitch 0 true 32).wellFormed = false := by decide
theorem test_wf_tdm_frame : (Instr.tdmFrame 0 ⟨0, List.replicate 1025 true, 0, 0, false⟩).wellFormed = false := by decide +kernel
theorem test_wf_channel_status : (Instr.channelStatusBlock 0 true [0]).wellFormed = false := by decide
theorem test_wf_frame (bs : List Byte) (h : bs.length = 16384) :
    (Instr.frameReceive 0 ⟨bs, 0, 0, 0, 0, []⟩).wellFormed = false ∧ (Instr.streamPacketRx 0 ⟨bs, 0, 0, 0, 0, []⟩).wellFormed = false ∧
    (Instr.metadataPacket 0 ⟨bs, 0, 0, 0, 0, []⟩).wellFormed = false := by
  simp only [Instr.wellFormed, rxOk, h]; decide
theorem test_wf_stream : (Instr.streamPacketTx 256).wellFormed = false := by decide
theorem test_wf_prp : (Instr.prpEntryExpire (2 ^ 48) 0).wellFormed = false ∧ (Instr.prpEntryExpire 0 65536).wellFormed = false := by decide
theorem test_wf_guard : (Instr.txSelect 0 256 0).wellFormed = false := by decide
theorem test_wf_twin : (Instr.switchFrame true (2 ^ 58)).wellFormed = false ∧ (Instr.pinInstant (2 ^ 58)).wellFormed = false ∧
    (Instr.health true []).wellFormed = false ∧ (Instr.fault true 0 0).wellFormed = false ∧ (Instr.fault true 10 0).wellFormed = false ∧
    (Instr.fault true 1 (2 ^ 58)).wellFormed = false ∧ (Instr.healthReport 32768).wellFormed = false := by decide
theorem test_wf_check : ∀ x y, (Instr.check true (2 ^ 58) x y).wellFormed = false := fun _ _ => rfl
theorem test_wf_scrub : (Instr.scrubVisit 8 0 0).wellFormed = false ∧ (Instr.scrubVisit 0 (2 ^ 40) 0).wellFormed = false ∧
    (Instr.scrubVisit 0 0 3).wellFormed = false := by decide
theorem test_wf_dram : (Instr.drTrainDone 1 []).wellFormed = false ∧ (Instr.dramTrack []).wellFormed = false := by decide
theorem test_wf_nonce : (Instr.secChallenge 0 []).wellFormed = false ∧ (Instr.dbgChal []).wellFormed = false := by decide
set_option exponentiation.threshold 1100 in
theorem test_wf_response : (Instr.dbgResp (2 ^ 1032)).wellFormed = false := by decide +kernel
theorem test_wf_boot : (Instr.boot 0 []).wellFormed = false ∧ (Instr.wake 8).wellFormed = false := by decide

/-! ### Values written out by standards or by the spec -/

/-- The check value of CRC-32C: the bytes "123456789" give 0xE3069283. -/
theorem test_crc32c : crc32c [0x31, 0x32, 0x33, 0x34, 0x35, 0x36, 0x37, 0x38, 0x39] = 0xE3069283#32 := by decide +kernel

/-- FIPS 180-4: the first word of the SHA-256 of "abc". -/
theorem test_sha256_abc : (sha256 [0x61, 0x62, 0x63]).take 4 = [0xBA, 0x78, 0x16, 0xBF] := by decide +kernel

/-- The generator of P-256 lies on the curve: a signature by the key 1 is taken, and one over another digest is not. -/
theorem test_ecdsa_refuses :
    ecdsaOk 0x6b17d1f2e12c4247f8bce6e563a440f277037d812deb33a0f4a13945d898c296
      0x4fe342e2fe1a7f9b8ee7eb4a7c0f9e162bce33576b315ececbb6406837bf51f5 1 1 7 = false := by decide +kernel

/-- An address outside every region reads 0 with the error response, and nothing else changes (00_scope.md R13). -/
theorem test_unmapped : step { State.reset with pending := [.unmappedAccess .pcie false 0x90000000 0] } =
    .next { State.reset with dev := { State.reset.dev with resp := ⟨[], true⟩ } } := rfl

/-- The queue is taken from its front. -/
theorem test_front : (match step { State.reset with pending := [.idcode, .bypass] } with
    | .next t => t.pending | _ => []) = [.bypass] := by decide

/-! ### The hypothesis of the statements that ask only that the units take commands -/

theorem witness_Awake : ∃ s : State, Awake s := ⟨State.reset, by decide⟩

/-! ### States for the witnesses -/

/-- The state after reset with its device changed. -/
def up (g : Dev → Dev) : State := { State.reset with dev := g State.reset.dev }

/-- One object on CRM input 3, eight inputs and eight feeds. -/
def scene (d : Dev) : Dev :=
  (d.onGsv (fun g => { g with layout := { g.layout with objs := [3] } })).onCrm (fun c => { c with nin := 8, nout := 8 })

/-- Block 5 stands in the box: a graph of one CRM stage and one CCE stage, both running. -/
def stages (d : Dev) : Dev :=
  d.onSb (fun s => { s with
    curOk := true, gA := ⟨[⟨0, 0, 0, 0, 0, 0, 0, 0⟩, ⟨0x20000000, 0, 0, 0, 0, 0, 0, 0⟩, ⟨0x40000000, 0, 0, 0, 0, 0, 0, 0⟩], []⟩,
    insts := [⟨5, false, 0, List.replicate 3 ⟨0, .running, false, false, false, false, false⟩, false, false, false⟩] })

/-- The queue `k` with the ticket account `t`. -/
def ticket (k : Nat) (t : Ticket) (d : Dev) : Dev := d.onQ (fun q => q.put k t)

/-- Engine 15 runs; its context changed by `g`. -/
def engine (g : Engine → Engine) (d : Dev) : Dev := d.onEng 15 (fun k => g { k with run := true })

/-- Channel 3 of engine 15 carries `t`. -/
def busy (t : Xfer) : Engine → Engine := fun k => k.onCtx (fun c => c.setChan 3 { c.chan 3 with act := some t })

def slot0 : Slot := ⟨0, 0, 0, 0, 0⟩
def std0 : Std := ⟨0, 0, 0, 0, 0, slot0, slot0, 0⟩
def imm0 : Imm := ⟨31, 31, 0, 0xFFFFFFFF, 0⟩
def ctl0 : Ctl := ⟨3, 0, 1, 0, 1, 0⟩

/-- Interface `k` changed by `g`. -/
def port (k : Nat) (g : Port → Port) (d : Dev) : Dev := d.setPort k (g (d.port k))

/-- TDM port `k` with a legal format: two slots of 32 bits, a frame of 64 bit clocks. -/
def legal (k : Nat) (d : Dev) : Dev :=
  (((d.setF (F.PT_FMT_SLOTS.of k) 1).setF (F.PT_FMT_WIDTH.of k) 2).setF (F.PT_DIV_FLEN.of k) 64).setF (F.PT_DIV_INT.of k) 64

/-- The ports of a list form alignment group 7. -/
def group (ks : List Nat) (d : Dev) : Dev := ks.foldl (fun d k => d.setF (F.PT_CFG_GROUP.of k) 7) d

/-- Network port `p` enabled with its link up, changed by `g`. -/
def netp (p : Nat) (g : NPort → NPort) (d : Dev) : Dev :=
  ((d.setF (F.NP_CFG_EN.at p) 1).setF (F.NP_STATUS_LINK.at p) 1).setNp p (g (d.np p))

/-- Stream `k` runs. -/
def strm (k : Nat) (g : Stream → Stream) (d : Dev) : Dev := d.onNet (fun n => n.setStream k (g { n.stream k with run := true }))

/-- Time instance `i` is enabled; changed by `g`. -/
def inst (i : Nat) (g : Ti → Ti) (d : Dev) : Dev := (d.setTi i (g (d.ti i))).setF (F.TI_CTRL_EN.of i) 1

/-- The analog output `c` changed by `g`. -/
def aout (c : Nat) (g : Aout → Aout) (d : Dev) : Dev := d.setAout c (g (d.aout c))

/-- Twin state `st`; the twin unit changed by `g`. -/
def twin (st : Nat) (g : Twin → Twin) (d : Dev) : Dev := (d.setF F.STATUS_TWN_STATE st).onTw g

/-- Trained DRAM with segments of 32 MiB, the first of them valid. -/
def dram (d : Dev) : Dev := ((d.setF F.DR_CFG_SEGSZ 1).setF F.DR_STATUS_STATE 2).setF F.DR_STATUS_VALID 1

/-- Mailbox `x` changed by `g`. -/
def mbox (x : Nat) (g : Mbox → Mbox) (d : Dev) : Dev := d.setMbx x (g (d.mbx x))

/-- Firmware runs, and host 2 has the message `ws` in mailbox 6. -/
def asked (ws : List Word) (d : Dev) : Dev :=
  mbox 6 (fun b => { b with occ := true, words := ws }) { d with md := { d.md with boot := false } }

/-- No boot is due, and the mode is `m`. -/
def calm (m : Nat) (d : Dev) : Dev := { d with md := { d.md with boot := false } }.setF F.STATUS_SYS_MODE m

/-- Step `k` of a transition from Shunt toward mode `goal` runs. -/
def moving (goal k : Nat) (d : Dev) : Dev :=
  (((calm 2 d).setF F.STATUS_SYS_TRANS 1).setF F.STATUS_SYS_TARGET goal).setF F.STATUS_SYS_STEP k

/-- A consist load runs from image A, with a HEAD car. -/
def loading (d : Dev) : Dev :=
  { calm 2 d with ld := some ⟨1, some 2, false, 0, 0, [⟨0x01010000, 64, 0, 0, [0x00010001, 1024, 9] ++ List.replicate 13 0⟩], 0, none⟩ }

/-- A signature by the key whose public point is the base point of P-256, over one byte 1 (nonce point the base point too), and the fuses with
the hash of that key; computed outside the model. -/
def sig0 : Attempt :=
  ⟨false, beBytes 32 gx256, beBytes 32 gy256,
   beBytes 32 0x6b17d1f2e12c4247f8bce6e563a440f277037d812deb33a0f4a13945d898c296,
   beBytes 32 0xb70ce4221571970d349b15a0f076f8d6486388575faeb946cc6e1b82501e0830, some [1#8], none⟩
def keyFuses : Fuses :=
  [(8, 0x7ddb75d8), (9, 0x362223ef), (10, 0xc638c7ae), (11, 0x803ebbb0)] ++
  [(12, 0x0f5d2f14), (13, 0x24dff4d8), (14, 0xf5eed6fe), (15, 0x9f0db5cb)]

def rec0 : Rec8 := ⟨0, 0, 0, 0, 0, 0, 0, 0⟩

theorem witness_ArchComplete :
  (∃ s : State, Awake s ∧ Quiet s ∧ (s.dev.mc 0).realign = false ∧ s.dev.renders = true) ∧
  (∃ s : State, Awake s ∧ Quiet s ∧ (s.dev.mc 0).realign = false ∧ s.dev.renders = false) ∧
  (∃ s : State, Awake s ∧ Quiet s ∧ (s.dev.mc 0).realign = true) ∧
  (∃ s : State, Awake s ∧ s.dev.q.audit = true ∧ s.dev.auditOn = true ∧ (∀ e ∈ s.dev.q.cap, e.1 ≠ 300 → e.2.balanced = true)) ∧
  (∃ s : State, ∃ e : Nat × Ticket, Awake s ∧ s.dev.q.audit = true ∧ s.dev.auditOn = true ∧ (∀ x ∈ s.dev.q.cap, x.1 < 384) ∧ e ∈ s.dev.q.cap ∧ e.1 ≠ 300 ∧ e.2.balanced = false) ∧
  (∃ s : State, Awake s ∧ s.dev.auditOn = false) ∧
  (∃ s : State, ∃ q, Awake s ∧ (s.dev.q.get q).f > 0) ∧
  (∃ s : State, ∃ q, Awake s ∧ (s.dev.q.get q).ret > 0 ∧ s.dev.q.waiting q = []) ∧
  (∃ s : State, ∃ q, ∃ b : QSlot, ∃ rest : List QSlot, Awake s ∧ (s.dev.q.get q).ret > 0 ∧ s.dev.q.waiting q = b :: rest) ∧
  (∃ s : State, ∃ m : Agent, ∃ v : Word, Serves s m ∧ bit v 1 = true) ∧
  (∃ s : State, ∃ m : Agent, Serves s m) :=
  ⟨⟨up (fun d => d.setF F.STATUS_SYS_MODE 3), by decide⟩,
   ⟨up id, by decide⟩,
   ⟨up (fun d => d.setMc 0 ⟨96, 5, true⟩), by decide⟩,
   ⟨up (fun d => d.setF F.TKA_CTRL_EN 1 |>.onQ (fun q => { q with audit := true, cap := [(5, ⟨4, 3, 1, 0, 0⟩)] })), by decide⟩,
   ⟨up (fun d => d.setF F.TKA_CTRL_EN 1 |>.onQ (fun q => { q with audit := true, cap := [(383, ⟨4, 3, 0, 0, 0⟩)] })), (383, ⟨4, 3, 0, 0, 0⟩), by decide⟩,
   ⟨up (fun d => d.setF F.TKA_CTRL_EN 0), by decide⟩,
   ⟨up (ticket 5 ⟨4, 3, 1, 0, 0⟩), 5, by decide⟩,
   ⟨up (ticket 5 ⟨4, 3, 0, 0, 1⟩), 5, by decide⟩,
   ⟨up (fun d => (ticket 5 ⟨4, 3, 0, 0, 1⟩ d).onQ (fun q => { q with wait := [(5, [⟨7, []⟩])] })), 5, ⟨7, []⟩, [], by decide⟩,
   ⟨up id, .pcie, 2#32, by decide⟩,
   ⟨up id, .pcie, by decide⟩⟩

theorem witness_BusComplete :
  (∃ s : State, ∃ m : Agent, ∃ b, Serves s m ∧ b ≤ 16 ∧ s.dev.absent b 8 = false ∧ m.reaches (evtEnReg b).addr = true) ∧
  (∃ s : State, ∃ m : Agent, ∃ b, Serves s m ∧ b ≤ 16 ∧ s.dev.absent b 4 = false ∧ m.reaches (evtReg b).addr = true) ∧
  (∃ s : State, ∃ m : Agent, Serves s m ∧ m.reaches R.DEP_IDX_LO.addr = true) ∧
  (∃ s : State, ∃ m : Agent, Serves s m ∧ m.reaches R.SYS_RESUME_AT_LO.addr = true) ∧
  (∃ s : State, ∃ m : Agent, Serves s m ∧ m.reaches R.SYS_RESUME_AT_HI.addr = true) ∧
  (∃ s : State, ∃ m : Agent, ∃ r, Serves s m ∧ s.dev.twCopy = false ∧ r ∈ [R.GSV_WR_PEAK, R.CRM_CYC_PEAK, R.CCE_CYC_PEAK, R.SB_INST_PEAK] ∧ m.reaches r.addr = true) ∧
  (∃ s : State, ∃ m : Agent, ∃ a, Serves s m ∧ mapped a = false ∧ listed m a = false ∧ m.reaches a = true) ∧
  (∃ s : State, ∃ m : Agent, ∃ a, Serves s m ∧ inVirif a = true ∧ s.dev.virifMem a = false ∧ engOf a = none ∧ m.reaches a = true) :=
  ⟨⟨up id, .spi, 16, by decide⟩,
   ⟨up id, .spi, 16, by decide⟩,
   ⟨up id, .spi, by decide⟩,
   ⟨up id, .pcie, by decide⟩,
   ⟨up id, .station 0, by decide⟩,
   ⟨up id, .debug, R.SB_INST_PEAK, by decide⟩,
   ⟨up id, .pcie, 0xFFFFFFFFFF, by decide⟩,
   ⟨up id, .spi, 0x400FFFFC, by decide⟩⟩

theorem witness_HostBusComplete :
  (∃ s : State, ∃ addr, ∃ ws : List Word, Serves s .spi ∧ (∀ i, i < ws.length → SramWord s 11 0 (spiAddr addr i)) ∧ addr % 4 = 0 ∧ addr < 2 ^ 32) ∧
  (∃ s : State, ∃ addr, ∃ n, Serves s .spi ∧ (∀ i, i < n → SramWord s 11 0 (spiAddr addr i)) ∧ addr % 4 = 0 ∧ addr < 2 ^ 32) ∧
  (∃ s : State, s.dev.knocks .spi = true) ∧
  (∃ s : State, Awake s ∧ s.dev.hi.i2cPtr = 0x30) :=
  ⟨⟨up id, 0x10000FFC, [1, 2], by decide⟩,
   ⟨up id, 0x103FFFFC, 2, by decide⟩,
   ⟨up (fun d => d.setF F.STATUS_SYS_MODE 1), by decide⟩,
   ⟨up (fun d => d.onHi (fun h => { h with i2cPtr := 0x30 })), by decide⟩⟩

theorem witness_FabricComplete :
  (∃ s : State, ∃ q : FabReq, Awake s ∧ q.write = false ∧ carries q.master.val q.agent = true ∧ q.inView = true ∧ q.ecc = [] ∧ q.size = 4 ∧ (q.master.val = 13 → q.id.val ≠ 15) ∧ s.dev.lockedBy q.master.val = none ∧ SramWord s q.master.val q.id.val q.addr) ∧
  (∃ s : State, ∃ q : FabReq, ∃ v : Word, Awake s ∧ q.write = true ∧ carries q.master.val q.agent = true ∧ q.inView = true ∧ q.ecc = [] ∧ q.size = 4 ∧ (q.master.val = 13 → q.id.val ≠ 15) ∧ q.data = (List.range 4).map (fun i => some (byteOf v.toNat i)) ∧ s.dev.lockedBy q.master.val = none ∧ SramWord s q.master.val q.id.val q.addr) ∧
  (∃ s : State, ∃ q : FabReq, ∃ n, Awake s ∧ q.write = false ∧ s.dev.ms.fq = [] ∧ s.dev.mayIssue q = true ∧ s.dev.targetOf q.addr = some n ∧ n ≠ 9) ∧
  (∃ s : State, ∃ m : Agent, ∃ a, Awake s ∧ m.locks = true ∧ s.dev.ms.late.contains m.master = false ∧ s.dev.lockedBy m.master = none ∧ SramWord s m.master 0 a) ∧
  (∃ s : State, ∃ m : Agent, ∃ a, Awake s ∧ m.locks = true ∧ s.dev.ms.late.contains m.master = false ∧ s.dev.lockedBy m.master = some 9 ∧ SramWord s m.master 0 a) ∧
  (∃ s : State, ∃ m : Agent, ∃ a, ∃ u, ∃ n, Awake s ∧ m.locks = true ∧ s.dev.ms.late.contains m.master = false ∧ s.dev.lockedBy m.master = some u ∧ s.dev.targetOf a = some n ∧ n ≠ u ∧ s.dev.ms.fq = [] ∧ s.dev.held [] n m.master 0 = false ∧ s.dev.serves n m.master = true ∧ s.dev.outstanding m.master < 32) ∧
  (∃ s : State, ∃ m : Agent, ∃ a, ∃ u, ∃ n, Awake s ∧ m.reaches a = true ∧ s.dev.targetOf a = some n ∧ msixAt m a = none ∧ s.dev.lockedBy m.master = some u) ∧
  (∃ s : State, ∃ k, ∃ m : Nat, Awake s ∧ Tbl.get? s.dev.ms.locks k = some m) ∧
  (∃ s : State, ∃ a, Awake s ∧ s.dev.level = 3 ∧ s.dev.lockedBy 13 = none ∧ SramWord s 13 0 a) ∧
  (∃ s : State, ∃ a, Awake s ∧ s.dev.level = 3 ∧ s.dev.lockedBy 13 = none ∧ SramWord s 13 0 a) :=
  ⟨⟨up id, ⟨0, some (.station 0), 0, 0, false, 0x10000000, 4, [], false, []⟩, by decide⟩,
   ⟨up id, ⟨0, some (.station 0), 0, 0, true, 0x103FFFFC, 4, [some 1, some 0, some 0, some 0x80], false, []⟩, 0x80000001, by decide⟩,
   ⟨up id, ⟨13, some .debug, 0, 0, false, 0x20000000, 4, [], false, []⟩, 0, by decide⟩,
   ⟨up id, .station 1, 0x10000000, by decide⟩,
   ⟨up (fun d => d.onMs (fun x => { x with locks := [(9, Agent.master (.station 1))] })), .station 1, 0x10000000, by decide⟩,
   ⟨up (fun d => d.onMs (fun x => { x with locks := [(9, Agent.master (.station 1))] })), .station 1, 0x20000000, 9, 0, by decide⟩,
   ⟨up (fun d => d.onMs (fun x => { x with locks := [(9, Agent.master .pcie)] })), .pcie, 0x50000000, 9, 11, by decide⟩,
   ⟨up (fun d => d.onMs (fun x => { x with locks := [(13, 2)] })), 13, 2, by decide⟩,
   ⟨up (fun d => d.setF F.STATUS_SEC_UNLOCKED 1), 0x10000000, by decide⟩,
   ⟨up (fun d => d.setF F.STATUS_SEC_UNLOCKED 1), 0x103FFFFC, by decide⟩⟩

theorem witness_GsvComplete :
  (∃ s : State, ∃ m : Agent, Serves s m ∧ s.dev.twCopy = false ∧ s.dev.objSel m < s.dev.objCount) ∧
  (∃ s : State, ∃ m : Agent, ∃ v : Word, Serves s m ∧ s.dev.twCopy = false ∧ s.dev.objSel m < s.dev.objCount ∧ postKind s.dev (s.dev.objSel m) (stagedRec s.dev m v) = .done) ∧
  (∃ s : State, ∃ m : Agent, ∃ v : Word, Serves s m ∧ s.dev.twCopy = false ∧ s.dev.objSel m < s.dev.objCount ∧ postKind s.dev (s.dev.objSel m) (stagedRec s.dev m v) = .rejected) ∧
  (∃ s : State, ∃ m : Agent, ∃ v : Word, Serves s m ∧ s.dev.twCopy = false ∧ s.dev.objSel m < s.dev.objCount ∧ postKind s.dev (s.dev.objSel m) (stagedRec s.dev m v) = .noTicket) ∧
  (∃ s : State, ∃ m : Agent, Serves s m ∧ s.dev.twCopy = false) ∧
  (∃ s : State, ∃ m : Agent, ∃ v : Word, Serves s m ∧ s.dev.twCopy = false ∧ s.dev.fb F.GSV_RING_CTRL_EN = false ∧ bit v 0 = true) ∧
  (∃ s : State, ∃ m : Agent, ∃ v : Word, Serves s m ∧ s.dev.twCopy = false ∧ s.dev.fb F.GSV_RING_CTRL_EN = true ∧ bit v 0 = false) ∧
  (∃ s : State, ∃ r : Rec8, Awake s ∧ s.dev.fb F.GSV_RING_CTRL_EN = true ∧ ringFill s.dev ≠ 0 ∧ s.dev.fb F.STATUS_HIF_LINK = true ∧ s.dev.gsv.ringWait = none ∧ postKind s.dev r.objNo r = .done) ∧
  (∃ s : State, ∃ r : Rec8, Awake s ∧ s.dev.fb F.GSV_RING_CTRL_EN = true ∧ ringFill s.dev ≠ 0 ∧ s.dev.fb F.STATUS_HIF_LINK = true ∧ s.dev.gsv.ringWait = none ∧ postKind s.dev r.objNo r = .rejected) ∧
  (∃ s : State, ∃ r : Rec8, Awake s ∧ s.dev.fb F.GSV_RING_CTRL_EN = true ∧ ringFill s.dev ≠ 0 ∧ s.dev.fb F.STATUS_HIF_LINK = true ∧ s.dev.gsv.ringWait = none ∧ postKind s.dev r.objNo r = .noTicket) ∧
  (∃ s : State, ∃ r : Rec8, Awake s ∧ s.dev.gsv.ringWait = some r ∧ postKind s.dev r.objNo r = .done) ∧
  (∃ s : State, Awake s ∧ s.dev.fb F.GSV_RING_CTRL_EN = true) ∧
  (∃ s : State, ∃ m : Agent, ∃ v : Word, Serves s m ∧ s.dev.twCopy = false ∧ bit v 0 = true ∧ s.dev.objSel m < s.dev.objCount) ∧
  (∃ s : State, Awake s ∧ canSolve s.dev = true) ∧
  (∃ s : State, ∃ m : Agent, ∃ v : Word, ∃ r, ∃ o, Serves s m ∧ bit v 0 = true ∧ r ∈ gsvCounters ∧ o < 65536) ∧
  (∃ s : State, Awake s ∧ s.dev.fb F.GSV_RING_CTRL_EN = true ∧ ringFill s.dev ≠ 0 ∧ s.dev.fb F.STATUS_HIF_LINK = false ∧ s.dev.gsv.ringWait = none) :=
  ⟨⟨up scene, .pcie, by decide⟩,
   ⟨up scene, .pcie, 0, by decide⟩,
   ⟨up (fun d => (scene d).stage (R.OBJ_UPD.at 3) .pcie 0xC0000000), .pcie, 0, by decide⟩,
   ⟨up (fun d => (scene d).onGsv (fun g => g.setObj 0 { g.obj 0 with queue := List.replicate 4 ⟨rec0, 1⟩ })), .pcie, 0, by decide⟩,
   ⟨up scene, .pcie, by decide⟩,
   ⟨up scene, .pcie, 1, by decide⟩,
   ⟨up (fun d => (scene d).setF F.GSV_RING_CTRL_EN 1), .pcie, 0, by decide⟩,
   ⟨up (fun d => (((scene d).setF F.GSV_RING_CTRL_EN 1).setF F.STATUS_HIF_LINK 1).wr R.GSV_RING_HEAD 1), rec0, by decide⟩,
   ⟨up (fun d => (((scene d).setF F.GSV_RING_CTRL_EN 1).setF F.STATUS_HIF_LINK 1).wr R.GSV_RING_HEAD 1), ⟨0, 0, 0, 0xC0000000, 0, 0, 0, 0⟩, by decide⟩,
   ⟨up (fun d => ((fun d => (((scene d).setF F.GSV_RING_CTRL_EN 1).setF F.STATUS_HIF_LINK 1).wr R.GSV_RING_HEAD 1) d).onGsv (fun g => g.setObj 0 { g.obj 0 with queue := List.replicate 4 ⟨rec0, 1⟩ })), rec0, by decide⟩,
   ⟨up (fun d => (scene d).onGsv (fun g => { g with ringWait := some rec0 })), rec0, by decide⟩,
   ⟨up (fun d => (scene d).setF F.GSV_RING_CTRL_EN 1), by decide⟩,
   ⟨up scene, .pcie, 1, by decide⟩,
   ⟨up (fun d => ticket 295 ⟨1, 1, 0, 0, 0⟩ (d.setF F.STATUS_SYS_MODE 3)), by decide⟩,
   ⟨up id, .pcie, 1, R.GSV_REJ_CNT, 65535, by decide⟩,
   ⟨up (fun d => ((scene d).setF F.GSV_RING_CTRL_EN 1).wr R.GSV_RING_HEAD 1), by decide⟩⟩

theorem witness_CrmComplete :
  (∃ s : State, ∃ m : Agent, ∃ ecc : List EccHit, Serves s m ∧ s.dev.twCopy = false ∧ s.dev.nodeSel m = true ∧ s.dev.solverOwned (s.dev.inSel m) = false ∧ s.dev.crm.wait.reverse.find? CrmDep.stirs = none ∧ nodeLost ecc (s.dev.inSel m) (s.dev.outSel m) = false) ∧
  (∃ s : State, ∃ m : Agent, ∃ ecc : List EccHit, ∃ p : CrmDep, Serves s m ∧ s.dev.twCopy = false ∧ s.dev.nodeSel m = true ∧ s.dev.solverOwned (s.dev.inSel m) = false ∧ s.dev.crm.wait.reverse.find? CrmDep.stirs = some p ∧ nodeLost ecc (s.dev.inSel m) (s.dev.outSel m) = false) ∧
  (∃ s : State, ∃ m : Agent, ∃ ecc : List EccHit, Serves s m ∧ s.dev.twCopy = false ∧ s.dev.nodeSel m = true ∧ s.dev.solverOwned (s.dev.inSel m) = false ∧ nodeLost ecc (s.dev.inSel m) (s.dev.outSel m) = true) ∧
  (∃ s : State, ∃ m : Agent, Serves s m ∧ s.dev.twCopy = false ∧ s.dev.nodeSel m = true ∧ s.dev.solverOwned (s.dev.inSel m) = true) ∧
  (∃ s : State, ∃ m : Agent, Serves s m) ∧
  (∃ s : State, ∃ m : Agent, ∃ v : Word, Serves s m ∧ s.dev.twCopy = false ∧ bit v 0 = true) ∧
  (∃ s : State, Awake s ∧ s.dev.crm.copyRun = true) ∧
  (∃ s : State, ∃ m : Agent, ∃ v : Word, Serves s m ∧ s.dev.twCopy = false ∧ bit v 1 = true) ∧
  (∃ s : State, ∃ m : Agent, ∃ v : Word, Serves s m ∧ s.dev.twCopy = false ∧ bit v 2 = true) ∧
  (∃ s : State, ∃ m : Agent, ∃ v : Word, Serves s m ∧ s.dev.twCopy = false ∧ bit v 0 ≠ s.dev.crm.next.1) ∧
  (∃ s : State, ∃ m : Agent, ∃ v : Word, Serves s m ∧ s.dev.twCopy = false ∧ bit v 0 = s.dev.crm.next.1) ∧
  (∃ s : State, ∃ r : Rend, Awake s ∧ canRender (sbAll s.dev) = true ∧ s.dev.crm.rend = some r ∧ 4 * (r.grp + 1) < s.dev.crm.nout) ∧
  (∃ s : State, ∃ r : Rend, Awake s ∧ canRender (sbAll s.dev) = true ∧ s.dev.crm.rend = some r ∧ s.dev.crm.nout ≤ 4 * (r.grp + 1)) ∧
  (∃ s : State, ∃ m : Agent, ∃ v : Word, Serves s m ∧ s.dev.twCopy = false ∧ bit v 0 = true ∧ s.dev.crm.ldRun = false ∧ s.dev.rd R.CRM_BLK_COUNT ≠ 0#32) ∧
  (∃ s : State, ∃ m : Agent, ∃ v : Word, Serves s m ∧ s.dev.twCopy = false ∧ bit v 0 = true ∧ s.dev.crm.ldRun = false ∧ s.dev.rd R.CRM_BLK_COUNT = 0#32) ∧
  (∃ s : State, ∃ ecc : List EccHit, Awake s ∧ s.dev.crm.ldRun = true ∧ RecordGood s ecc ∧ s.dev.tw.loadq.all (fun c => c.loader != .node) = true) ∧
  (∃ s : State, ∃ ecc : List EccHit, ∃ w0 : Word, ∃ w1 : Word, Awake s ∧ s.dev.crm.ldRun = true ∧ RecordGood s ecc ∧ w0 = Memory.rd32 (s.dev.loadSrc .node s.dev.crm.ldAddr 8 (s.dev.seen s.mem)) s.dev.crm.ldAddr ∧ w1 = Memory.rd32 (s.dev.loadSrc .node s.dev.crm.ldAddr 8 (s.dev.seen s.mem)) (s.dev.crm.ldAddr + 4) ∧ s.dev.tw.loadq.all (fun c => c.loader != .node) = true ∧ bit w0 31 = false ∧ bits w1 24 8 = 0 ∧ bits w0 0 10 < s.dev.crm.nin ∧ bits w0 10 10 < s.dev.crm.nout ∧ s.dev.solverOwned (bits w0 0 10) = false ∧ s.dev.crm.wait.reverse.find? CrmDep.stirs = none ∧ nodeLost ecc (bits w0 0 10) (bits w0 10 10) = false) ∧
  (∃ s : State, Awake s ∧ s.dev.crm.ldRun = true ∧ s.dev.loadWaits .node 8 = false ∧ s.dev.bulkHas .node 8 = false ∧ s.dev.reach 5 s.dev.crm.ldAddr 8 = true ∧ s.dev.tw.loadq.all (fun c => c.loader != .node) = true ∧ (s.dev.canFetch s.dev.crm.ldAddr = false ∨ s.dev.canFetch (s.dev.crm.ldAddr + 7) = false)) ∧
  (∃ s : State, Awake s ∧ s.dev.crm.ldRun = true ∧ s.dev.tw.loadq.all (fun c => c.loader != .node) = true) ∧
  (∃ s : State, ∃ m : Agent, ∃ v : Word, ∃ r, ∃ o, Serves s m ∧ bit v 0 = true ∧ r ∈ crmCounters ∧ o < 65536) :=
  ⟨⟨up (fun d => ((scene d).wr (R.CRM_ISEL.of 1) 7).wr (R.CRM_OSEL.of 1) 7), .pcie, [], by decide⟩,
   ⟨up (fun d => (((scene d).wr (R.CRM_ISEL.of 1) 7).wr (R.CRM_OSEL.of 1) 7).onCrm (fun c => { c with wait := [⟨6, none, true, false, [], [], []⟩] })), .pcie, [], ⟨6, none, true, false, [], [], []⟩, by decide⟩,
   ⟨up (fun d => ((scene d).wr (R.CRM_ISEL.of 1) 7).wr (R.CRM_OSEL.of 1) 7), .pcie, [⟨0x30000000 + 16 * nodeKey 7 7, true⟩], by decide⟩,
   ⟨up (fun d => (scene d).wr (R.CRM_ISEL.of 1) 3), .pcie, by decide⟩,
   ⟨up scene, .pcie, by decide⟩,
   ⟨up id, .pcie, 1, by decide⟩,
   ⟨up (fun d => d.onCrm (fun c => { c with copyRun := true })), by decide⟩,
   ⟨up id, .pcie, 2, by decide⟩,
   ⟨up id, .pcie, 4, by decide⟩,
   ⟨up id, .pcie, 1, by decide⟩,
   ⟨up id, .pcie, 0, by decide⟩,
   ⟨up (fun d => (scene d).onCrm (fun c => { c with nout := 9, rend := some ⟨5, 1, 0, 0, 0⟩ })), ⟨5, 1, 0, 0, 0⟩, by decide⟩,
   ⟨up (fun d => (scene d).onCrm (fun c => { c with rend := some ⟨5, 1, 0, 0, 0⟩, wait := [⟨6, none, true, false, [], [], []⟩], run := some (true, 6) })), ⟨5, 1, 0, 0, 0⟩, by decide⟩,
   ⟨up (fun d => d.wr R.CRM_BLK_COUNT 1), .pcie, 1, by decide⟩,
   ⟨up id, .pcie, 1, by decide⟩,
   ⟨up (fun d => d.onCrm (fun c => { c with ldRun := true, ldAddr := 0x103FFFF8, ldLeft := 2 })), [], by decide⟩,
   ⟨{ up (fun d => (scene d).onCrm (fun c => { c with ldRun := true, ldAddr := 0x103FFFF8, ldLeft := 1 })) with mem := [(0x103FFFF8, 7), (0x103FFFFC, 5)] }, [], 7, 5, by decide⟩,
   ⟨up (fun d => d.onCrm (fun c => { c with ldRun := true, ldAddr := 0x10400000 })), by decide⟩,
   ⟨up (fun d => d.onCrm (fun c => { c with ldRun := true })), by decide⟩,
   ⟨up id, .pcie, 1, R.CRM_SWAP_NOP_CNT, 65535, by decide⟩⟩

theorem witness_CceComplete :
  (∃ s : State, ∃ o, ∃ c, ∃ xs : List Word, Awake s ∧ (sbAll s.dev).feedDue o = some (c, xs) ∧ s.dev.cce.cut = false) ∧
  (∃ s : State, ∃ o, Awake s ∧ ((sbAll s.dev).feedDue o).isSome = true ∧ s.dev.cce.waits.contains o = false) ∧
  (∃ s : State, ∃ o, ∃ c, ∃ xs : List Word, Awake s ∧ s.dev.cce.waits.contains o = true ∧ s.dev.feedDue o = some (c, xs) ∧ s.dev.cce.cut = false) ∧
  (∃ s : State, ∃ m : Agent, Serves s m ∧ s.dev.twCopy = false ∧ s.dev.feedSelOk m = true) ∧
  (∃ s : State, ∃ m : Agent, Serves s m ∧ s.dev.twCopy = false ∧ s.dev.feedSelOk m = true ∧ s.dev.swapping (s.dev.feedSel m) = false ∧ bits (s.dev.rd (R.FC_SOS_SEL.of m.num)) 0 3 < 5) ∧
  (∃ s : State, ∃ m : Agent, Serves s m ∧ s.dev.twCopy = false ∧ s.dev.feedSelOk m = true ∧ s.dev.swapping (s.dev.feedSel m) = true ∧ bits (s.dev.rd (R.FC_SOS_SEL.of m.num)) 0 3 < 5) ∧
  (∃ s : State, ∃ m : Agent, Serves s m ∧ s.dev.feedSelOk m = true ∧ bits (s.dev.rd (R.FC_SOS_SEL.of m.num)) 0 3 < 5) ∧
  (∃ s : State, ∃ m : Agent, Serves s m ∧ s.dev.twCopy = false ∧ s.dev.feedSelOk m = true ∧ s.dev.swapping (s.dev.feedSel m) = false) ∧
  (∃ s : State, ∃ m : Agent, ∃ v : Word, Serves s m ∧ s.dev.twCopy = false ∧ s.dev.cce.load = none ∧ bit v 0 = true ∧ bits v 16 10 < s.dev.crm.nout ∧ (s.dev.layoutOf (bits v 16 10)).on = true) ∧
  (∃ s : State, ∃ m : Agent, ∃ v : Word, Serves s m ∧ s.dev.twCopy = false ∧ s.dev.cce.load = none ∧ bit v 0 = true ∧ (s.dev.crm.nout ≤ bits v 16 10 ∨ (s.dev.layoutOf (bits v 16 10)).on = false)) ∧
  (∃ s : State, ∃ l : FirLoad, Awake s ∧ s.dev.cce.load = some l ∧ l.wait = true ∧ s.dev.swapping l.feed = false) ∧
  (∃ s : State, ∃ l : FirLoad, ∃ n, ∃ ecc : List EccHit, Awake s ∧ s.dev.cce.load = some l ∧ l.wait = false ∧ n = min l.count (s.dev.layoutOf l.feed).cover ∧ TapsReady s l n ∧ l.goodTaps n ecc s.dev = n ∧ s.dev.tw.loadq.all (fun c => c.loader != .fir) = true) ∧
  (∃ s : State, ∃ l : FirLoad, ∃ n, ∃ ecc : List EccHit, Awake s ∧ s.dev.cce.load = some l ∧ l.wait = false ∧ n = min l.count (s.dev.layoutOf l.feed).cover ∧ TapsReady s l n ∧ l.goodTaps n ecc s.dev < n ∧ s.dev.tw.loadq.all (fun c => c.loader != .fir) = true) ∧
  (∃ s : State, ∃ l : FirLoad, Awake s ∧ s.dev.cce.load = some l ∧ l.wait = false ∧ s.dev.tw.loadq.all (fun c => c.loader != .fir) = true) ∧
  (∃ s : State, ∃ m : Agent, ∃ v : Word, Serves s m ∧ s.dev.twCopy = false ∧ s.dev.feedSelOk m = true ∧ bit v 0 ≠ s.dev.cce.bankOf (s.dev.feedSel m)) ∧
  (∃ s : State, ∃ m : Agent, ∃ v : Word, Serves s m ∧ s.dev.twCopy = false ∧ s.dev.feedSelOk m = true ∧ bit v 0 = s.dev.cce.bankOf (s.dev.feedSel m)) ∧
  (∃ s : State, ∃ m : Agent, ∃ v : Word, ∃ o, ∃ b, Serves s m ∧ s.dev.twCopy = false ∧ o < s.dev.crm.nout ∧ bit (s.dev.rd R.CCE_SWAP_GRP) (s.dev.f (F.FC_INFO_GROUP.of o)) = true ∧ bit v 0 ≠ s.dev.cce.bankOf o ∧ b = (if bit v 31 = true then max (s.dev.rd64 R.CCE_SWAP_AT_LO R.CCE_SWAP_AT_HI) s.dev.effBlk else s.dev.effBlk) ∧ (∀ q, (s.dev.cce.feed o).queued = some q → q.grp = true ∨ q.blk ≠ b)) ∧
  (∃ s : State, ∃ m : Agent, ∃ v : Word, ∃ r, ∃ o, Serves s m ∧ s.dev.crm.nout ≤ 1024 ∧ bit v 0 = true ∧ r ∈ cceCounters ∧ o < 65536) :=
  ⟨⟨up (fun d => (stages ((ticket 297 ⟨2, 1, 0, 0, 0⟩ (scene d)).onCrm (fun c => { c with nin := 8, nout := 8, fbuf := [(7, [(5, List.replicate 32 0x7FFFFFFF)])] }))).onCce (fun e => { e with blk := some 5, done := [], waits := [] })), 7, 5, List.replicate 32 0x7FFFFFFF, by decide⟩,
   ⟨up (fun d => (stages ((ticket 297 ⟨2, 1, 0, 0, 0⟩ (scene d)).onCrm (fun c => { c with nin := 8, nout := 8, fbuf := [(7, [(5, List.replicate 32 0x7FFFFFFF)])] }))).onCce (fun e => { e with blk := some 5, done := [], waits := [] })), 7, by decide⟩,
   ⟨up (fun d => ((ticket 297 ⟨2, 1, 0, 0, 0⟩ (scene d)).onCrm (fun c => { c with nin := 8, nout := 8, fbuf := [(7, [(5, List.replicate 32 0x7FFFFFFF)])] })).onCce (fun e => { e with blk := some 5, done := [(0, [])], waits := [7] })), 7, 5, List.replicate 32 0x7FFFFFFF, by decide⟩,
   ⟨up (fun d => (scene d).wr (R.FEED_SEL.of 1) 7), .pcie, by decide⟩,
   ⟨up scene, .pcie, by decide⟩,
   ⟨up (fun d => (scene d).onFeed 0 (fun f => { f with run := some ⟨false, true, 4, 0⟩ })), .pcie, by decide⟩,
   ⟨up (fun d => (scene d).wr (R.FC_SOS_SEL.of 1) 4), .pcie, by decide⟩,
   ⟨up scene, .pcie, by decide⟩,
   ⟨up (fun d => (scene d).setF (F.FC_INFO_FIR.of 7) 1), .pcie, 0x00070001, by decide⟩,
   ⟨up scene, .pcie, 0x00080001, by decide⟩,
   ⟨up (fun d => (scene d).onCce (fun e => { e with load := some ⟨0, 0x20000000, 32, true⟩ })), ⟨0, 0x20000000, 32, true⟩, by decide⟩,
   ⟨up (fun d => ((scene d).setF (F.FC_INFO_FIR.of 0) 1).onCce (fun e => { e with load := some ⟨0, 0x103FFFFC, 1, false⟩ })), ⟨0, 0x103FFFFC, 1, false⟩, 1, [], by decide⟩,
   ⟨up (fun d => ((scene d).setF (F.FC_INFO_FIR.of 0) 1).onCce (fun e => { e with load := some ⟨0, 0x10400000, 1, false⟩ })), ⟨0, 0x10400000, 1, false⟩, 1, [], by decide⟩,
   ⟨up (fun d => (scene d).onCce (fun e => { e with load := some ⟨0, 0x103FFFFC, 1, false⟩ })), ⟨0, 0x103FFFFC, 1, false⟩, by decide⟩,
   ⟨up scene, .pcie, 1, by decide⟩,
   ⟨up scene, .pcie, 0, by decide⟩,
   ⟨up (fun d => (scene d).wr R.CCE_SWAP_GRP 1), .pcie, 1, 7, 0, ⟨by decide, by decide⟩, by decide, by decide, by decide, by decide, rfl, (by intro q h; cases h)⟩,
   ⟨up id, .pcie, 1, R.FC_CLIPCNT, 65535, by decide⟩⟩

theorem witness_VirifLogic :
  (∃ (s : State) (e : Fin 16) (o : Std), Fires 0x01 s e.val o ∧ o.md = 0) ∧
  (∃ (s : State) (e : Fin 16) (o : Std), Fires 0x02 s e.val o ∧ o.md = 0) ∧
  (∃ (s : State) (e : Fin 16) (o : Std), Fires 0x03 s e.val o ∧ o.md = 0) ∧
  (∃ (s : State) (e : Fin 16) (o : Std), Fires 0x08 s e.val o ∧ o.md = 0) ∧
  (∃ (s : State) (e : Fin 16) (o : Std), Fires 0x09 s e.val o ∧ o.md = 0) ∧
  (∃ (s : State) (e : Fin 16) (o : Std), Fires 0x0A s e.val o ∧ o.md = 0) ∧
  (∃ (s : State) (e : Fin 16) (o : Std), Fires 0x0B s e.val o ∧ o.md = 0) ∧
  (∃ (s : State) (e : Fin 16) (o : Std), Fires 0x0C s e.val o ∧ o.md = 0) ∧
  (∃ (s : State) (e : Fin 16) (o : Std), Fires 0x0D s e.val o ∧ o.md = 0) ∧
  (∃ (s : State) (e : Fin 16) (o : Std), Fires 0x0E s e.val o ∧ o.md = 0) ∧
  (∃ (s : State) (e : Fin 16) (o : Std), Fires 0x0F s e.val o ∧ o.md = 0) ∧
  (∃ (s : State) (e : Fin 16) (o : Std), Fires 0x10 s e.val o ∧ o.md = 0) ∧
  (∃ (s : State) (e : Fin 16) (o : Std), Fires 0x12 s e.val o ∧ o.md = 0) ∧
  (∃ (s : State) (e : Fin 16) (o : Std), Fires 0x00 s e.val o ∧ o.md = 0) ∧
  (∃ (s : State) (e : Fin 16) (o : Std) (p : Nat × (Fin 16 → Std → Instr)), p ∈ plainRows ∧ Fetches s e.val (.std p.1 { o with ce := 0 }) ∧ o.md ≠ 0) ∧
  (∃ (s : State) (e : Fin 16) (o : Std), Fires 0x04 s e.val o ∧ o.md = 0) ∧
  (∃ (s : State) (e : Fin 16) (o : Std), Fires 0x05 s e.val o ∧ o.md = 0) ∧
  (∃ (s : State) (e : Fin 16) (o : Std), Fires 0x06 s e.val o ∧ o.md = 0) ∧
  (∃ (s : State) (e : Fin 16) (o : Std), Fires 0x07 s e.val o ∧ o.md = 0) ∧
  (∃ (s : State) (e : Fin 16) (o : Std), Fires 0x11 s e.val o ∧ o.md = 0) :=
  ⟨⟨{ up (engine id) with mem := [(0x40f00005, 0xff), (0x40f00006, 0xff)] }, 15, { std0 with dst := 31, sa := 31, sb := 31 }, by decide⟩,
   ⟨{ up (engine id) with mem := [(0x40f00005, 0xff), (0x40f00006, 0x7f), (0x40f00007, 0x1)] }, 15, { std0 with dst := 31, sa := 31, sb := 31 }, by decide⟩,
   ⟨{ up (engine id) with mem := [(0x40f00005, 0xff), (0x40f00006, 0xff), (0x40f00007, 0x1)] }, 15, { std0 with dst := 31, sa := 31, sb := 31 }, by decide⟩,
   ⟨{ up (engine id) with mem := [(0x40f00005, 0xff), (0x40f00006, 0x7f), (0x40f00007, 0x4)] }, 15, { std0 with dst := 31, sa := 31, sb := 31 }, by decide⟩,
   ⟨{ up (engine id) with mem := [(0x40f00005, 0xff), (0x40f00006, 0xff), (0x40f00007, 0x4)] }, 15, { std0 with dst := 31, sa := 31, sb := 31 }, by decide⟩,
   ⟨{ up (engine id) with mem := [(0x40f00005, 0xff), (0x40f00006, 0x7f), (0x40f00007, 0x5)] }, 15, { std0 with dst := 31, sa := 31, sb := 31 }, by decide⟩,
   ⟨{ up (engine id) with mem := [(0x40f00005, 0xff), (0x40f00006, 0xff), (0x40f00007, 0x5)] }, 15, { std0 with dst := 31, sa := 31, sb := 31 }, by decide⟩,
   ⟨{ up (engine id) with mem := [(0x40f00005, 0xff), (0x40f00006, 0x7f), (0x40f00007, 0x6)] }, 15, { std0 with dst := 31, sa := 31, sb := 31 }, by decide⟩,
   ⟨{ up (engine id) with mem := [(0x40f00005, 0xff), (0x40f00006, 0xff), (0x40f00007, 0x6)] }, 15, { std0 with dst := 31, sa := 31, sb := 31 }, by decide⟩,
   ⟨{ up (engine id) with mem := [(0x40f00005, 0xff), (0x40f00006, 0x7f), (0x40f00007, 0x7)] }, 15, { std0 with dst := 31, sa := 31, sb := 31 }, by decide⟩,
   ⟨{ up (engine id) with mem := [(0x40f00005, 0xff), (0x40f00006, 0xff), (0x40f00007, 0x7)] }, 15, { std0 with dst := 31, sa := 31, sb := 31 }, by decide⟩,
   ⟨{ up (engine id) with mem := [(0x40f00005, 0xff), (0x40f00006, 0x7f), (0x40f00007, 0x8)] }, 15, { std0 with dst := 31, sa := 31, sb := 31 }, by decide⟩,
   ⟨{ up (engine id) with mem := [(0x40f00005, 0xff), (0x40f00006, 0x7f), (0x40f00007, 0x9)] }, 15, { std0 with dst := 31, sa := 31, sb := 31 }, by decide⟩,
   ⟨{ up (engine id) with mem := [] }, 15, std0, by decide⟩,
   ⟨{ up (engine id) with mem := [(0x40f00004, 0x10)] }, 15, { std0 with md := 1 }, (0x00, .vNop), by simp [plainRows], by decide, by decide⟩,
   ⟨{ up (engine id) with mem := [(0x40f00005, 0xff), (0x40f00006, 0x7f), (0x40f00007, 0x2)] }, 15, { std0 with dst := 31, sa := 31, sb := 31 }, by decide⟩,
   ⟨{ up (engine id) with mem := [(0x40f00005, 0xff), (0x40f00006, 0xff), (0x40f00007, 0x2)] }, 15, { std0 with dst := 31, sa := 31, sb := 31 }, by decide⟩,
   ⟨{ up (engine id) with mem := [(0x40f00005, 0xff), (0x40f00006, 0x7f), (0x40f00007, 0x3)] }, 15, { std0 with dst := 31, sa := 31, sb := 31 }, by decide⟩,
   ⟨{ up (engine id) with mem := [(0x40f00005, 0xff), (0x40f00006, 0xff), (0x40f00007, 0x3)] }, 15, { std0 with dst := 31, sa := 31, sb := 31 }, by decide⟩,
   ⟨{ up (engine id) with mem := [(0x40f00005, 0xff), (0x40f00006, 0xff), (0x40f00007, 0x8)] }, 15, { std0 with dst := 31, sa := 31, sb := 31 }, by decide⟩⟩

theorem witness_VirifAccumulator :
  (∃ (s : State) (e : Fin 16) (o : Std), Fires 0x20 s e.val o ∧ o.md = 0) ∧
  (∃ (s : State) (e : Fin 16) (o : Std), Fires 0x21 s e.val o ∧ o.md = 0) ∧
  (∃ (s : State) (e : Fin 16) (o : Std), Fires 0x22 s e.val o ∧ o.md = 0) ∧
  (∃ (s : State) (e : Fin 16) (o : Std), Fires 0x28 s e.val o ∧ o.md = 0) ∧
  (∃ (s : State) (e : Fin 16) (o : Std), Fires 0x29 s e.val o ∧ o.md = 0) ∧
  (∃ (s : State) (e : Fin 16) (o : Std), Fires 0x2A s e.val o ∧ o.md = 0) ∧
  (∃ (s : State) (e : Fin 16) (o : Std), Fires 0x2B s e.val o ∧ o.md = 0) ∧
  (∃ (s : State) (e : Fin 16) (o : Std), Fires 0x2C s e.val o ∧ o.md = 0) ∧
  (∃ (s : State) (e : Fin 16) (o : Std), Fires 0x2D s e.val o ∧ o.md = 0) ∧
  (∃ (s : State) (e : Fin 16) (o : Std), Fires 0x2E s e.val o ∧ o.md = 0) ∧
  (∃ (s : State) (e : Fin 16) (o : Std), Fires 0x23 s e.val o ∧ o.sa.val % 2 = 0 ∧ o.sb.val % 2 = 0) :=
  ⟨⟨{ up (engine id) with mem := [(0x40f00004, 0xc0), (0x40f00005, 0xde), (0x40f00006, 0x7f), (0x40f00007, 0x10)] }, 15, { std0 with dst := 31, sa := 30, sb := 30, acc := 3 }, by decide⟩,
   ⟨{ up (engine id) with mem := [(0x40f00004, 0xc0), (0x40f00005, 0xde), (0x40f00006, 0xff), (0x40f00007, 0x10)] }, 15, { std0 with dst := 31, sa := 30, sb := 30, acc := 3 }, by decide⟩,
   ⟨{ up (engine id) with mem := [(0x40f00004, 0xc0), (0x40f00005, 0xde), (0x40f00006, 0x7f), (0x40f00007, 0x11)] }, 15, { std0 with dst := 31, sa := 30, sb := 30, acc := 3 }, by decide⟩,
   ⟨{ up (engine id) with mem := [(0x40f00004, 0xc0), (0x40f00005, 0xde), (0x40f00006, 0x7f), (0x40f00007, 0x14)] }, 15, { std0 with dst := 31, sa := 30, sb := 30, acc := 3 }, by decide⟩,
   ⟨{ up (engine id) with mem := [(0x40f00004, 0xc0), (0x40f00005, 0xde), (0x40f00006, 0xff), (0x40f00007, 0x14)] }, 15, { std0 with dst := 31, sa := 30, sb := 30, acc := 3 }, by decide⟩,
   ⟨{ up (engine id) with mem := [(0x40f00004, 0xc0), (0x40f00005, 0xde), (0x40f00006, 0x7f), (0x40f00007, 0x15)] }, 15, { std0 with dst := 31, sa := 30, sb := 30, acc := 3 }, by decide⟩,
   ⟨{ up (engine id) with mem := [(0x40f00004, 0xc0), (0x40f00005, 0xde), (0x40f00006, 0xff), (0x40f00007, 0x15)] }, 15, { std0 with dst := 31, sa := 30, sb := 30, acc := 3 }, by decide⟩,
   ⟨{ up (engine id) with mem := [(0x40f00004, 0xc0), (0x40f00005, 0xde), (0x40f00006, 0x7f), (0x40f00007, 0x16)] }, 15, { std0 with dst := 31, sa := 30, sb := 30, acc := 3 }, by decide⟩,
   ⟨{ up (engine id) with mem := [(0x40f00004, 0xc0), (0x40f00005, 0xde), (0x40f00006, 0xff), (0x40f00007, 0x16)] }, 15, { std0 with dst := 31, sa := 30, sb := 30, acc := 3 }, by decide⟩,
   ⟨{ up (engine id) with mem := [(0x40f00004, 0xc0), (0x40f00005, 0xde), (0x40f00006, 0x7f), (0x40f00007, 0x17)] }, 15, { std0 with dst := 31, sa := 30, sb := 30, acc := 3 }, by decide⟩,
   ⟨{ up (engine id) with mem := [(0x40f00004, 0xc0), (0x40f00005, 0xde), (0x40f00006, 0xff), (0x40f00007, 0x11)] }, 15, { std0 with dst := 31, sa := 30, sb := 30, acc := 3 }, by decide⟩⟩

theorem witness_VirifSpecial :
  (∃ s : State, ∃ e : Fin 16, ∃ o : Std, ∃ wx, ∃ wy, ∃ ay, Fires 0x30 s e.val o ∧ o.x.mop = 1 ∧ o.y.mop = 1 ∧ o.dst = 0 ∧ o.sa = 0 ∧ o.sb = 0 ∧ o.md = 0 ∧ (xMove s e o).ld = [wx] ∧ (yMove s e o).ld = [wy] ∧ (yMove s e o).touch = [ay] ∧ (ctxOf s e).meets true [(ay + 1) % 32768] true = false ∧ s.dev.badWord (localAddr e true (ay + 1)) = false) ∧
  (∃ s : State, ∃ e : Fin 16, ∃ o : Std, Fires 0x31 s e.val o ∧ o.md = 0) ∧
  (∃ s : State, ∃ e : Fin 16, ∃ o : Std, Fires 0x34 s e.val o ∧ o.sa.val % 2 = 0 ∧ o.sb.val % 2 = 0 ∧ o.acc.val % 2 = 0 ∧ o.md = 0) ∧
  (∃ s : State, ∃ e : Fin 16, ∃ o : Std, Fires 0x34 s e.val o ∧ o.sa.val % 2 = 0 ∧ o.sb.val % 2 = 0 ∧ o.acc.val % 2 = 0 ∧ o.md = 1) ∧
  (∃ s : State, ∃ e : Fin 16, ∃ o : Std, Fires 0x35 s e.val o ∧ o.dst.val % 2 = 0 ∧ o.sa.val % 2 = 0 ∧ o.sb.val % 2 = 0 ∧ o.dst ≠ o.sa ∧ o.md.val < 3) ∧
  (∃ s : State, ∃ e : Fin 16, ∃ o : Std, Fires 0x38 s e.val o ∧ o.md = 0) ∧
  (∃ s : State, ∃ e : Fin 16, ∃ o : Std, Fires 0x39 s e.val o ∧ o.md = 0) ∧
  (∃ s : State, ∃ e : Fin 16, ∃ o : Std, Fetches s e.val (.std 0x23 { o with ce := 0 }) ∧ (o.sa.val % 2 = 1 ∨ o.sb.val % 2 = 1)) ∧
  (∃ s : State, ∃ e : Fin 16, ∃ o : Std, Fetches s e.val (.std 0x30 { o with ce := 0 }) ∧ (o.x.mop ≠ 1 ∨ o.y.mop ≠ 1 ∨ o.dst ≠ 0 ∨ o.sa ≠ 0 ∨ o.sb ≠ 0 ∨ o.md ≠ 0)) ∧
  (∃ s : State, ∃ e : Fin 16, ∃ o : Std, Fetches s e.val (.std 0x34 { o with ce := 0 }) ∧ (o.sa.val % 2 = 1 ∨ o.sb.val % 2 = 1 ∨ o.acc.val % 2 = 1 ∨ 1 < o.md.val)) ∧
  (∃ s : State, ∃ e : Fin 16, ∃ o : Std, Fetches s e.val (.std 0x35 { o with ce := 0 }) ∧ (o.dst.val % 2 = 1 ∨ o.sa.val % 2 = 1 ∨ o.sb.val % 2 = 1 ∨ o.dst = o.sa ∨ o.md.val = 3)) :=
  ⟨⟨{ up (engine id) with mem := [(0x40f00000, 0x10), (0x40f00001, 0x80), (0x40f00004, 0xc2), (0x40f00007, 0x18)] }, 15, { std0 with acc := 3, x := { slot0 with mop := 1 }, y := { slot0 with mop := 1, reg := 1 } }, 0, 0, 0, by decide⟩,
   ⟨{ up (engine id) with mem := [(0x40f00006, 0x80), (0x40f00007, 0x18)] }, 15, std0, by decide⟩,
   ⟨{ up (engine id) with mem := [(0x40f00004, 0x80), (0x40f00005, 0xdc), (0x40f00006, 0x3), (0x40f00007, 0x1a)] }, 15, { std0 with sa := 30, sb := 28, acc := 2 }, by decide⟩,
   ⟨{ up (engine id) with mem := [(0x40f00004, 0x90), (0x40f00005, 0xdc), (0x40f00006, 0x3), (0x40f00007, 0x1a)] }, 15, { std0 with sa := 30, sb := 28, acc := 2, md := 1 }, by decide⟩,
   ⟨{ up (engine id) with mem := [(0x40f00004, 0x20), (0x40f00005, 0x4), (0x40f00006, 0xf8), (0x40f00007, 0x1a)] }, 15, { std0 with dst := 30, sb := 4, md := 2 }, by decide⟩,
   ⟨{ up (engine id) with mem := [(0x40f00005, 0x60), (0x40f00006, 0x74), (0x40f00007, 0x1c)] }, 15, { std0 with dst := 29, sa := 3 }, by decide⟩,
   ⟨{ up (engine id) with mem := [(0x40f00005, 0xe0), (0x40f00006, 0x83), (0x40f00007, 0x1c)] }, 15, { std0 with sa := 31 }, by decide⟩,
   ⟨{ up (engine id) with mem := [(0x40f00005, 0x20), (0x40f00006, 0x80), (0x40f00007, 0x11)] }, 15, { std0 with sa := 1 }, by decide⟩,
   ⟨{ up (engine id) with mem := [(0x40f00007, 0x18)] }, 15, std0, by decide⟩,
   ⟨{ up (engine id) with mem := [(0x40f00004, 0x20), (0x40f00007, 0x1a)] }, 15, { std0 with md := 2 }, by decide⟩,
   ⟨{ up (engine id) with mem := [(0x40f00006, 0x80), (0x40f00007, 0x1a)] }, 15, std0, by decide⟩⟩

theorem witness_VirifMoves :
  (∃ s : State, ∃ e : Fin 16, ∃ y : Bool, ∃ sl : Slot, ∃ other : Slot, ∃ ce : Fin 8, Fires 0 s e.val (slotBundle y sl other ce 1) ∧ (y = true ∨ ∀ p ∈ (yMove s e (slotBundle y sl other ce 1)).dw, p.1 ≠ sl.reg.val)) ∧
  (∃ s : State, ∃ e : Fin 16, ∃ y : Bool, ∃ sl : Slot, ∃ other : Slot, ∃ ce : Fin 8, Fires 0 s e.val (slotBundle y sl other ce 2) ∧ s.dev.badWord (localAddr e y (moveAddr (ctxOf s e) y sl 1)) = false) ∧
  (∃ s : State, ∃ e : Fin 16, ∃ y : Bool, ∃ sl : Slot, ∃ other : Slot, ∃ ce : Fin 8, Fires 0 s e.val (slotBundle y sl other ce 2) ∧ s.dev.badWord (localAddr e y (moveAddr (ctxOf s e) y sl 1)) = true) ∧
  (∃ s : State, ∃ e : Fin 16, ∃ y : Bool, ∃ sl : Slot, ∃ other : Slot, ∃ ce : Fin 8, Fires 0 s e.val (slotBundle y sl other ce 3) ∧ (y = true ∨ ∀ p ∈ (yMove s e (slotBundle y sl other ce 3)).dw, p.1 ≠ sl.reg.val ∧ p.1 ≠ sl.reg.val + 1)) ∧
  (∃ s : State, ∃ e : Fin 16, ∃ y : Bool, ∃ sl : Slot, ∃ other : Slot, ∃ ce : Fin 8, Fires 0 s e.val (slotBundle y sl other ce 4)) ∧
  (∃ s : State, ∃ e : Fin 16, ∃ y : Bool, ∃ sl : Slot, ∃ other : Slot, ∃ ce : Fin 8, Fires 0 s e.val (slotBundle y sl other ce 5) ∧ s.dev.badWord (localAddr e y (moveAddr (ctxOf s e) y sl 1)) = false) ∧
  (∃ s : State, ∃ e : Fin 16, ∃ y : Bool, ∃ sl : Slot, ∃ other : Slot, ∃ ce : Fin 8, Fires 0 s e.val (slotBundle y sl other ce 6) ∧ (y = true ∨ ∀ p ∈ (yMove s e (slotBundle y sl other ce 6)).dw, p.1 ≠ sl.ptr.val * 8 + sl.am.val)) ∧
  (∃ s : State, ∃ e : Fin 16, ∃ y : Bool, ∃ sl : Slot, ∃ other : Slot, ∃ ce : Fin 8, ∃ n : Fin 8, 0 < n.val ∧ n.val < 7 ∧ Fetches s e.val (.std 0 { slotBundle y sl other ce n with ce := 0 }) ∧ ((xMove s e (slotBundle y sl other ce n)).bad = some 1 ∨ (yMove s e (slotBundle y sl other ce n)).bad = some 1)) ∧
  (∃ s : State, ∃ e : Fin 16, ∃ y : Bool, ∃ sl : Slot, ∃ other : Slot, ∃ ce : Fin 8, ∃ n : Fin 8, (n.val = 3 ∨ n.val = 4) ∧ Fetches s e.val (.std 0 { slotBundle y sl other ce n with ce := 0 }) ∧ sl.reg.val % 2 = 1) ∧
  (∃ s : State, ∃ e : Fin 16, ∃ y : Bool, ∃ sl : Slot, ∃ other : Slot, ∃ ce : Fin 8, ∃ n : Fin 8, (n.val = 3 ∨ n.val = 4) ∧ Fetches s e.val (.std 0 { slotBundle y sl other ce n with ce := 0 }) ∧ (xMove s e (slotBundle y sl other ce n)).bad ≠ some 1 ∧ (yMove s e (slotBundle y sl other ce n)).bad ≠ some 1 ∧ moveAddr (ctxOf s e) y sl 2 % 2 = 1) ∧
  (∃ s : State, ∃ e : Fin 16, ∃ y : Bool, ∃ sl : Slot, ∃ other : Slot, ∃ ce : Fin 8, ∃ n : Fin 8, 0 < n.val ∧ n.val < 7 ∧ Fetches s e.val (.std 0 { slotBundle y sl other ce n with ce := 0 }) ∧ (xMove s e (slotBundle y sl other ce n)).bad = none ∧ (yMove s e (slotBundle y sl other ce n)).bad = none ∧ (ctxOf s e).meets y (if y then yMove s e (slotBundle y sl other ce n) else xMove s e (slotBundle y sl other ce n)).touch (if y then yMove s e (slotBundle y sl other ce n) else xMove s e (slotBundle y sl other ce n)).store = true) :=
  ⟨⟨{ up (engine id) with mem := [(0x40f00002, 0x80), (0x40f00003, 0xf), (0x40f00004, 0x2)] }, 15, false, { slot0 with reg := 30, am := 1 }, slot0, 7, by decide⟩,
   ⟨{ up (engine id) with mem := [(0x40f00002, 0x80), (0x40f00003, 0xf), (0x40f00004, 0x4)] }, 15, false, { slot0 with reg := 30, am := 1 }, slot0, 7, by decide⟩,
   ⟨{ up (fun d => storeMark 2 (15 * 40960 + 8192) (engine id d)) with mem := [(0x40f00002, 0x80), (0x40f00003, 0xf), (0x40f00004, 0x4)] }, 15, false, { slot0 with reg := 30, am := 1 }, slot0, 7, by decide⟩,
   ⟨{ up (engine id) with mem := [(0x40f00002, 0x80), (0x40f00003, 0xf), (0x40f00004, 0x6)] }, 15, false, { slot0 with reg := 30, am := 1 }, slot0, 7, by decide⟩,
   ⟨{ up (engine id) with mem := [(0x40f00002, 0x80), (0x40f00003, 0xf), (0x40f00004, 0x8)] }, 15, false, { slot0 with reg := 30, am := 1 }, slot0, 7, by decide⟩,
   ⟨{ up (engine id) with mem := [(0x40f00002, 0x80), (0x40f00003, 0xf), (0x40f00004, 0xa)] }, 15, false, { slot0 with reg := 30, am := 1 }, slot0, 7, by decide⟩,
   ⟨{ up (engine id) with mem := [(0x40f00000, 0xf0), (0x40f00001, 0x3f), (0x40f00002, 0x3)] }, 15, true, { slot0 with reg := 31, ptr := 3, am := 7 }, slot0, 0, by decide⟩,
   ⟨{ up (engine id) with mem := [(0x40f00003, 0x38), (0x40f00004, 0x2)] }, 15, false, { slot0 with am := 7 }, slot0, 0, 1, by decide⟩,
   ⟨{ up (engine id) with mem := [(0x40f00002, 0xc0), (0x40f00003, 0x7), (0x40f00004, 0x6)] }, 15, false, { slot0 with reg := 31 }, slot0, 0, 3, by decide⟩,
   ⟨{ up (engine (fun k => k.onCtx (fun c => c.setP 8 32767))) with mem := [(0x40f00000, 0xe0), (0x40f00001, 0x1), (0x40f00002, 0x2)] }, 15, true, { slot0 with reg := 30 }, slot0, 0, 4, by decide⟩,
   ⟨{ up (engine (busy ⟨1, false, 0, 1, 0x20000000, false, [], 0⟩)) with mem := [(0x40f00004, 0x4)] }, 15, false, slot0, slot0, 0, 2, by decide⟩⟩

theorem witness_VirifImmediate :
  (∃ s : State, ∃ e : Fin 16, ∃ r : Imm, IssuesImm 0 s e.val r) ∧
  (∃ s : State, ∃ e : Fin 16, ∃ r : Imm, IssuesImm 1 s e.val r) ∧
  (∃ s : State, ∃ e : Fin 16, ∃ r : Imm, IssuesImm 2 s e.val r) ∧
  (∃ s : State, ∃ e : Fin 16, ∃ r : Imm, IssuesImm 3 s e.val r) ∧
  (∃ s : State, ∃ e : Fin 16, ∃ r : Imm, IssuesImm 4 s e.val r) ∧
  (∃ s : State, ∃ e : Fin 16, ∃ r : Imm, IssuesImm 5 s e.val r) ∧
  (∃ s : State, ∃ e : Fin 16, ∃ r : Imm, IssuesImm 6 s e.val r) ∧
  (∃ s : State, ∃ e : Fin 16, ∃ r : Imm, IssuesImm 7 s e.val r) :=
  ⟨⟨{ up (engine id) with mem := [(0x40f00000, 0xff), (0x40f00001, 0xff), (0x40f00002, 0xff), (0x40f00003, 0xff), (0x40f00005, 0xc0), (0x40f00006, 0xff), (0x40f00007, 0x40)] }, 15, imm0, by decide⟩,
   ⟨{ up (engine id) with mem := [(0x40f00000, 0xff), (0x40f00001, 0xff), (0x40f00002, 0xff), (0x40f00003, 0xff), (0x40f00005, 0xc0), (0x40f00006, 0xff), (0x40f00007, 0x41)] }, 15, imm0, by decide⟩,
   ⟨{ up (engine id) with mem := [(0x40f00000, 0xff), (0x40f00001, 0xff), (0x40f00002, 0xff), (0x40f00003, 0xff), (0x40f00005, 0xc0), (0x40f00006, 0xff), (0x40f00007, 0x42)] }, 15, imm0, by decide⟩,
   ⟨{ up (engine id) with mem := [(0x40f00000, 0xff), (0x40f00001, 0xff), (0x40f00002, 0xff), (0x40f00003, 0xff), (0x40f00005, 0xc0), (0x40f00006, 0xff), (0x40f00007, 0x43)] }, 15, imm0, by decide⟩,
   ⟨{ up (engine id) with mem := [(0x40f00000, 0xff), (0x40f00001, 0xff), (0x40f00002, 0xff), (0x40f00003, 0xff), (0x40f00005, 0xc0), (0x40f00006, 0xff), (0x40f00007, 0x44)] }, 15, imm0, by decide⟩,
   ⟨{ up (engine id) with mem := [(0x40f00000, 0xff), (0x40f00001, 0xff), (0x40f00002, 0xff), (0x40f00003, 0xff), (0x40f00005, 0xc0), (0x40f00006, 0xff), (0x40f00007, 0x45)] }, 15, imm0, by decide⟩,
   ⟨{ up (engine id) with mem := [(0x40f00000, 0xff), (0x40f00001, 0xff), (0x40f00002, 0xff), (0x40f00003, 0xff), (0x40f00005, 0xc0), (0x40f00006, 0xff), (0x40f00007, 0x46)] }, 15, imm0, by decide⟩,
   ⟨{ up (engine id) with mem := [(0x40f00000, 0xff), (0x40f00001, 0xff), (0x40f00002, 0xff), (0x40f00003, 0xff), (0x40f00005, 0xc0), (0x40f00006, 0xff), (0x40f00007, 0x47)] }, 15, imm0, by decide⟩⟩

theorem witness_VirifControl :
  (∃ s : State, ∃ e : Fin 16, ∃ c : Ctl, IssuesCtl 0x00 s e.val c) ∧
  (∃ s : State, ∃ e : Fin 16, ∃ c : Ctl, Awake s ∧ s.dev.issues e.val = true ∧ s.dev.fetches s.mem e.val (.ctl 0 { c with ce := 0 }) = true ∧ c.rsv.val = 0 ∧ (ctxOf s e).pc = 8191 ∧ (ctxOf s e).loops = []) ∧
  (∃ s : State, ∃ e : Fin 16, ∃ c : Ctl, Fetches s e.val (.ctl 0 { c with ce := 0 }) ∧ c.rsv.val ≠ 0) ∧
  (∃ s : State, ∃ e : Fin 16, ∃ c : Ctl, IssuesCtl 0x01 s e.val c ∧ (ctxOf s e).cond c.cond.val = true) ∧
  (∃ s : State, ∃ e : Fin 16, ∃ c : Ctl, IssuesCtl 0x01 s e.val c ∧ (ctxOf s e).cond c.cond.val = false) ∧
  (∃ s : State, ∃ e : Fin 16, ∃ c : Ctl, IssuesCtl 0x02 s e.val c ∧ (ctxOf s e).cond c.cond.val = true ∧ (ctxOf s e).calls.length < 8) ∧
  (∃ s : State, ∃ e : Fin 16, ∃ c : Ctl, IssuesCtl 0x02 s e.val c ∧ (ctxOf s e).cond c.cond.val = false) ∧
  (∃ s : State, ∃ e : Fin 16, ∃ c : Ctl, ∃ r : Nat, ∃ rest : List Nat, IssuesCtl 0x03 s e.val c ∧ (ctxOf s e).cond c.cond.val = true ∧ (ctxOf s e).calls = r :: rest) ∧
  (∃ s : State, ∃ e : Fin 16, ∃ c : Ctl, IssuesCtl 0x03 s e.val c ∧ (ctxOf s e).cond c.cond.val = false) ∧
  (∃ s : State, ∃ e : Fin 16, ∃ c : Ctl, IssuesCtl 0x04 s e.val c ∧ (ctxOf s e).pc < c.target.val ∧ (ctxOf s e).loops.length < 4) ∧
  (∃ s : State, ∃ e : Fin 16, ∃ c : Ctl, IssuesCtl 0x05 s e.val c ∧ (ctxOf s e).pc < c.target.val ∧ (ctxOf s e).loops.length < 4 ∧ bits ((ctxOf s e).dr c.reg.val) 0 17 ≠ 0) ∧
  (∃ s : State, ∃ e : Fin 16, ∃ c : Ctl, IssuesCtl 0x05 s e.val c ∧ (ctxOf s e).pc < c.target.val ∧ c.target.val < 8191 ∧ (ctxOf s e).loops.length < 4 ∧ bits ((ctxOf s e).dr c.reg.val) 0 17 = 0) ∧
  (∃ s : State, ∃ e : Fin 16, ∃ c : Ctl, IssuesCtl 0x06 s e.val c) ∧
  (∃ s : State, ∃ e : Fin 16, ∃ c : Ctl, IssuesCtl 0x07 s e.val c) ∧
  (∃ s : State, ∃ e : Fin 16, ∃ c : Ctl, IssuesCtl 0x08 s e.val c) ∧
  (∃ s : State, ∃ e : Fin 16, ∃ c : Ctl, IssuesCtl 0x0A s e.val c ∧ (ctxOf s e).busyIn (c.count.val % 16) = true) ∧
  (∃ s : State, ∃ e : Fin 16, ∃ c : Ctl, IssuesCtl 0x0A s e.val c ∧ (ctxOf s e).busyIn (c.count.val % 16) = false) ∧
  (∃ s : State, ∃ e : Fin 16, ∃ c : Ctl, IssuesCtl 0x0B s e.val c ∧ s.dev.inMode mInspection = true ∧ s.dev.fb F.STATUS_SEC_ATTACH = true ∧ s.dev.level = 3) ∧
  (∃ s : State, ∃ e : Fin 16, ∃ c : Ctl, IssuesCtl 0x0B s e.val c ∧ (s.dev.inMode mInspection = false ∨ s.dev.fb F.STATUS_SEC_ATTACH = false ∨ s.dev.level ≠ 3)) ∧
  (∃ s : State, ∃ e : Fin 16, ∃ c : Ctl, IssuesCtl 0x02 s e.val c ∧ (ctxOf s e).cond c.cond.val = true ∧ 8 ≤ (ctxOf s e).calls.length) ∧
  (∃ s : State, ∃ e : Fin 16, ∃ c : Ctl, IssuesCtl 0x03 s e.val c ∧ (ctxOf s e).cond c.cond.val = true ∧ (ctxOf s e).calls = []) ∧
  (∃ s : State, ∃ e : Fin 16, ∃ c : Ctl, IssuesCtl 0x04 s e.val c ∧ (ctxOf s e).pc < c.target.val ∧ 4 ≤ (ctxOf s e).loops.length) ∧
  (∃ s : State, ∃ e : Fin 16, ∃ c : Ctl, IssuesCtl 0x04 s e.val c ∧ c.target.val ≤ (ctxOf s e).pc) :=
  ⟨⟨{ up (engine id) with mem := [(0x40f00000, 0x1), (0x40f00004, 0x1), (0x40f00006, 0x18), (0x40f00007, 0x80)] }, 15, ctl0, by decide⟩,
   ⟨{ up (engine (fun k => k.onCtx (fun c => { c with pc := 8191 }))) with mem := [(0x40f0fff8, 0x1), (0x40f0fffc, 0x1), (0x40f0fffe, 0x18), (0x40f0ffff, 0x80)] }, 15, ctl0, by decide⟩,
   ⟨{ up (engine id) with mem := [(0x40f00000, 0x1), (0x40f00001, 0x20), (0x40f00004, 0x1), (0x40f00006, 0x18), (0x40f00007, 0x80)] }, 15, { ctl0 with rsv := 1 }, by decide⟩,
   ⟨{ up (engine id) with mem := [(0x40f00000, 0x1), (0x40f00004, 0x1), (0x40f00006, 0x18), (0x40f00007, 0x81)] }, 15, ctl0, by decide⟩,
   ⟨{ up (engine id) with mem := [(0x40f00000, 0x1), (0x40f00004, 0x1), (0x40f00006, 0x19), (0x40f00007, 0x81)] }, 15, { ctl0 with cond := 1 }, by decide⟩,
   ⟨{ up (engine (fun k => k.onCtx (fun c => { c with calls := List.replicate 7 0 }))) with mem := [(0x40f00000, 0x1), (0x40f00004, 0x1), (0x40f00006, 0x18), (0x40f00007, 0x82)] }, 15, ctl0, by decide⟩,
   ⟨{ up (engine id) with mem := [(0x40f00000, 0x1), (0x40f00004, 0x1), (0x40f00006, 0x19), (0x40f00007, 0x82)] }, 15, { ctl0 with cond := 1 }, by decide⟩,
   ⟨{ up (engine (fun k => k.onCtx (fun c => { c with calls := [8191] }))) with mem := [(0x40f00000, 0x1), (0x40f00004, 0x1), (0x40f00006, 0x18), (0x40f00007, 0x83)] }, 15, ctl0, 8191, [], by decide⟩,
   ⟨{ up (engine id) with mem := [(0x40f00000, 0x1), (0x40f00004, 0x1), (0x40f00006, 0x19), (0x40f00007, 0x83)] }, 15, { ctl0 with cond := 1 }, by decide⟩,
   ⟨{ up (engine id) with mem := [(0x40f00000, 0xff), (0x40f00001, 0x1f), (0x40f00004, 0x1), (0x40f00006, 0x18), (0x40f00007, 0x84)] }, 15, { ctl0 with target := 8191 }, by decide⟩,
   ⟨{ up (engine (fun k => k.onCtx (fun c => c.setD 3 1))) with mem := [(0x40f00000, 0xff), (0x40f00001, 0x1f), (0x40f00004, 0x1), (0x40f00006, 0x18), (0x40f00007, 0x85)] }, 15, { ctl0 with target := 8191 }, by decide⟩,
   ⟨{ up (engine id) with mem := [(0x40f00000, 0xfe), (0x40f00001, 0x1f), (0x40f00004, 0x1), (0x40f00006, 0x18), (0x40f00007, 0x85)] }, 15, { ctl0 with target := 8190 }, by decide⟩,
   ⟨{ up (engine id) with mem := [(0x40f00000, 0x1), (0x40f00004, 0x1), (0x40f00006, 0x18), (0x40f00007, 0x86)] }, 15, ctl0, by decide⟩,
   ⟨{ up (engine id) with mem := [(0x40f00000, 0x1), (0x40f00004, 0x1), (0x40f00006, 0x18), (0x40f00007, 0x87)] }, 15, ctl0, by decide⟩,
   ⟨{ up (engine id) with mem := [(0x40f00000, 0x1), (0x40f00004, 0x1), (0x40f00006, 0x18), (0x40f00007, 0x88)] }, 15, ctl0, by decide⟩,
   ⟨{ up (engine (busy ⟨0, false, 0, 1, 0x20000000, false, [], 0⟩)) with mem := [(0x40f00000, 0x1), (0x40f00004, 0x8), (0x40f00006, 0x18), (0x40f00007, 0x8a)] }, 15, { ctl0 with count := 8 }, by decide⟩,
   ⟨{ up (engine (busy ⟨0, false, 0, 1, 0x20000000, false, [], 0⟩)) with mem := [(0x40f00000, 0x1), (0x40f00004, 0x7), (0x40f00006, 0x18), (0x40f00007, 0x8a)] }, 15, { ctl0 with count := 7 }, by decide⟩,
   ⟨{ up (fun d => (((engine id d).setF F.STATUS_SYS_MODE 5).setF F.STATUS_SEC_UNLOCKED 1).setF F.STATUS_SEC_ATTACH 1) with mem := [(0x40f00000, 0x1), (0x40f00004, 0x1), (0x40f00006, 0x18), (0x40f00007, 0x8b)] }, 15, ctl0, by decide⟩,
   ⟨{ up (engine id) with mem := [(0x40f00000, 0x1), (0x40f00004, 0x1), (0x40f00006, 0x18), (0x40f00007, 0x8b)] }, 15, ctl0, by decide⟩,
   ⟨{ up (engine (fun k => k.onCtx (fun c => { c with calls := List.replicate 8 0 }))) with mem := [(0x40f00000, 0x1), (0x40f00004, 0x1), (0x40f00006, 0x18), (0x40f00007, 0x82)] }, 15, ctl0, by decide⟩,
   ⟨{ up (engine id) with mem := [(0x40f00000, 0x1), (0x40f00004, 0x1), (0x40f00006, 0x18), (0x40f00007, 0x83)] }, 15, ctl0, by decide⟩,
   ⟨{ up (engine (fun k => k.onCtx (fun c => { c with loops := List.replicate 4 ⟨8000, 8001, 5⟩ }))) with mem := [(0x40f00000, 0x1), (0x40f00004, 0x1), (0x40f00006, 0x18), (0x40f00007, 0x84)] }, 15, ctl0, by decide⟩,
   ⟨{ up (engine id) with mem := [(0x40f00004, 0x1), (0x40f00006, 0x18), (0x40f00007, 0x84)] }, 15, { ctl0 with target := 0 }, by decide⟩⟩

theorem witness_VirifTransfers :
  (∃ s : State, ∃ e : Fin 16, ∃ c : Ctl, IssuesCtl 0x09 s e.val c ∧ CanXfer s e (c.reg.val % 4)) ∧
  (∃ s : State, ∃ e : Fin 16, ∃ c : Ctl, IssuesCtl 0x09 s e.val c ∧ ((ctxOf s e).chan (c.reg.val % 4)).kind < 2 ∧ bits ((ctxOf s e).chan (c.reg.val % 4)).ctl 0 16 = 0 ∧ ((ctxOf s e).chan (c.reg.val % 4)).act = none) ∧
  (∃ s : State, ∃ e : Fin 16, ∃ c : Ctl, ∃ sl : QSlot, ∃ rest : List QSlot, IssuesCtl 0x09 s e.val c ∧ CanQueue s e (c.reg.val % 4) 2 ∧ s.dev.q.slotsOf ((ctxOf s e).chan (c.reg.val % 4)).qid = sl :: rest) ∧
  (∃ s : State, ∃ e : Fin 16, ∃ c : Ctl, IssuesCtl 0x09 s e.val c ∧ CanQueue s e (c.reg.val % 4) 2 ∧ s.dev.q.slotsOf ((ctxOf s e).chan (c.reg.val % 4)).qid = []) ∧
  (∃ s : State, ∃ e : Fin 16, ∃ c : Ctl, IssuesCtl 0x09 s e.val c ∧ CanQueue s e (c.reg.val % 4) 3) ∧
  (∃ s : State, ∃ e : Fin 16, ∃ c : Ctl, IssuesCtl 0x09 s e.val c ∧ 2 ≤ ((ctxOf s e).chan (c.reg.val % 4)).kind ∧ bound (ctxOf s e).run.qb (((ctxOf s e).chan (c.reg.val % 4)).kind == 3) ((ctxOf s e).chan (c.reg.val % 4)).qid = false) ∧
  (∃ s : State, ∃ e : Fin 16, ∃ c : Ctl, IssuesCtl 0x09 s e.val c ∧ ((ctxOf s e).chan (c.reg.val % 4)).kind < 2 ∧ 32768 < bits ((ctxOf s e).chan (c.reg.val % 4)).loc 0 15 + bits ((ctxOf s e).chan (c.reg.val % 4)).ctl 0 16 ∧ 0 < bits ((ctxOf s e).chan (c.reg.val % 4)).ctl 0 16) ∧
  (∃ s : State, ∃ e : Fin 16, ∃ c : Ctl, IssuesCtl 0x09 s e.val c ∧ ((ctxOf s e).chan (c.reg.val % 4)).kind < 2 ∧ 0 < bits ((ctxOf s e).chan (c.reg.val % 4)).ctl 0 16 ∧ bits ((ctxOf s e).chan (c.reg.val % 4)).loc 0 15 + bits ((ctxOf s e).chan (c.reg.val % 4)).ctl 0 16 ≤ 32768 ∧ (ctxOf s e).xgoWaits (c.reg.val % 4) (bit ((ctxOf s e).chan (c.reg.val % 4)).loc 15) (bits ((ctxOf s e).chan (c.reg.val % 4)).loc 0 15) (bits ((ctxOf s e).chan (c.reg.val % 4)).ctl 0 16) = false ∧ s.dev.extOk (pair ((ctxOf s e).chan (c.reg.val % 4)).extLo ((ctxOf s e).chan (c.reg.val % 4)).extHi / 4 * 4) (bits ((ctxOf s e).chan (c.reg.val % 4)).ctl 0 16) = false) ∧
  (∃ s : State, ∃ e : Fin 16, ∃ c : Ctl, IssuesCtl 0x09 s e.val c ∧ ((ctxOf s e).chan (c.reg.val % 4)).kind < 2 ∧ bits ((ctxOf s e).chan (c.reg.val % 4)).loc 0 15 + bits ((ctxOf s e).chan (c.reg.val % 4)).ctl 0 16 ≤ 32768 ∧ (ctxOf s e).xgoWaits (c.reg.val % 4) (bit ((ctxOf s e).chan (c.reg.val % 4)).loc 15) (bits ((ctxOf s e).chan (c.reg.val % 4)).loc 0 15) (bits ((ctxOf s e).chan (c.reg.val % 4)).ctl 0 16) = true) ∧
  (∃ s : State, ∃ e : Fin 16, ∃ k : Fin 4, Awake s ∧ (s.dev.eng e).wait = .xgo k.val ∧ (ctxOf s e).pc < 8191 ∧ CanXfer s e k) ∧
  (∃ s : State, ∃ e : Fin 16, ∃ k : Fin 4, ∃ ecc : List EccHit, ∃ x : Xfer, Moves s e k x ∧ x.kind = 0 ∧ s.dev.reach 4 x.ext (4 * x.n) = true ∧ AllGood s ecc x.ext (4 * x.n) ∧ AllGood s ecc (localAddr e x.y x.word) (4 * x.n)) ∧
  (∃ s : State, ∃ e : Fin 16, ∃ k : Fin 4, ∃ ecc : List EccHit, ∃ x : Xfer, Moves s e k x ∧ x.kind = 1 ∧ s.dev.reach 4 x.ext (4 * x.n) = true ∧ AllGood s ecc x.ext (4 * x.n) ∧ AllGood s ecc (localAddr e x.y x.word) (4 * x.n) ∧ s.dev.mirrorHeld (some (.virif e)) x.ext (4 * x.n) = false) ∧
  (∃ s : State, ∃ e : Fin 16, ∃ k : Fin 4, ∃ ecc : List EccHit, ∃ x : Xfer, Moves s e k x ∧ x.kind = 2 ∧ AllGood s ecc (localAddr e x.y x.word) (4 * x.n) ∧ x.data.length = x.n) ∧
  (∃ s : State, ∃ e : Fin 16, ∃ k : Fin 4, ∃ ecc : List EccHit, ∃ x : Xfer, Moves s e k x ∧ x.kind = 3 ∧ AllGood s ecc (localAddr e x.y x.word) (4 * x.n) ∧ 0 < (s.dev.q.get x.ext).f) ∧
  (∃ s : State, ∃ e : Fin 16, ∃ k : Fin 4, ∃ ecc : List EccHit, ∃ x : Xfer, Moves s e k x ∧ x.kind < 2 ∧ s.dev.reach 4 x.ext (4 * x.n) = true ∧ (s.dev.eng e).fault = none ∧ ¬ AllGood s ecc (if x.kind = 0 then x.ext else localAddr e x.y x.word) (4 * x.n)) ∧
  (∃ s : State, ∃ e : Fin 16, ∃ k : Fin 4, ∃ ecc : List EccHit, ∃ x : Xfer, Moves s e k x ∧ x.kind = 1 ∧ s.dev.reach 4 x.ext (4 * x.n) = true ∧ (s.dev.eng e).fault = none ∧ AllGood s ecc (localAddr e x.y x.word) (4 * x.n) ∧ s.dev.mirrorHeld (some (.virif e)) x.ext (4 * x.n) = true) ∧
  (∃ s : State, ∃ e : Fin 16, ∃ k : Fin 4, ∃ x : Xfer, Moves s e k x ∧ x.kind < 2 ∧ s.dev.reach 4 x.ext (4 * x.n) = false) ∧
  (∃ s : State, ∃ e : Fin 16, ∃ k : Fin 4, ∃ x : Xfer, Awake s ∧ ((ctxOf s e).chan k).act = some x ∧ x.tick = false ∧ x.kind < 2 ∧ (s.dev.eng e).fault = none) ∧
  (∃ s : State, ∃ e : Fin 16, ∃ k : Fin 4, ∃ x : Xfer, Awake s ∧ ((ctxOf s e).chan k).act = some x ∧ x.tick = true ∧ 0 < (s.dev.q.get x.ext).h) ∧
  (∃ s : State, ∃ e : Fin 16, Awake s ∧ (s.dev.eng e).run = true ∧ (ctxOf s e).prot = true) ∧
  (∃ s : State, ∃ m : Agent, ∃ v : Word, Serves s m ∧ bit v 0 = true) :=
  ⟨⟨{ up (engine (fun k => k.onCtx (fun c => { c with run := { c.run with qb := 0x000000FF }, ch := [(3, { c.chan 3 with ctl := 1, extLo := 0x20000000, loc := 0xFFFF })] }))) with mem := [(0x40f00000, 0x1), (0x40f00004, 0x1), (0x40f00006, 0x18), (0x40f00007, 0x89)] }, 15, ctl0, by decide⟩,
   ⟨{ up (engine (fun k => k.onCtx (fun c => { c with run := { c.run with qb := 0x000000FF }, ch := [(3, { c.chan 3 with ctl := 0, extLo := 0x20000000, loc := 0xFFFF })] }))) with mem := [(0x40f00000, 0x1), (0x40f00004, 0x1), (0x40f00006, 0x18), (0x40f00007, 0x89)] }, 15, ctl0, by decide⟩,
   ⟨{ up (fun d => (fun d => ticket 383 ⟨2, 1, 0, 1, 0⟩ ((engine (fun k => k.onCtx (fun c => { c with run := { c.run with qb := 0xBF }, ch := [(3, { c.chan 3 with ctl := 0x20000000, extLo := 383, loc := 0 })] }))) { d with vf := { d.vf with gslot := [(63, 2)] } })) d |>.onQ (fun q => q.setSlots 383 [⟨5, chunk32 [7, 8] 2⟩])) with mem := [(0x40f00000, 0x1), (0x40f00004, 0x1), (0x40f00006, 0x18), (0x40f00007, 0x89)] }, 15, ctl0, ⟨5, chunk32 [7, 8] 2⟩, [], by decide⟩,
   ⟨{ up (fun d => ticket 383 ⟨2, 2, 0, 0, 0⟩ ((engine (fun k => k.onCtx (fun c => { c with run := { c.run with qb := 0xBF }, ch := [(3, { c.chan 3 with ctl := 0x20000000, extLo := 383, loc := 0 })] }))) { d with vf := { d.vf with gslot := [(63, 2)] } })) with mem := [(0x40f00000, 0x1), (0x40f00004, 0x1), (0x40f00006, 0x18), (0x40f00007, 0x89)] }, 15, ctl0, by decide⟩,
   ⟨{ up (fun d => ticket 383 ⟨2, 2, 0, 0, 0⟩ ((engine (fun k => k.onCtx (fun c => { c with run := { c.run with qb := 0xFF }, ch := [(3, { c.chan 3 with ctl := 0x30000000, extLo := 383, loc := 0 })] }))) { d with vf := { d.vf with gslot := [(63, 2)] } })) with mem := [(0x40f00000, 0x1), (0x40f00004, 0x1), (0x40f00006, 0x18), (0x40f00007, 0x89)] }, 15, ctl0, by decide⟩,
   ⟨{ up (engine (fun k => k.onCtx (fun c => { c with run := { c.run with qb := 0x000000FF }, ch := [(3, { c.chan 3 with ctl := 0x20000000, extLo := 320, loc := 0 })] }))) with mem := [(0x40f00000, 0x1), (0x40f00004, 0x1), (0x40f00006, 0x18), (0x40f00007, 0x89)] }, 15, ctl0, by decide⟩,
   ⟨{ up (engine (fun k => k.onCtx (fun c => { c with run := { c.run with qb := 0x000000FF }, ch := [(3, { c.chan 3 with ctl := 2, extLo := 0x20000000, loc := 0xFFFF })] }))) with mem := [(0x40f00000, 0x1), (0x40f00004, 0x1), (0x40f00006, 0x18), (0x40f00007, 0x89)] }, 15, ctl0, by decide⟩,
   ⟨{ up (engine (fun k => k.onCtx (fun c => { c with run := { c.run with qb := 0x000000FF }, ch := [(3, { c.chan 3 with ctl := 1, extLo := 0x10400000, loc := 0xFFFF })] }))) with mem := [(0x40f00000, 0x1), (0x40f00004, 0x1), (0x40f00006, 0x18), (0x40f00007, 0x89)] }, 15, ctl0, by decide⟩,
   ⟨{ up (engine (fun k => k.onCtx (fun c => { c with ch := [(3, { c.chan 3 with ctl := 1, extLo := 0x20000000, loc := 0xFFFF, act := some ⟨0, true, 32767, 1, 0x20000000, false, [], 0⟩ })] }))) with mem := [(0x40f00000, 0x1), (0x40f00004, 0x1), (0x40f00006, 0x18), (0x40f00007, 0x89)] }, 15, ctl0, by decide⟩,
   ⟨up (fun d => (engine (fun k => k.onCtx (fun c => { c with run := { c.run with qb := 0x000000FF }, ch := [(3, { c.chan 3 with ctl := 1, extLo := 0x20000000, loc := 0xFFFF })] })) d).onEng 15 (fun k => { k with wait := .xgo 3 })), 15, 3, by decide⟩,
   ⟨up (engine (busy ⟨0, true, 32767, 1, 0x20000000, false, [], 0⟩)), 15, 3, [], ⟨0, true, 32767, 1, 0x20000000, false, [], 0⟩, by decide⟩,
   ⟨up (engine (busy ⟨1, true, 32767, 1, 0x20000000, false, [], 0⟩)), 15, 3, [], ⟨1, true, 32767, 1, 0x20000000, false, [], 0⟩, by decide⟩,
   ⟨up (engine (busy ⟨2, true, 32766, 2, 383, false, [5, 6], 0⟩)), 15, 3, [], ⟨2, true, 32766, 2, 383, false, [5, 6], 0⟩, by decide⟩,
   ⟨up (fun d => ticket 383 ⟨2, 1, 1, 0, 0⟩ (engine (busy ⟨3, true, 0, 1, 383, false, [], 0⟩) d)), 15, 3, [], ⟨3, true, 0, 1, 383, false, [], 0⟩, by decide⟩,
   ⟨up (fun d => storeMark 0 0 (engine (busy ⟨0, true, 32767, 1, 0x20000000, false, [], 0⟩) d)), 15, 3, [], ⟨0, true, 32767, 1, 0x20000000, false, [], 0⟩, by decide⟩,
   ⟨up (fun d => twin twStandby id (engine (busy ⟨1, true, 32767, 1, 0x20000000, false, [], 0⟩) { d with cs := { d.cs with windows := [(0x20000000, 4)] } })), 15, 3, [], ⟨1, true, 32767, 1, 0x20000000, false, [], 0⟩, by decide⟩,
   ⟨up (fun d => (engine (busy ⟨1, true, 32767, 1, 0x20000000, false, [], 0⟩) d).onMs (fun x => { x with locks := [(0, 5)] })), 15, 3, ⟨1, true, 32767, 1, 0x20000000, false, [], 0⟩, by decide⟩,
   ⟨up (engine (busy ⟨1, true, 32767, 1, 0x20000000, false, [], 0⟩)), 15, 3, ⟨1, true, 32767, 1, 0x20000000, false, [], 0⟩, by decide⟩,
   ⟨up (fun d => ticket 383 ⟨2, 1, 0, 1, 0⟩ (engine (busy ⟨3, true, 0, 1, 383, true, [], 0⟩) d)), 15, 3, ⟨3, true, 0, 1, 383, true, [], 0⟩, by decide⟩,
   ⟨up (engine (fun k => k.onCtx (fun c => { c with prot := true }))), 15, by decide⟩,
   ⟨up id, .pcie, 1, by decide⟩⟩

theorem witness_VirifItems :
  (∃ s : State, ∃ e : Fin 16, Awake s ∧ (s.dev.eng e).run = true ∧ (s.dev.eng e).wait = .starting) ∧
  (∃ s : State, ∃ e : Fin 16, Awake s ∧ (s.dev.eng e).run = true ∧ (s.dev.eng e).wait = .ending ∧ (s.dev.eng e).fault = none ∧ (ctxOf s e).anyBusy = false ∧ (s.dev.eng e).next = none ∧ (s.dev.eng e).saved = []) ∧
  (∃ s : State, ∃ e : Fin 16, ∃ r : ERun, Awake s ∧ (s.dev.eng e).run = true ∧ (s.dev.eng e).wait = .ending ∧ (s.dev.eng e).fault = none ∧ (ctxOf s e).anyBusy = false ∧ (s.dev.eng e).next = some r) ∧
  (∃ s : State, ∃ e : Fin 16, ∃ c : Ctx, ∃ rest : List Ctx, Awake s ∧ (s.dev.eng e).run = true ∧ (s.dev.eng e).wait = .ending ∧ (s.dev.eng e).fault = none ∧ (ctxOf s e).anyBusy = false ∧ (s.dev.eng e).next = none ∧ (s.dev.eng e).saved = c :: rest) ∧
  (∃ s : State, ∃ e : Fin 16, ∃ cause, ∃ pc, Awake s ∧ (s.dev.eng e).fault = some (cause, pc) ∧ (s.dev.eng e).run = true ∧ (ctxOf s e).moving = false ∧ (s.dev.eng e).next = none ∧ (s.dev.eng e).saved = []) ∧
  (∃ s : State, ∃ e : Fin 16, ∃ ecc : Option Nat, Awake s ∧ s.dev.issues e = true ∧ (s.dev.eng e).next = none ∧ (s.dev.eng e).saved = [] ∧ (ctxOf s e).moving = false ∧ (ecc.isSome = true ∨ s.dev.badWord (bundleAddr e (ctxOf s e).pc) = true ∨ bundleAt s.mem e (ctxOf s e).pc = .illegal)) ∧
  (∃ s : State, ∃ e : Fin 16, Awake s ∧ s.dev.issues e = true ∧ (s.dev.eng e).next.isSome = true ∧ (ctxOf s e).prot = false) ∧
  (∃ s : State, ∃ e : Fin 16, ∃ r : ERun, Awake s ∧ (s.dev.eng e).next = some r ∧ (s.dev.eng e).wait = .saving ∧ (ctxOf s e).moving = false ∧ (s.dev.eng e).fault = none) ∧
  (∃ s : State, ∃ e : Fin 16, Awake s ∧ (s.dev.eng e).wait = .restoring) :=
  ⟨⟨up (engine (fun k => { k with wait := .starting })), 15, by decide⟩,
   ⟨up (engine (fun k => { k with wait := .ending })), 15, by decide⟩,
   ⟨up (engine (fun k => { k with wait := .ending, next := some ⟨7, 1, false, 1, 2, 5, 0, 9⟩, saved := [k.ctx] })), 15, ⟨7, 1, false, 1, 2, 5, 0, 9⟩, by decide⟩,
   ⟨up (engine (fun k => { k with wait := .ending, saved := [Ctx.start ⟨7, 1, false, 1, 2, 5, 0, 9⟩] })), 15, Ctx.start ⟨7, 1, false, 1, 2, 5, 0, 9⟩, [], by decide⟩,
   ⟨up (engine (fun k => { k with fault := some (5, 8191) })), 15, 5, 8191, by decide⟩,
   ⟨{ up (engine id) with mem := [(0x40f00007, 0xc0)] }, 15, none, by decide⟩,
   ⟨up (engine (fun k => { k with next := some .none })), 15, by decide⟩,
   ⟨up (engine (fun k => { k with next := some .none, wait := .saving })), 15, .none, by decide⟩,
   ⟨up (engine (fun k => { k with wait := .restoring })), 15, by decide⟩⟩

theorem witness_SboxComplete :
  (∃ s : State, ∃ cyc : Nat, ∃ b : Nat, ∃ j : Nat, ∃ rest : List (Nat × Nat), ∃ i : Inst, ∃ e : Nat, ∃ pre : Bool, Awake s ∧ (sbUpTo cyc s.dev).sb.scan = (b, j) :: rest ∧ (sbUpTo cyc s.dev).sb.inst b = some i ∧ (i.run j).st = .ready ∧ (sbUpTo cyc s.dev).pickEngine (((sbUpTo cyc s.dev).sb.instGraph i).item j) = some (e, pre)) ∧
  (∃ s : State, ∃ j : Nat, ∃ cyc : Nat, ∃ i : Inst, Awake s ∧ stageOf s j cyc = some i ∧ (((sbBefore cyc s.dev).sb.instGraph i).item j).kind = 1 ∧ (sbBefore cyc s.dev).crm.rend = none ∧ i.blk < (sbBefore cyc s.dev).crm.begun) ∧
  (∃ s : State, ∃ j : Nat, ∃ cyc : Nat, ∃ i : Inst, ∃ c : Nat, Awake s ∧ stageOf s j cyc = some i ∧ (((sbBefore cyc s.dev).sb.instGraph i).item j).kind = 2 ∧ (sbBefore cyc s.dev).cce.blk = some c ∧ (i.blk < c ∨ (i.blk = c ∧ (sbBefore cyc s.dev).crm.nout ≤ (sbBefore cyc s.dev).cce.done.length))) ∧
  (∃ s : State, ∃ j : Nat, ∃ cyc : Nat, ∃ i : Inst, Awake s ∧ (sbBefore cyc s.dev).sb.insts.reverse.find? (fun i => (i.run j).rel && !(sbBefore cyc s.dev).sb.rels.any (fun e => e.2 == (i.blk, j))) = some i) ∧
  (∃ s : State, ∃ cyc : Nat, ∃ c : Nat, ∃ b : Nat, ∃ j : Nat, ∃ i : Inst, Awake s ∧ s.dev.sb.decs = [] ∧ s.dev.sb.rels = [(c, b, j)] ∧ c ≤ cyc ∧ s.dev.sb.insts.all (fun i => !i.audit) = true ∧ s.dev.sb.inst b = some i ∧ j < i.runs.length ∧ j < 4096 ∧ (i.run j).st = .delayed ∧ (i.run j).cnt = 0) ∧
  (∃ s : State, ∃ cyc : Nat, ∃ c : Nat, ∃ b : Nat, ∃ j : Nat, ∃ i : Inst, Awake s ∧ s.dev.sb.rels = [] ∧ s.dev.sb.decs = [⟨c, b, [j]⟩] ∧ c ≤ cyc ∧ s.dev.sb.insts.all (fun i => !i.audit) = true ∧ s.dev.sb.inst b = some i ∧ j < i.runs.length ∧ j < 4096 ∧ (i.run j).st = .waiting ∧ (i.run j).cnt ≠ 0) ∧
  (∃ s : State, ∃ j : Nat, ∃ cyc : Nat, ∃ i : Inst, Awake s ∧ (sbUpTo cyc s.dev).sb.insts.reverse.find? (fun i => (i.run j).dl) = some i ∧ (i.run j).st ≠ .done ∧ (i.run j).st ≠ .aborted ∧ j < i.runs.length) ∧
  (∃ s : State, ∃ cyc : Nat, ∃ i : Inst, Awake s ∧ (sbUpTo cyc s.dev).sb.insts.reverse.find? (fun i => i.audit) = some i ∧ (∀ j, j < i.runs.length → (i.run j).cnt = 0 ∧ (i.run j).bad = false)) ∧
  (∃ s : State, ∃ cyc : Nat, ∃ i : Inst, ∃ j : Nat, Awake s ∧ (sbUpTo cyc s.dev).sb.insts.reverse.find? (fun i => i.audit) = some i ∧ j < i.runs.length ∧ (i.run j).cnt ≠ 0) ∧
  (∃ s : State, ∃ m : Agent, ∃ v : Word, Serves s m ∧ s.dev.twCopy = false ∧ bit v 0 = true ∧ s.dev.sb.ld = none) ∧
  (∃ s : State, Awake s ∧ s.dev.sb.ld = some true ∧ s.dev.sb.oldBusy = false) ∧
  (∃ s : State, ∃ ecc : List EccHit, ∃ g : Graph, GldReady s ∧ gldImage s ecc = .inr g) ∧
  (∃ s : State, ∃ ecc : List EccHit, ∃ c : Nat × Nat, GldReady s ∧ gldImage s ecc = .inl c) ∧
  (∃ s : State, ∃ m : Agent, ∃ v : Word, Serves s m ∧ s.dev.twCopy = false ∧ bit v 0 = true ∧ (s.dev.sb.nextOk = true ∨ s.dev.sb.ld.isSome = true)) ∧
  (∃ s : State, ∃ m : Agent, ∃ v : Word, Serves s m ∧ s.dev.twCopy = false ∧ bit v 0 = true ∧ s.dev.sb.nextOk = false ∧ s.dev.sb.ld = none) ∧
  (∃ s : State, ∃ m : Agent, ∃ v : Word, Serves s m ∧ s.dev.twCopy = false ∧ bit v 2 = true) ∧
  (∃ s : State, ∃ m : Agent, Serves s m) ∧
  (∃ s : State, ∃ m : Agent, ∃ v : Word, ∃ r, Serves s m ∧ bit v 0 = true ∧ r ∈ sbCounters) :=
  ⟨⟨up (fun d => d.onSb (fun s => { s with gA := ⟨[⟨0, 0xFFFF, 0, 0, 0, 0, 0, 0⟩], []⟩, insts := [⟨5, false, 0, [⟨0, .ready, false, false, false, false, false⟩], false, false, false⟩], plats := [(0, [(5, 0)])] })), 9, 5, 0, [], ⟨5, false, 0, [⟨0, .ready, false, false, false, false, false⟩], false, false, false⟩, 0, false, by decide⟩,
   ⟨up (fun d => (d.onCrm (fun c => { c with begun := 6 })).onSb (fun s => { s with gA := ⟨[⟨0x20000000, 0, 0, 0, 0, 0, 0, 0⟩], []⟩, insts := [⟨5, false, 0, [⟨0, .running, false, false, false, false, false⟩], false, false, false⟩] })), 0, 9, ⟨5, false, 0, [⟨0, .running, false, false, false, false, false⟩], false, false, false⟩, by decide⟩,
   ⟨up (fun d => (d.onCce (fun c => { c with blk := some 5 })).onSb (fun s => { s with gA := ⟨[⟨0x40000000, 0, 0, 0, 0, 0, 0, 0⟩], []⟩, insts := [⟨5, false, 0, [⟨0, .running, false, false, false, false, false⟩], false, false, false⟩] })), 0, 9, ⟨5, false, 0, [⟨0, .running, false, false, false, false, false⟩], false, false, false⟩, 5, by decide⟩,
   ⟨up (fun d => d.onSb (fun s => { s with gA := ⟨[⟨0, 0xFFFF, 0, 0, 0, 0, 0, 0⟩], []⟩, insts := [⟨5, false, 0, [⟨0, .delayed, false, false, false, true, false⟩], false, false, false⟩] })), 0, 9, ⟨5, false, 0, [⟨0, .delayed, false, false, false, true, false⟩], false, false, false⟩, by decide⟩,
   ⟨up (fun d => d.onSb (fun s => { s with gA := ⟨[⟨0, 0xFFFF, 0, 0, 0, 0, 0, 0⟩], []⟩, insts := [⟨5, false, 0, [⟨0, .delayed, false, false, false, false, false⟩], false, false, false⟩], rels := [(9, 5, 0)] })), 9, 9, 5, 0, ⟨5, false, 0, [⟨0, .delayed, false, false, false, false, false⟩], false, false, false⟩, by decide⟩,
   ⟨up (fun d => d.onSb (fun s => { s with gA := ⟨[⟨0, 0xFFFF, 0, 0, 0, 0, 0, 0⟩], []⟩, insts := [⟨5, false, 0, [⟨1, .waiting, false, false, false, false, false⟩], false, false, false⟩], decs := [⟨9, 5, [0]⟩] })), 9, 9, 5, 0, ⟨5, false, 0, [⟨1, .waiting, false, false, false, false, false⟩], false, false, false⟩, by decide⟩,
   ⟨up (fun d => d.onSb (fun s => { s with gA := ⟨[⟨0, 0xFFFF, 0, 0, 0, 0, 0, 0⟩], []⟩, insts := [⟨5, false, 0, [⟨0, .running, false, false, false, false, true⟩], false, false, false⟩] })), 0, 9, ⟨5, false, 0, [⟨0, .running, false, false, false, false, true⟩], false, false, false⟩, by decide⟩,
   ⟨up (fun d => d.onSb (fun s => { s with gA := ⟨[⟨0, 0xFFFF, 0, 0, 0, 0, 0, 0⟩], []⟩, insts := [⟨5, false, 0, [⟨0, .done, false, false, false, false, false⟩], false, false, true⟩] })), 9, ⟨5, false, 0, [⟨0, .done, false, false, false, false, false⟩], false, false, true⟩, by decide⟩,
   ⟨up (fun d => d.onSb (fun s => { s with gA := ⟨[⟨0, 0xFFFF, 0, 0, 0, 0, 0, 0⟩], []⟩, insts := [⟨5, false, 0, [⟨3, .done, false, false, false, false, false⟩], false, false, true⟩] })), 9, ⟨5, false, 0, [⟨3, .done, false, false, false, false, false⟩], false, false, true⟩, 0, by decide⟩,
   ⟨up id, .pcie, 1, by decide⟩,
   ⟨up (fun d => d.onSb (fun s => { s with ld := some true })), by decide⟩,
   ⟨{ up (fun d => d.onSb (fun s => { s with ld := some false, ldAddr := 0x10000000 })) with mem := [(0x10000000, 2), (0x1000000B, 0x20), (0x1000002B, 0x40)] }, [], ⟨[⟨0x20000000, 0, 0, 0, 0, 0, 0, 0⟩, ⟨0x40000000, 0, 0, 0, 0, 0, 0, 0⟩], []⟩, by decide⟩,
   ⟨up (fun d => d.onSb (fun s => { s with ld := some false, ldAddr := 0x10000000 })), [], (2, 0), by decide⟩,
   ⟨up (fun d => d.onSb (fun s => { s with nextOk := true })), .pcie, 0x80000001, by decide⟩,
   ⟨up id, .pcie, 1, by decide⟩,
   ⟨up id, .pcie, 4, by decide⟩,
   ⟨up id, .pcie, by decide⟩,
   ⟨up id, .pcie, 1, R.SB_DISP_CNT, by decide⟩⟩

theorem witness_TdmPortsComplete :
  (∃ s : State, ∃ m : Agent, ∃ v : Word, Serves s m ∧ s.dev.portSel m < s.dev.nPorts ∧ s.dev.pb F.PT_CFG_EN (s.dev.portSel m) = false ∧ bit v 31 = true ∧ (ptCfgStored s.dev (s.dev.portSel m) v).portOk (s.dev.portSel m) = true) ∧
  (∃ s : State, ∃ m : Agent, ∃ v : Word, Serves s m ∧ s.dev.portSel m < s.dev.nPorts ∧ s.dev.pb F.PT_CFG_EN (s.dev.portSel m) = false ∧ bit v 31 = true ∧ (ptCfgStored s.dev (s.dev.portSel m) v).portOk (s.dev.portSel m) = false) ∧
  (∃ s : State, ∃ m : Agent, ∃ v : Word, Serves s m ∧ s.dev.portSel m < s.dev.nPorts ∧ s.dev.pb F.PT_CFG_EN (s.dev.portSel m) = true ∧ bit v 31 = false) ∧
  (∃ s : State, ∃ m : Agent, ∃ v : Word, Serves s m ∧ s.dev.portSel m < s.dev.nPorts ∧ s.dev.pb F.PT_CFG_EN (s.dev.portSel m) = false ∧ bit v 31 = false ∧ (s.dev.port (s.dev.portSel m)).st = .rateStop) ∧
  (∃ s : State, ∃ p : Fin 16, Awake s ∧ (s.dev.port p).st ≠ .off ∧ (s.dev.port p).st ≠ .rateStop) ∧
  (∃ s : State, ∃ p : Fin 16, Awake s ∧ (s.dev.port p).st = .start ∧ s.dev.master p = false ∧ (s.dev.port p).locked = false) ∧
  (∃ s : State, ∃ p : Fin 16, Awake s ∧ 8 ≤ s.dev.pf F.PT_CFG_GROUP p ∧ s.dev.startDone p = true) ∧
  (∃ s : State, ∃ p : Fin 16, ∃ j : Fin 16, Awake s ∧ s.dev.pf F.PT_CFG_GROUP p < 8 ∧ s.dev.startDone p = true ∧ (∀ k ∈ s.dev.members (s.dev.pf F.PT_CFG_GROUP p), (s.dev.port k).st = .start → s.dev.startDone k = true) ∧ j.val ∈ s.dev.members (s.dev.pf F.PT_CFG_GROUP p) ∧ (s.dev.port j).st = .start) ∧
  (∃ s : State, ∃ p : Fin 16, ∃ tx : Bool, ∃ slot : Nat, Awake s ∧ (s.dev.crossing p tx).isSome = true ∧ slot < s.dev.slots p ∧ (s.dev.port p).pendingSlot tx slot = true ∧ (if tx then crosses (s.dev.port p).txPrev (s.dev.port p).txLast slot else crosses (s.dev.port p).rxPrev (s.dev.port p).rxLast slot) = true) ∧
  (∃ s : State, ∃ p : Fin 16, ∃ tx : Bool, ∃ slot : Nat, ∃ n : Nat, Awake s ∧ s.dev.crossing p tx = some n ∧ max 1 (s.dev.pf F.PT_SIL_ZCTO p) ≤ n ∧ slot < s.dev.slots p ∧ (s.dev.port p).pendingSlot tx slot = true) ∧
  (∃ s : State, ∃ p : Fin 16, Awake s ∧ (s.dev.port p).st = .stopping ∧ s.dev.quiet p (s.dev.port p).lastTx = true ∧ s.dev.pf F.PT_SIL_PRE p ≤ (s.dev.port p).cnt) ∧
  (∃ s : State, ∃ p : Fin 18, Awake s ∧ (s.dev.port p).locked = true ∧ s.dev.master p = false ∧ (s.dev.port p).st ≠ .off ∧ (s.dev.port p).st ≠ .rateStop ∧ (s.dev.port p).st ≠ .fly) ∧
  (∃ s : State, ∃ p : Fin 16, Awake s ∧ (s.dev.port p).st = .rateStop ∧ s.dev.master p = false) ∧
  (∃ s : State, ∃ p : Fin 18, Awake s ∧ (s.dev.port p).st ≠ .off ∧ (s.dev.port p).st ≠ .rateStop) ∧
  (∃ s : State, ∃ p : Fin 18, Awake s ∧ (s.dev.port p).st = .fly ∧ (s.dev.port p).back = none) ∧
  (∃ s : State, ∃ p : Fin 18, Awake s ∧ (s.dev.port p).st = .fly ∧ (s.dev.port p).back = none) ∧
  (∃ s : State, ∃ m : Agent, ∃ v : Word, ∃ k, Serves s m ∧ bit v 8 = true ∧ bit v 9 = false ∧ k ∈ s.dev.members (bits v 0 3)) ∧
  (∃ s : State, ∃ m : Agent, ∃ v : Word, ∃ k, Serves s m ∧ bit v 8 = false ∧ bit v 9 = true ∧ k ∈ s.dev.members (bits v 0 3)) ∧
  (∃ s : State, ∃ p : Fin 16, Awake s ∧ (s.dev.port p).st = .start ∧ (s.dev.port p).locked = false ∧ s.dev.pf F.PT_CFG_GROUP p < 8 ∧ (s.dev.port p).since + 256 ≤ s.dev.nextDep) :=
  ⟨⟨up (fun d => (legal 15 d).wr (R.PORT_SEL.of 1) 15), .pcie, 0xF80F0000, by decide⟩,
   ⟨up (fun d => d.wr (R.PORT_SEL.of 1) 15), .pcie, 0xF80F0000, by decide⟩,
   ⟨up (fun d => (d.setF (F.PT_CFG_EN.of 15) 1).wr (R.PORT_SEL.of 1) 15), .pcie, 0, by decide⟩,
   ⟨up (fun d => port 15 (fun p => { p with st := .rateStop }) (d.wr (R.PORT_SEL.of 1) 15)), .pcie, 0, by decide⟩,
   ⟨up (fun d => port 15 (fun p => { p with st := .start }) (d)), 15, by decide⟩,
   ⟨up (fun d => port 15 (fun p => { p with st := .start }) (d)), 15, by decide⟩,
   ⟨up (fun d => port 15 (fun p => { p with st := .start, locked := true, cnt := 4096 }) (d.setF (F.PT_CFG_GROUP.of 15) 8)), 15, by decide⟩,
   ⟨up (fun d => port 14 (fun p => { p with st := .start, locked := true, cnt := 4096 }) (port 15 (fun p => { p with st := .start, locked := true, cnt := 4096, lastRx := 70 }) (group [14, 15] d))), 15, 14, by decide⟩,
   ⟨up (fun d => port 15 (fun p => { p with st := .run, want := true, locked := true, rxLast := [1, 0], lastRx := 9 }) (((legal 15 d).setF (F.PT_SIL_METHOD.of 15) 1).setF (F.PT_CFG_RXEN.of 15) 1)), 15, false, 1, by decide⟩,
   ⟨up (fun d => port 15 (fun p => { p with st := .run, want := true, locked := true, lastRx := 65535 }) (((legal 15 d).setF (F.PT_SIL_METHOD.of 15) 1).setF (F.PT_CFG_RXEN.of 15) 1)), 15, false, 1, 65536, by decide⟩,
   ⟨up (fun d => port 15 (fun p => { p with st := .stopping, cnt := 65535 }) (d)), 15, by decide⟩,
   ⟨up (fun d => port 17 (fun p => { p with st := .run, locked := true }) (d)), 17, by decide⟩,
   ⟨up (fun d => port 15 (fun p => { p with st := .rateStop }) (d)), 15, by decide⟩,
   ⟨up (fun d => port 17 (fun p => { p with st := .fly }) (d)), 17, by decide⟩,
   ⟨up (fun d => port 17 (fun p => { p with st := .fly, lastRx := 70 }) (d)), 17, by decide⟩,
   ⟨up (fun d => port 17 (fun p => { p with st := .fly, lastRx := 70 }) (d)), 17, by decide⟩,
   ⟨up (fun d => (group [14, 15] d)), .pcie, 0x107, 15, by decide⟩,
   ⟨up (fun d => (group [14, 15] d).wr R.TDM_GAT_LO 9), .pcie, 0x80000207, 15, by decide⟩,
   ⟨up (fun d => port 15 (fun p => { p with st := .start }) ({ group [15] d with nextDep := 256 })), 15, by decide⟩⟩

theorem witness_TdmAesComplete :
  (∃ s : State, ∃ r : Fin 2, Awake s ∧ (s.dev.port (16 + r.val)).st = .start) ∧
  (∃ s : State, ∃ r : Fin 2, Awake s ∧ (s.dev.port (16 + r.val)).st ≠ .off ∧ (s.dev.port (16 + r.val)).st ≠ .rateStop) ∧
  (∃ s : State, ∃ r : Fin 2, Awake s ∧ (s.dev.port (18 + r.val)).st ≠ .off) ∧
  (∃ s : State, ∃ r : Fin 2, ∃ sub : Bool, ∃ bs : List Byte, ∃ k, Awake s ∧ (s.dev.port (16 + r.val)).locked = true ∧ bs.length = 24 ∧ s.dev.fb (F.AR_CFG_CSCH.at r) = sub ∧ ((bs[0]?).getD 0#8).toNat % 2 = 1 ∧ (bs[23]?).getD 0#8 = crcc bs ∧ k < 6) ∧
  (∃ s : State, ∃ r : Fin 2, ∃ sub : Bool, ∃ bs : List Byte, ∃ k, Awake s ∧ (s.dev.port (16 + r.val)).locked = true ∧ bs.length = 24 ∧ s.dev.fb (F.AR_CFG_CSCH.at r) = sub ∧ ((bs[0]?).getD 0#8).toNat % 2 = 1 ∧ (bs[23]?).getD 0#8 ≠ crcc bs ∧ k < 6) ∧
  (∃ s : State, ∃ r : Fin 2, ∃ sub : Bool, ∃ bs : List Byte, ∃ k, Awake s ∧ (s.dev.port (16 + r.val)).locked = true ∧ bs.length = 24 ∧ s.dev.fb (F.AR_CFG_CSCH.at r) = sub ∧ ((bs[0]?).getD 0#8).toNat % 2 = 0 ∧ k < 6) ∧
  (∃ s : State, ∃ m : Agent, ∃ k, Serves s m ∧ k < 6) ∧
  (∃ s : State, ∃ m : Agent, Serves s m) ∧
  (∃ s : State, ∃ m : Agent, Serves s m) ∧
  (∃ s : State, ∃ r : Fin 2, Awake s ∧ (s.dev.port (18 + r.val)).st ≠ .off) ∧
  (∃ s : State, ∃ a : Fin 16, Awake s ∧ s.dev.fb (F.SRC_CFG_VALID.at a) = true ∧ s.dev.f (F.SRC_STAT_STATE.at a) = 1) ∧
  (∃ s : State, ∃ a : Fin 16, Awake s ∧ s.dev.fb (F.SRC_CFG_VALID.at a) = true ∧ s.dev.f (F.SRC_STAT_STATE.at a) = 2) ∧
  (∃ s : State, ∃ a : Fin 16, Awake s ∧ s.dev.f (F.SRC_STAT_STATE.at a) = 2) ∧
  (∃ s : State, ∃ m : Agent, ∃ v : Word, ∃ r, ∃ o, Serves s m ∧ bit v 0 = true ∧ r ∈ tioCounters ∧ o < 65536) :=
  ⟨⟨up (fun d => port 17 (fun p => { p with st := .start }) (d)), 1, by decide⟩,
   ⟨up (fun d => port 17 (fun p => { p with st := .fly }) (d)), 1, by decide⟩,
   ⟨up (fun d => port 19 (fun p => { p with st := .run }) (d)), 1, by decide⟩,
   ⟨up (fun d => port 17 (fun p => { p with st := .run, locked := true }) (d)), 1, false, [0x01, 0, 0, 0, 0, 0, 0, 0, 0, 0, 0, 0, 0, 0, 0, 0, 0, 0, 0, 0, 0, 0, 0, crcc ([0x01, 0, 0, 0, 0, 0, 0, 0, 0, 0, 0, 0, 0, 0, 0, 0, 0, 0, 0, 0, 0, 0, 0, 0])], 5, by decide⟩,
   ⟨up (fun d => port 17 (fun p => { p with st := .run, locked := true }) (d)), 1, false, [0x01, 0, 0, 0, 0, 0, 0, 0, 0, 0, 0, 0, 0, 0, 0, 0, 0, 0, 0, 0, 0, 0, 0, crcc ([0x01, 0, 0, 0, 0, 0, 0, 0, 0, 0, 0, 0, 0, 0, 0, 0, 0, 0, 0, 0, 0, 0, 0, 0]) ^^^ 1], 5, by decide⟩,
   ⟨up (fun d => port 17 (fun p => { p with st := .run, locked := true }) (d)), 1, false, List.replicate 24 0, 5, by decide⟩,
   ⟨up id, .pcie, 5, by decide⟩,
   ⟨up id, .pcie, by decide⟩,
   ⟨up id, .pcie, by decide⟩,
   ⟨up (fun d => port 19 (fun p => { p with st := .run }) (d)), 1, by decide⟩,
   ⟨up (fun d => (d.setF (F.SRC_CFG_VALID.at 15) 1).setF (F.SRC_STAT_STATE.at 15) 1), 15, by decide⟩,
   ⟨up (fun d => (d.setF (F.SRC_CFG_VALID.at 15) 1).setF (F.SRC_STAT_STATE.at 15) 2), 15, by decide⟩,
   ⟨up (fun d => d.setF (F.SRC_STAT_STATE.at 15) 2), 15, by decide⟩,
   ⟨up id, .pcie, 1, R.AR_ERR_CNT.at 1, 65535, by decide⟩⟩

theorem witness_NetFramesComplete :
  (∃ s : State, ∃ m : Agent, Serves s m ∧ (∀ p : Fin 3, s.dev.npOn p = false)) ∧
  (∃ s : State, ∃ m : Agent, ∃ k, ∃ rest : List Nat, Serves s m ∧ m.isStation = true ∧ s.dev.net.free = k :: rest) ∧
  (∃ s : State, ∃ m : Agent, Serves s m ∧ m.isStation = true ∧ s.dev.net.free = []) ∧
  (∃ s : State, ∃ m : Agent, ∃ v : Word, Serves s m ∧ m.isStation = true ∧ s.dev.net.owner (bits v 0 12) = 2) ∧
  (∃ s : State, ∃ m : Agent, ∃ v : Word, Serves s m ∧ m.isStation = true ∧ s.dev.net.owner (bits v 0 12) ≠ 2) ∧
  (∃ s : State, ∃ m : Agent, ∃ p : Fin 3, ∃ v : Word, Serves s m ∧ m.isStation = true ∧ s.dev.npHas p = true ∧ s.dev.net.owner (bits v 0 12) = 2 ∧ (bits (Memory.rd32 s.mem (s.dev.descAt (bits v 0 12) + 4)) 27 2 ≠ 3 ∨ s.dev.prpPair = false)) ∧
  (∃ s : State, ∃ m : Agent, ∃ p : Fin 3, ∃ v : Word, Serves s m ∧ m.isStation = true ∧ s.dev.npHas p = true ∧ s.dev.net.owner (bits v 0 12) = 2 ∧ bits (Memory.rd32 s.mem (s.dev.descAt (bits v 0 12) + 4)) 27 2 = 3 ∧ s.dev.prpPair = true) ∧
  (∃ s : State, ∃ p : Fin 3, ∃ r : TxResult, ∃ e : TxEnt, Awake s ∧ (s.dev.np p).current p = some e ∧ s.dev.npOn p = true ∧ r.ok = true ∧ s.dev.fb (F.NP_STATUS_LINK.at p) = true ∧ Fetched s e r ∧ 60 ≤ (s.dev.rawOf s.mem e).length ∧ (s.dev.wire p e r (s.dev.rawOf s.mem e)).length + 4 ≤ s.dev.maxFrame p) ∧
  (∃ s : State, ∃ p : Fin 3, ∃ r : TxResult, ∃ e : TxEnt, Awake s ∧ (s.dev.np p).current p = some e ∧ s.dev.npOn p = true ∧ (r.ok = false ∨ s.dev.fb (F.NP_STATUS_LINK.at p) = false ∨ (s.dev.rawOf s.mem e).length < 60 ∨ ¬ Fetched s e r)) ∧
  (∃ s : State, ∃ p : Fin 3, ∃ fr : RxFrame, ∃ k, ∃ rest : List Nat, Arrives s p fr ∧ Ordinary s p fr ∧ (rctOf p fr.bytes).all (fun r => !s.dev.net.prp.contains (srcMac (rxBody p fr.bytes), r.1)) = true ∧ s.dev.net.free = k :: rest ∧ s.dev.hi.ring = none ∧ AllGood s fr.ecc (s.dev.descAt k) 16 ∧ AllGood s fr.ecc (descBuf s.mem (s.dev.descAt k)).1 (rxBody p fr.bytes).length) ∧
  (∃ s : State, ∃ p : Fin 3, ∃ fr : RxFrame, Arrives s p fr ∧ Ordinary s p fr ∧ rctOf p fr.bytes = none ∧ s.dev.net.free = [] ∧ s.dev.hi.ring = none) ∧
  (∃ s : State, ∃ p : Fin 3, ∃ fr : RxFrame, ∃ k, Awake s ∧ s.dev.npOn p = true ∧ s.dev.rxFault p fr = some k ∧ s.dev.hi.ring = none) ∧
  (∃ s : State, ∃ m : Agent, ∃ p : Fin 3, ∃ k, ∃ rest : List Nat, Serves s m ∧ m.isStation = true ∧ s.dev.npHas p = true ∧ (s.dev.np p).done = k :: rest) ∧
  (∃ s : State, ∃ m : Agent, ∃ p : Fin 3, ∃ k, ∃ rest : List Nat, Serves s m ∧ m.isStation = true ∧ s.dev.npHas p = true ∧ (s.dev.np p).rdy = k :: rest) ∧
  (∃ s : State, ∃ p : Fin 3, ∃ guard : Nat, ∃ cyc : Nat, ∃ e : TxEnt, Awake s ∧ p.val < 2 ∧ s.dev.npOn p = true ∧ (s.dev.np p).sending = none ∧ e.tc < 8 ∧ (s.dev.np p).txq.find? (fun x => x.tc == e.tc) = some e ∧ (s.dev.gates p >>> e.tc) % 2 = 1 ∧ (guard >>> e.tc) % 2 = 0 ∧ 0 ≤ Tbl.getD ((credNow p (s.dev.tick cyc)).np p).credit e.tc 0 ∧ (∀ c < 8, e.tc < c → (s.dev.np p).txq.find? (fun x => x.tc == c) = none ∨ (s.dev.gates p >>> c) % 2 = 0 ∨ (guard >>> c) % 2 = 1 ∨ Tbl.getD ((credNow p (s.dev.tick cyc)).np p).credit c 0 < 0)) ∧
  (∃ s : State, ∃ e : TxEnt, Awake s ∧ (s.dev.np 2).current 2 = some e ∧ s.dev.npOn 2 = true ∧ s.dev.fb (F.NP_CFG_HDX.at 2) = true ∧ (s.dev.np 2).coll < 15) ∧
  (∃ s : State, ∃ e : TxEnt, ∃ late : Bool, Awake s ∧ (s.dev.np 2).current 2 = some e ∧ s.dev.npOn 2 = true ∧ s.dev.fb (F.NP_CFG_HDX.at 2) = true ∧ (late = true ∨ 15 ≤ (s.dev.np 2).coll)) ∧
  (∃ s : State, ∃ m : Agent, ∃ p : Fin 3, ∃ k, ∃ st : Stamp, ∃ rest : List (Nat × Stamp), Serves s m ∧ m.isStation = true ∧ s.dev.npHas p = true ∧ (s.dev.np p).tst = (k, st) :: rest) ∧
  (∃ s : State, ∃ m : Agent, ∃ p : Fin 3, ∃ k, ∃ st : Stamp, ∃ rest : List (Nat × Stamp), Serves s m ∧ m.isStation = true ∧ s.dev.npHas p = true ∧ (s.dev.np p).tsr = (k, st) :: rest) :=
  ⟨⟨up id, .pcie, by decide⟩,
   ⟨up (fun d => d.onNet (fun n => { n with free := [4095] })), .station 3, 4095, [], by decide⟩,
   ⟨up id, .station 3, by decide⟩,
   ⟨up (fun d => d.setOwner 4095 2), .station 3, 4095, by decide⟩,
   ⟨up id, .station 3, 4095, by decide⟩,
   ⟨up (fun d => d.setOwner 4095 2), .station 3, 2, 4095, by decide⟩,
   ⟨{ up (fun d => ((d.setOwner 0 2).setF (F.NP_CFG_PRP.at 0) 1).setF (F.NP_CFG_PRP.at 1) 1) with mem := [(7, 0x18)] }, .station 0, 1, 0, by decide⟩,
   ⟨{ up (fun d => (netp 1 (fun x => { x with sending := some ⟨some 0, [], 1, 7, some 9, false⟩ }) d).wr R.NB_BASE 0x10000000) with mem := [(0x10000001, 0x10), (0x10000003, 0x10), (0x10000005, 0xF0)] }, 1, ⟨true, false, 50, 3, []⟩, ⟨some 0, [], 1, 7, some 9, false⟩, by decide, by decide, by decide, by decide, by decide, (by rintro k ⟨⟩ a n h; obtain rfl : _ = a := congrArg Prod.fst h; obtain rfl : _ = n := congrArg Prod.snd h; decide), by decide, by decide⟩,
   ⟨up (netp 2 (fun x => { x with txq := [⟨some 0, [], 2, 0, none, false⟩] })), 2, ⟨false, true, 50, 3, []⟩, ⟨some 0, [], 2, 0, none, false⟩, by decide, by decide, by decide, .inl rfl⟩,
   ⟨up (fun d => (netp 1 id d).onNet (fun n => { n with free := [4095] })), 1, ⟨[1] ++ List.replicate 59 0 ++ rct 1 77 ([1] ++ List.replicate 59 0), 0, 9, 3, 0, []⟩, 4095, [], by decide⟩,
   ⟨up (netp 2 id), 2, ⟨([1] ++ List.replicate 59 0), 0, 100, 3, 0, []⟩, by decide⟩,
   ⟨up (netp 2 id), 2, ⟨([1] ++ List.replicate 59 0), 1, 100, 3, 0, []⟩, 17, by decide⟩,
   ⟨up (netp 2 (fun x => { x with done := [4095] })), .station 3, 2, 4095, [], by decide⟩,
   ⟨up (netp 2 (fun x => { x with rdy := [4095] })), .station 3, 2, 4095, [], by decide⟩,
   ⟨up (netp 1 (fun x => { x with txq := [⟨some 0, [], 1, 0, none, false⟩, ⟨some 1, [], 1, 6, none, false⟩, ⟨some 1, [], 1, 7, none, false⟩] })), 1, 0x81, 500, ⟨some 1, [], 1, 6, none, false⟩, by decide, by decide, by decide, by decide, by decide, by decide, by decide, by decide, by decide, by decide⟩,
   ⟨up (fun d => (netp 2 (fun x => { x with txq := [⟨some 0, [], 2, 0, none, false⟩], coll := 14 }) d).setF (F.NP_CFG_HDX.at 2) 1), ⟨some 0, [], 2, 0, none, false⟩, by decide⟩,
   ⟨up (fun d => (netp 2 (fun x => { x with txq := [⟨some 0, [], 2, 0, none, false⟩], coll := 15 }) d).setF (F.NP_CFG_HDX.at 2) 1), ⟨some 0, [], 2, 0, none, false⟩, false, by decide⟩,
   ⟨up (netp 2 (fun x => { x with tst := [(4095, ⟨999999999, 5, 9⟩)] })), .station 3, 2, 4095, ⟨999999999, 5, 9⟩, [], by decide⟩,
   ⟨up (netp 2 (fun x => { x with tsr := [(4095, ⟨999999999, 5, 9⟩)] })), .station 3, 2, 4095, ⟨999999999, 5, 9⟩, [], by decide⟩⟩

theorem witness_NetStreamsComplete :
  (∃ s : State, ∃ m : Agent, ∃ v : Word, Serves s m ∧ s.dev.streamSel m < 256 ∧ bit v 31 = true ∧ s.dev.stCfgOk v = true) ∧
  (∃ s : State, ∃ m : Agent, ∃ v : Word, Serves s m ∧ s.dev.streamSel m < 256 ∧ bit v 31 = true ∧ s.dev.stCfgOk v = false) ∧
  (∃ s : State, ∃ m : Agent, ∃ v : Word, Serves s m ∧ s.dev.streamSel m < 256 ∧ s.dev.sf F.ST_CFG_EN (s.dev.streamSel m) ≠ 0 ∧ bit v 31 = false) ∧
  (∃ s : State, ∃ m : Agent, ∃ v : Word, Serves s m ∧ s.dev.streamSel m < 256 ∧ s.dev.sf F.ST_CFG_EN (s.dev.streamSel m) = 0 ∧ bit v 31 = false) ∧
  (∃ s : State, ∃ p : Fin 3, ∃ fr : RxFrame, ∃ st : Nat, Arrives s p fr ∧ s.dev.mdMatch (rxBody p fr.bytes) = false ∧ st ∈ s.dev.strmsOf p (rxBody p fr.bytes) ∧ (s.dev.strm st).fits s.dev.fs (s.dev.sf F.ST_RTP_PT st) (payloadOf p fr) = true ∧ (s.dev.strm st).seen.contains (seqOf (s.dev.strm st).fmt (payloadOf p fr)) = false) ∧
  (∃ s : State, ∃ p : Fin 3, ∃ fr : RxFrame, ∃ st : Nat, Arrives s p fr ∧ s.dev.mdMatch (rxBody p fr.bytes) = false ∧ st ∈ s.dev.strmsOf p (rxBody p fr.bytes) ∧ (s.dev.strm st).fits s.dev.fs (s.dev.sf F.ST_RTP_PT st) (payloadOf p fr) = false) ∧
  (∃ s : State, ∃ p : Fin 3, ∃ fr : RxFrame, ∃ st : Nat, Arrives s p fr ∧ s.dev.mdMatch (rxBody p fr.bytes) = false ∧ st ∈ s.dev.strmsOf p (rxBody p fr.bytes) ∧ (s.dev.strm st).fits s.dev.fs (s.dev.sf F.ST_RTP_PT st) (payloadOf p fr) = true ∧ (s.dev.strm st).seen.contains (seqOf (s.dev.strm st).fmt (payloadOf p fr)) = true) ∧
  (∃ s : State, ∃ st : Nat, ∃ x : Stream, Awake s ∧ 128 ≤ st ∧ st < 256 ∧ x = (s.dev.strm st).turned s.dev.fs ∧ x.run = true ∧ x.t0 - 64 - x.len s.dev.fs + x.len s.dev.fs ≤ x.upTo) ∧
  (∃ s : State, ∃ p : Fin 3, Awake s ∧ s.dev.npHas p = true) ∧
  (∃ s : State, ∃ p : Fin 3, Awake s ∧ s.dev.npHas p = true) ∧
  (∃ s : State, ∃ m : Agent, ∃ p : Fin 3, Serves s m ∧ s.dev.npHas p = false) ∧
  (∃ s : State, ∃ m : Agent, ∃ p : Fin 3, ∃ v : Word, Serves s m ∧ s.dev.npHas p = true ∧ bit v 31 = true) ∧
  (∃ s : State, ∃ p : Fin 3, ∃ g : GclPend, Awake s ∧ s.dev.npHas p = true ∧ (s.dev.np p).pend = some g ∧ g.len ≠ 0 ∧ g.len ≤ 256 ∧ g.cycle ≠ 0 ∧ (∀ k, k < g.len → bits (Tbl.getD (s.dev.np p).adm k 0#32) 0 24 ≠ 0)) ∧
  (∃ s : State, ∃ p : Fin 3, ∃ g : GclPend, Awake s ∧ s.dev.npHas p = true ∧ (s.dev.np p).pend = some g ∧ (g.len = 0 ∨ g.cycle = 0 ∨ (∃ k, k < min g.len 256 ∧ bits (Tbl.getD (s.dev.np p).adm k 0#32) 0 24 = 0))) ∧
  (∃ s : State, ∃ p : Fin 3, ∃ fr : RxFrame, Arrives s p fr ∧ s.dev.mdMatch (rxBody p fr.bytes) = true ∧ mdGood (payloadOf p fr) = true ∧ mdRoom s.dev (payloadOf p fr) = true ∧ 0 < mdAhead s.dev (payloadOf p fr) ∧ mdAhead s.dev (payloadOf p fr) < 2 ^ 31) ∧
  (∃ s : State, ∃ p : Fin 3, ∃ fr : RxFrame, Arrives s p fr ∧ s.dev.mdMatch (rxBody p fr.bytes) = true ∧ mdGood (payloadOf p fr) = true ∧ mdRoom s.dev (payloadOf p fr) = true ∧ (mdAhead s.dev (payloadOf p fr) = 0 ∨ 2 ^ 31 ≤ mdAhead s.dev (payloadOf p fr))) ∧
  (∃ s : State, ∃ p : Fin 3, ∃ fr : RxFrame, Arrives s p fr ∧ s.dev.mdMatch (rxBody p fr.bytes) = true ∧ (mdGood (payloadOf p fr) = false ∨ mdRoom s.dev (payloadOf p fr) = false)) ∧
  (∃ s : State, ∃ m : Agent, Serves s m) ∧
  (∃ s : State, ∃ m : Agent, ∃ v : Word, Serves s m ∧ bit v 0 = true) :=
  ⟨⟨up (fun d => d.wr (R.STREAM_SEL.of 1) 255), .pcie, 0x80000000, by decide⟩,
   ⟨up (fun d => (d.wr (R.STREAM_SEL.of 1) 255).setF (F.ST_CFG_EN.of 255) 1), .pcie, 0xE0000000, by decide⟩,
   ⟨up (fun d => (d.setF (F.ST_CFG_EN.of 255) 1).wr (R.STREAM_SEL.of 1) 255), .pcie, 0, by decide⟩,
   ⟨up (fun d => d.wr (R.STREAM_SEL.of 1) 255), .pcie, 0x7FFFFFFF, by decide⟩,
   ⟨up (fun d => netp 0 id (strm 127 (fun x => { x with seen := [5] }) (((d.wr (R.ST_ADDR.of 127) 0xEF000001).setF (F.ST_UDP_DST.of 127) 5004).setF (F.ST_RTP_PT.of 127) 97))), 0, ⟨([1, 0, 94, 0, 0, 1, 2, 0, 0, 0, 0, 9, 8, 0, 69, 0, 0, 52, 0, 0, 0, 0, 8, 17, 0, 0, 10, 0, 0, 1, 239, 0, 0, 1, 0, 7, 19, 140, 0, 32, 0, 0, 128, 97, 255, 255, 0, 0, 0, 100, 0, 0, 0, 5, 0, 1, 0, 2, 0, 3, 0, 4, 0, 5, 128, 6]), 0, 100, 3, 110, []⟩, 127, by decide⟩,
   ⟨up (fun d => netp 0 id (strm 127 (fun x => { x with cfg := 1 }) (((d.wr (R.ST_ADDR.of 127) 0xEF000001).setF (F.ST_UDP_DST.of 127) 5004).setF (F.ST_RTP_PT.of 127) 97))), 0, ⟨([1, 0, 94, 0, 0, 1, 2, 0, 0, 0, 0, 9, 8, 0, 69, 0, 0, 52, 0, 0, 0, 0, 8, 17, 0, 0, 10, 0, 0, 1, 239, 0, 0, 1, 0, 7, 19, 140, 0, 32, 0, 0, 128, 97, 255, 255, 0, 0, 0, 100, 0, 0, 0, 5, 0, 1, 0, 2, 0, 3, 0, 4, 0, 5, 128, 6]), 0, 100, 3, 110, []⟩, 127, by decide⟩,
   ⟨up (fun d => netp 0 id (strm 127 (fun x => { x with seen := [65535] }) (((d.wr (R.ST_ADDR.of 127) 0xEF000001).setF (F.ST_UDP_DST.of 127) 5004).setF (F.ST_RTP_PT.of 127) 97))), 0, ⟨([1, 0, 94, 0, 0, 1, 2, 0, 0, 0, 0, 9, 8, 0, 69, 0, 0, 52, 0, 0, 0, 0, 8, 17, 0, 0, 10, 0, 0, 1, 239, 0, 0, 1, 0, 7, 19, 140, 0, 32, 0, 0, 128, 97, 255, 255, 0, 0, 0, 100, 0, 0, 0, 5, 0, 1, 0, 2, 0, 3, 0, 4, 0, 5, 128, 6]), 0, 100, 3, 110, []⟩, 127, by decide⟩,
   ⟨up (fun d => netp 0 id ((strm 255 (fun x => { x with t0 := 64, upTo := 48 })) d)), 255, { Stream.off with run := true, t0 := 64, upTo := 48 }, by decide⟩,
   ⟨up id, 2, by decide⟩,
   ⟨up id, 2, by decide⟩,
   ⟨up (fun d => { d with cap := { d.cap with netb := false } }), .pcie, 1, by decide⟩,
   ⟨up id, .pcie, 0, 0x80000000, by decide⟩,
   ⟨up (netp 2 (fun x => { x with adm := [(0, 0x05000010)], pend := some ⟨1, 100, 0, 0⟩ })), 2, ⟨1, 100, 0, 0⟩, by decide⟩,
   ⟨up (netp 2 (fun x => { x with pend := some ⟨1, 100, 0, 0⟩ })), 2, ⟨1, 100, 0, 0⟩, by decide, by decide, by decide, .inr (.inr ⟨0, by decide, by decide⟩)⟩,
   ⟨up (fun d => netp 2 id ((((d.setF F.MD_CFG_EN 1).setF F.MD_CFG_UDP 9000)).onNet (fun n => { n with md := List.replicate 15 (1, 0) }))), 2, ⟨([1, 0, 94, 0, 0, 1, 2, 0, 0, 0, 0, 9, 8, 0, 69, 0, 0, 108, 0, 0, 0, 0, 8, 17, 0, 0, 10, 0, 0, 1, 0, 0, 0, 5, 0, 7, 35, 40, 0, 88, 0, 0, 249, 209, 1, 2, 255, 255, 255, 255, 0, 2] ++ List.replicate 9 0 ++ [7] ++ List.replicate 31 0 ++ [7] ++ List.replicate 28 0), 0, 100, 3, 0, []⟩, by decide⟩,
   ⟨up (fun d => netp 2 id ((((d.setF F.MD_CFG_EN 1).setF F.MD_CFG_UDP 9000)).onNet (fun n => { n with md := [(2, 4294967295)] }))), 2, ⟨([1, 0, 94, 0, 0, 1, 2, 0, 0, 0, 0, 9, 8, 0, 69, 0, 0, 108, 0, 0, 0, 0, 8, 17, 0, 0, 10, 0, 0, 1, 0, 0, 0, 5, 0, 7, 35, 40, 0, 88, 0, 0, 249, 209, 1, 2, 255, 255, 255, 255, 0, 2] ++ List.replicate 9 0 ++ [7] ++ List.replicate 31 0 ++ [7] ++ List.replicate 28 0), 0, 100, 3, 0, []⟩, by decide⟩,
   ⟨up (fun d => netp 2 id ((((d.setF F.MD_CFG_EN 1).setF F.MD_CFG_UDP 9000)).onNet (fun n => { n with md := [(2, 4294967295)] }))), 2, ⟨([1, 0, 94, 0, 0, 1, 2, 0, 0, 0, 0, 9, 8, 0, 69, 0, 0, 108, 0, 0, 0, 0, 8, 17, 0, 0, 10, 0, 0, 1, 0, 0, 0, 5, 0, 7, 35, 40, 0, 88, 0, 0, 249, 209, 2, 2, 255, 255, 255, 255, 0, 2] ++ List.replicate 9 0 ++ [7] ++ List.replicate 31 0 ++ [7] ++ List.replicate 28 0), 0, 100, 3, 0, []⟩, by decide⟩,
   ⟨up id, .pcie, by decide⟩,
   ⟨up id, .pcie, 1, by decide⟩⟩

theorem witness_TimeInstancesComplete :
  (∃ s : State, ∃ pm : PtpMsg, ∃ cls : Nat, ∃ acc : Nat, ∃ i : Fin 4, Awake s ∧ pm.announce = some (cls, acc) ∧ s.dev.tu.ptp.any (fun c => c.port == pm.port.val && c.inst == i.val) = true ∧ s.dev.f (F.TI_CTRL_DOMP.of i) = pm.domain) ∧
  (∃ s : State, ∃ m : Agent, ∃ v : Word, ∃ cyc : Nat, Serves s m ∧ (s.dev.tiSel m) < 4 ∧ s.dev.fb (F.TI_CTRL_EN.of (s.dev.tiSel m)) = true ∧ ((s.dev.ti (s.dev.tiSel m)).tag = none ∨ (s.dev.ti (s.dev.tiSel m)).tag = some (s.dev.f (F.TI_TAG_TAGP.of (s.dev.tiSel m)))) ∧ ((wInt v - s.dev.biasNow (s.dev.tiSel m) (s.dev.ti (s.dev.tiSel m)) (cyc - (s.dev.ti (s.dev.tiSel m)).last.getD cyc)).natAbs ≤ s.dev.f (F.TI_STEP_THR_STEP_THR.of (s.dev.tiSel m)) ∨ s.dev.fb (F.TI_CTRL_STEPEN.of (s.dev.tiSel m)) = false)) ∧
  (∃ s : State, ∃ m : Agent, ∃ v : Word, ∃ cyc : Nat, Serves s m ∧ (s.dev.tiSel m) < 4 ∧ s.dev.fb (F.TI_CTRL_EN.of (s.dev.tiSel m)) = true ∧ ((s.dev.ti (s.dev.tiSel m)).tag = none ∨ (s.dev.ti (s.dev.tiSel m)).tag = some (s.dev.f (F.TI_TAG_TAGP.of (s.dev.tiSel m)))) ∧ s.dev.fb (F.TI_CTRL_STEPEN.of (s.dev.tiSel m)) = true ∧ s.dev.f (F.TI_STEP_THR_STEP_THR.of (s.dev.tiSel m)) < (wInt v - s.dev.biasNow (s.dev.tiSel m) (s.dev.ti (s.dev.tiSel m)) (cyc - (s.dev.ti (s.dev.tiSel m)).last.getD cyc)).natAbs) ∧
  (∃ s : State, ∃ m : Agent, Serves s m ∧ (s.dev.tiSel m) < 4 ∧ s.dev.fb (F.TI_CTRL_EN.of (s.dev.tiSel m)) = true ∧ (s.dev.ti (s.dev.tiSel m)).tag ≠ none ∧ (s.dev.ti (s.dev.tiSel m)).tag ≠ some (s.dev.f (F.TI_TAG_TAGP.of (s.dev.tiSel m))) ∧ s.dev.fb (F.TI_STATUS_SHADOW_OK.of (s.dev.tiSel m)) = true) ∧
  (∃ s : State, ∃ m : Agent, Serves s m ∧ (s.dev.tiSel m) < 4 ∧ s.dev.fb (F.TI_CTRL_EN.of (s.dev.tiSel m)) = true ∧ (s.dev.ti (s.dev.tiSel m)).tag ≠ none ∧ (s.dev.ti (s.dev.tiSel m)).tag ≠ some (s.dev.f (F.TI_TAG_TAGP.of (s.dev.tiSel m))) ∧ s.dev.fb (F.TI_STATUS_SHADOW_OK.of (s.dev.tiSel m)) = false) ∧
  (∃ s : State, ∃ m : Agent, Serves s m ∧ (4 ≤ s.dev.tiSel m ∨ s.dev.fb (F.TI_CTRL_EN.of (s.dev.tiSel m)) = false)) ∧
  (∃ s : State, ∃ m : Agent, Serves s m ∧ s.dev.tiSel m < 4) ∧
  (∃ s : State, ∃ m : Agent, Serves s m ∧ 4 ≤ s.dev.tiSel m) ∧
  (∃ s : State, ∃ i : Fin 4, ∃ cyc : Nat, Awake s ∧ s.dev.fb (F.TI_CTRL_EN.of i) = true ∧ s.dev.tiOver i (s.dev.ti i).last cyc = true ∧ s.dev.fb (F.TI_STATUS_SHADOW_OK.of i) = true) ∧
  (∃ s : State, ∃ i : Fin 4, ∃ cyc : Nat, Awake s ∧ s.dev.fb (F.TI_CTRL_EN.of i) = true ∧ s.dev.tiOver i (s.dev.ti i).last cyc = true ∧ s.dev.fb (F.TI_STATUS_SHADOW_OK.of i) = false) ∧
  (∃ s : State, ∃ i : Fin 4, ∃ cyc : Nat, Awake s ∧ (s.dev.fb (F.TI_CTRL_EN.of i) = false ∨ s.dev.tiOver i (s.dev.ti i).last cyc = false)) ∧
  (∃ s : State, ∃ i : Fin 4, ∃ cyc : Nat, Awake s ∧ s.dev.tiOver i (s.dev.ti i).lastS cyc = true) ∧
  (∃ s : State, ∃ m : Agent, Serves s m ∧ s.dev.tiSel m < 4) ∧
  (∃ s : State, ∃ m : Agent, Serves s m ∧ s.dev.tiSel m < 4) ∧
  (∃ s : State, ∃ m : Agent, Serves s m ∧ 4 ≤ s.dev.tiSel m) :=
  ⟨⟨up (fun d => (d.setF (F.TI_CTRL_DOMP.of 3) 5).onTu (fun u => { u with ptp := [⟨2, 3, 0, 5, 6, 0⟩] })), ⟨2, 5, some (6, 0x20)⟩, 6, 0x20, 3, by decide⟩,
   ⟨up (fun d => (inst 3 (fun x => { x with b := 40, last := some 0 }) (((d.setF (F.TI_STEP_THR_STEP_THR.of 3) 1000).setF (F.TI_CTRL_BIAS.of 3) 1).setF (F.TI_SLEW_SLEW.of 3) 3)).wr (R.TI_SEL.of 1) 3), .pcie, 0, 2000000000, by decide⟩,
   ⟨up (fun d => (inst 3 (fun x => { x with b := 40 }) (d.setF (F.TI_CTRL_STEPEN.of 3) 1)).wr (R.TI_SEL.of 1) 3), .pcie, 0x7FFFFFFF, 2000000000, by decide⟩,
   ⟨up (fun d => (inst 3 (fun x => { x with tag := some 9, es := 77, ep := 7, i := 5 }) ((d.setF (F.TI_STATUS_SHADOW_OK.of 3) 1).wr (R.TI_TAG.of 3) 0x704)).wr (R.TI_SEL.of 1) 3), .pcie, by decide⟩,
   ⟨up (fun d => (inst 3 (fun x => { x with tag := some 9, es := 77, ep := 7, i := 5 }) d).wr (R.TI_SEL.of 1) 3), .pcie, by decide⟩,
   ⟨up id, .pcie, by decide⟩,
   ⟨up (fun d => (inst 3 id d).wr (R.TI_SEL.of 1) 3), .pcie, by decide⟩,
   ⟨up (fun d => d.wr (R.TI_SEL.of 1) 4), .pcie, by decide⟩,
   ⟨up (fun d => inst 3 id (d.setF (F.TI_STATUS_SHADOW_OK.of 3) 1)), 3, 0, by decide⟩,
   ⟨up (inst 3 id), 3, 0, by decide⟩,
   ⟨up id, 3, 0, by decide⟩,
   ⟨up id, 3, 0, by decide⟩,
   ⟨up (fun d => (inst 3 id d).wr (R.TI_SEL.of 1) 3), .pcie, by decide⟩,
   ⟨up (fun d => (inst 3 (fun x => { x with t := 5 * 2 ^ 48 }) d).wr (R.TI_SEL.of 1) 3), .pcie, by decide⟩,
   ⟨up (fun d => d.wr (R.TI_SEL.of 1) 7), .pcie, by decide⟩⟩

theorem witness_TimeEdgesComplete :
  (∃ s : State, ∃ k : Fin 2, ∃ n : Nat, ∃ cyc : Nat, Awake s ∧ s.dev.fb (F.MC_CFG_PTP.at k) = true ∧ (k.val = 0 ∨ (s.dev.mc 1).realign = false ∨ n / 8192 ≤ (s.dev.mc 1).n / 32) ∧ (s.dev.mcFollows k = false ∨ s.dev.mcWithin k ((n : Int) - s.dev.nu k cyc - (s.dev.mc k).beta : Int) = true)) ∧
  (∃ s : State, ∃ k : Fin 2, ∃ n : Nat, ∃ cyc : Nat, Awake s ∧ s.dev.fb (F.MC_CFG_PTP.at k) = true ∧ (k.val = 0 ∨ (s.dev.mc 1).realign = false ∨ n / 8192 ≤ (s.dev.mc 1).n / 32) ∧ s.dev.mcFollows k = true ∧ s.dev.mcWithin k ((n : Int) - s.dev.nu k cyc - (s.dev.mc k).beta : Int) = false) ∧
  (∃ s : State, ∃ k : Fin 2, ∃ n : Nat, Awake s ∧ s.dev.fb (F.MC_CFG_PTP.at k) = false ∧ (k.val = 0 ∨ (s.dev.mc 1).realign = false ∨ n / 8192 ≤ (s.dev.mc 1).n / 32)) ∧
  (∃ s : State, ∃ n : Nat, Awake s ∧ (s.dev.mc 1).realign = true ∧ (s.dev.mc 1).n / 32 < n / 8192) ∧
  (∃ s : State, ∃ m : Agent, ∃ v : Word, Serves s m ∧ s.dev.inMode mShunt = true ∧ bit v 0 = true) ∧
  (∃ s : State, ∃ m : Agent, ∃ v : Word, Serves s m ∧ s.dev.inMode mShunt = false ∧ bit v 0 = true) ∧
  (∃ s : State, ∃ m : Agent, ∃ k : Fin 8, ∃ v : Word, ∃ cyc : Nat, Serves s m ∧ bit v 31 = true ∧ s.dev.fb (F.TP_CTRL_EN.at k) = false ∧ ((s.dev.f (F.TP_PERIOD_P.at k)) = 0 ∨ (max 1 (s.dev.f (F.TP_WIDTH_W.at k))) < (s.dev.f (F.TP_PERIOD_P.at k))) ∧ (s.dev.ti (bits v 0 2)).time cyc ≤ ((startOf s.dev k) : Int) * 2 ^ 48) ∧
  (∃ s : State, ∃ m : Agent, ∃ k : Fin 8, ∃ v : Word, ∃ cyc : Nat, Serves s m ∧ bit v 31 = true ∧ s.dev.fb (F.TP_CTRL_EN.at k) = false ∧ (max 1 (s.dev.f (F.TP_WIDTH_W.at k))) < (s.dev.f (F.TP_PERIOD_P.at k)) ∧ ((startOf s.dev k) : Int) * 2 ^ 48 < (s.dev.ti (bits v 0 2)).time cyc) ∧
  (∃ s : State, ∃ m : Agent, ∃ k : Fin 8, ∃ v : Word, ∃ cyc : Nat, Serves s m ∧ bit v 31 = true ∧ s.dev.fb (F.TP_CTRL_EN.at k) = false ∧ (((s.dev.f (F.TP_PERIOD_P.at k)) ≠ 0 ∧ (s.dev.f (F.TP_PERIOD_P.at k)) ≤ (max 1 (s.dev.f (F.TP_WIDTH_W.at k)))) ∨ ((s.dev.f (F.TP_PERIOD_P.at k)) = 0 ∧ ((startOf s.dev k) : Int) * 2 ^ 48 < (s.dev.ti (bits v 0 2)).time cyc))) ∧
  (∃ s : State, ∃ m : Agent, ∃ k : Fin 8, ∃ v : Word, Serves s m ∧ bit v 31 = true ∧ s.dev.fb (F.TP_CTRL_EN.at k) = true) ∧
  (∃ s : State, ∃ m : Agent, ∃ v : Word, Serves s m ∧ bit v 31 = false) ∧
  (∃ s : State, ∃ k : Fin 8, ∃ cyc : Nat, Awake s ∧ (s.dev.tp k).armed = true ∧ (s.dev.tp k).high = false ∧ (s.dev.tp k).next ≤ (s.dev.ti (s.dev.f (F.TP_CTRL_TI.at k))).ns cyc + 1) ∧
  (∃ s : State, ∃ k : Fin 8, ∃ cyc : Nat, Awake s ∧ (s.dev.tp k).armed = true ∧ (s.dev.tp k).high = true ∧ (s.dev.tp k).next + (s.dev.tp k).width ≤ (s.dev.ti (s.dev.f (F.TP_CTRL_TI.at k))).ns cyc + 1) ∧
  (∃ s : State, ∃ c : Fin 4, ∃ rising : Bool, ∃ cyc : Nat, ∃ w, Awake s ∧ s.dev.fb (F.TC_CFG_EN.at c) = true ∧ (s.dev.f (F.TC_CFG_EDGE.at c) = 0 → rising = true) ∧ (s.dev.f (F.TC_CFG_EDGE.at c) = 1 → rising = false) ∧ (∀ l, (s.dev.tc c).last = some l → l + 100 ≤ cyc) ∧ 4 ≤ w ∧ (s.dev.tc c).q.length < 16) ∧
  (∃ s : State, ∃ c : Fin 4, ∃ rising : Bool, ∃ cyc : Nat, ∃ w, Awake s ∧ s.dev.fb (F.TC_CFG_EN.at c) = true ∧ (s.dev.f (F.TC_CFG_EDGE.at c) = 0 → rising = true) ∧ (s.dev.f (F.TC_CFG_EDGE.at c) = 1 → rising = false) ∧ (∀ l, (s.dev.tc c).last = some l → l + 100 ≤ cyc) ∧ 4 ≤ w ∧ 16 ≤ (s.dev.tc c).q.length) ∧
  (∃ s : State, ∃ c : Fin 4, ∃ rising : Bool, ∃ cyc : Nat, ∃ w, Awake s ∧ (s.dev.fb (F.TC_CFG_EN.at c) = false ∨ (s.dev.f (F.TC_CFG_EDGE.at c) = 0 ∧ rising = false) ∨ (s.dev.f (F.TC_CFG_EDGE.at c) = 1 ∧ rising = true) ∨ (s.dev.tc c).last.any (fun l => decide (cyc < l + 100)) = true ∨ w < 4)) ∧
  (∃ s : State, ∃ m : Agent, ∃ c : Fin 4, ∃ e : CapEnt, ∃ rest : List CapEnt, Serves s m ∧ (s.dev.tc c).q = e :: rest) ∧
  (∃ s : State, ∃ m : Agent, ∃ c : Fin 4, Serves s m ∧ (s.dev.tc c).q = []) ∧
  (∃ s : State, ∃ m : Agent, ∃ v : Word, ∃ r, ∃ o, Serves s m ∧ bit v 0 = true ∧ r ∈ [R.TI_STEP_CNT, R.TI_SWITCH_CNT, R.MC_REFUSE_CNT.at 0, R.MC_REFUSE_CNT.at 1, R.TC_OVF_CNT.at 0, R.TC_OVF_CNT.at 1, R.TC_OVF_CNT.at 2, R.TC_OVF_CNT.at 3] ∧ o < 65536) :=
  ⟨⟨up (fun d => ((((d.setF (F.MC_CFG_PTP.at 1) 1).setF (F.RC_STATUS_STATE.of 1) 2).setF (F.RC_STATUS_CUR_VALID.of 1) 1).setF (F.RC_STATUS_CUR.of 1) 1)), 1, 0, 0, by decide⟩,
   ⟨up (fun d => ((((d.setF (F.MC_CFG_PTP.at 1) 1).setF (F.RC_STATUS_STATE.of 1) 2).setF (F.RC_STATUS_CUR_VALID.of 1) 1).setF (F.RC_STATUS_CUR.of 1) 1)), 1, 2 ^ 40, 0, by decide⟩,
   ⟨up id, 1, 100, by decide⟩,
   ⟨up (fun d => d.setMcX 1 ⟨31, 100, true⟩), 8192, by decide⟩,
   ⟨up id, .pcie, 1, by decide⟩,
   ⟨up (fun d => d.setF F.STATUS_SYS_MODE 3), .pcie, 1, by decide⟩,
   ⟨up (fun d => (d.wr (R.TP_START_SEC_LO.at 7) 1).wr (R.TP_PERIOD.at 7) 100), .pcie, 7, 0x80000003, 0, by decide⟩,
   ⟨up (fun d => (d.wr (R.TP_START_SEC_LO.at 7) 1).wr (R.TP_PERIOD.at 7) 100), .pcie, 7, 0x80000003, 2000000007, by decide⟩,
   ⟨up (fun d => ((d.wr (R.TP_START_SEC_LO.at 7) 1).wr (R.TP_PERIOD.at 7) 100).wr (R.TP_WIDTH.at 7) 100), .pcie, 7, 0x80000003, 5, by decide⟩,
   ⟨up (fun d => d.setF (F.TP_CTRL_EN.at 7) 1), .pcie, 7, 0x80000003, by decide⟩,
   ⟨up id, .pcie, 0, by decide⟩,
   ⟨up (fun d => d.setTp 7 ⟨true, 0, 100, 10, 0, false⟩), 7, 0, by decide⟩,
   ⟨up (fun d => d.setTp 7 ⟨true, 0, 100, 10, 0, true⟩), 7, 9, by decide⟩,
   ⟨up (fun d => (d.setF (F.TC_CFG_EN.at 3) 1).setTc 3 ⟨List.replicate 15 ⟨false, 0, 0⟩, some 0⟩), 3, true, 100, 4, by decide, by decide, by decide, by decide, (by intro l h; cases h; decide), by decide, by decide⟩,
   ⟨up (fun d => (d.setF (F.TC_CFG_EN.at 3) 1).setTc 3 ⟨List.replicate 16 ⟨false, 0, 0⟩, some 0⟩), 3, true, 100, 4, by decide, by decide, by decide, by decide, (by intro l h; cases h; decide), by decide, by decide⟩,
   ⟨up (fun d => (d.setF (F.TC_CFG_EN.at 3) 1).setTc 3 ⟨[], some 0⟩), 3, true, 99, 4, by decide⟩,
   ⟨up (fun d => d.setTc 3 ⟨[⟨true, 5000000005, 9⟩], none⟩), .pcie, 3, ⟨true, 5000000005, 9⟩, [], by decide⟩,
   ⟨up id, .pcie, 3, by decide⟩,
   ⟨up id, .pcie, 1, R.TC_OVF_CNT.at 3, 65535, by decide⟩⟩

theorem witness_RefsComplete :
  (∃ s : State, ∃ ms : List RefMeas, ∃ i : Fin 7, ∃ q : RefMeas, Awake s ∧ ms[i.val]? = some q ∧ q.present = true ∧ (s.dev.riExists i = true)) ∧
  (∃ s : State, ∃ ms : List RefMeas, ∃ i : Fin 7, ∃ q : RefMeas, Awake s ∧ ms[i.val]? = some q ∧ q.present = false) ∧
  (∃ s : State, ∃ i : Fin 8, Awake s ∧ i.val < 7) ∧
  (∃ s : State, ∃ i : Fin 8, Awake s ∧ s.dev.f F.RU_HOLDOFF_HOLDOFF ≤ (s.dev.ri i).since) ∧
  (∃ s : State, ∃ m : Agent, ∃ v : Word, Serves s m ∧ s.dev.rcSel m < 2 ∧ bit v 0 = true) ∧
  (∃ s : State, ∃ m : Agent, ∃ v : Word, Serves s m ∧ s.dev.rcSel m < 2 ∧ bit v 1 = true) ∧
  (∃ s : State, ∃ m : Agent, Serves s m ∧ 2 ≤ s.dev.rcSel m) ∧
  (∃ s : State, ∃ ch : Fin 2, Awake s ∧ s.dev.f (F.RC_STATUS_STATE.of ch) = rcSwitch) ∧
  (∃ s : State, ∃ ch : Fin 2, Awake s ∧ s.dev.f (F.RC_STATUS_STATE.of ch) = rcAcquire ∧ 1000 ≤ (s.dev.rc ch).near) ∧
  (∃ s : State, ∃ ch : Fin 2, Awake s ∧ s.dev.f (F.RC_STATUS_STATE.of ch) = rcLocked ∧ (2 ^ min (s.dev.f (F.RC_CFG_HIST.of ch)) 10 + 1) * 1000 ≤ (s.dev.rc ch).held) ∧
  (∃ s : State, ∃ m : Agent, ∃ v : Word, ∃ r, ∃ o, Serves s m ∧ bit v 0 = true ∧ r ∈ R.RC_SWITCH_CNT :: (List.range 8).map R.RI_DISQ_CNT.at ∧ o < 65536) :=
  ⟨⟨up id, [⟨true, true, 1, 0, false⟩, ⟨true, true, 3, 50, false⟩], 1, ⟨true, true, 3, 50, false⟩, by decide⟩,
   ⟨up id, [⟨false, true, 1, 0, false⟩], 0, ⟨false, true, 1, 0, false⟩, by decide⟩,
   ⟨up id, 6, by decide⟩,
   ⟨up (fun d => d.setF F.RU_HOLDOFF_HOLDOFF 0), 6, by decide⟩,
   ⟨up (fun d => d.wr (R.RC_SEL.of 1) 1), .pcie, 1, by decide⟩,
   ⟨up (fun d => d.wr (R.RC_SEL.of 1) 1), .pcie, 0x72, by decide⟩,
   ⟨up (fun d => d.wr (R.RC_SEL.of 1) 2), .pcie, by decide⟩,
   ⟨up (fun d => (d.setF (F.RC_STATUS_STATE.of 1) 4)), 1, by decide⟩,
   ⟨up (fun d => (d.setF (F.RC_STATUS_STATE.of 1) 1).setRc 1 { RefCh.reset with near := 1000 }), 1, by decide⟩,
   ⟨up (fun d => ((d.setF (F.RC_STATUS_STATE.of 1) 2).setF (F.RC_CFG_HIST.of 1) 0).setRc 1 { RefCh.reset with held := 2000 }), 1, by decide⟩,
   ⟨up id, .pcie, 1, R.RI_DISQ_CNT.at 7, 65535, by decide⟩⟩

theorem witness_AnalogInputsComplete :
  (∃ s : State, ∃ m : Agent, ∃ v : Word, Serves s m ∧ s.dev.cap.analog = true ∧ s.dev.ainSel m < 8 ∧ s.dev.fb (F.AI_CFG_EN.of (s.dev.ainSel m)) = false ∧ bit v 31 = true) ∧
  (∃ s : State, ∃ m : Agent, ∃ v : Word, Serves s m ∧ s.dev.cap.analog = true ∧ s.dev.ainSel m < 8 ∧ s.dev.fb (F.AI_CFG_EN.of (s.dev.ainSel m)) = true ∧ (s.dev.rd (R.AI_CFG.of (s.dev.ainSel m)) ^^^ v) &&& 0x43000000#32 ≠ 0#32) ∧
  (∃ s : State, ∃ m : Agent, ∃ v : Word, Serves s m ∧ s.dev.cap.analog = true ∧ s.dev.ainSel m < 8 ∧ s.dev.fb (F.AI_CFG_EN.of (s.dev.ainSel m)) = true ∧ bit v 31 = false) ∧
  (∃ s : State, ∃ m : Agent, ∃ v : Word, ∃ n : Nat, Serves s m ∧ s.dev.cap.analog = true ∧ n < 8 ∧ bit v n = true ∧ s.dev.fb (F.AI_CFG_EN.of n) = true ∧ (bit v 31 = false ∨ pair (s.dev.rd R.AI_SYNC_AT_LO) (s.dev.rd R.AI_SYNC_AT_HI) ≤ s.dev.nextDep)) ∧
  (∃ s : State, ∃ m : Agent, ∃ v : Word, ∃ n : Nat, Serves s m ∧ s.dev.cap.analog = true ∧ n < 8 ∧ bit v n = true ∧ bit v 31 = true ∧ s.dev.nextDep < (pair (s.dev.rd R.AI_SYNC_AT_LO) (s.dev.rd R.AI_SYNC_AT_HI) : Nat)) ∧
  (∃ s : State, ∃ g, ∃ n : Fin 8, Awake s ∧ (s.dev.ain n).rst = some g ∧ (s.dev.ain n).ready = false ∧ s.dev.fb (F.AI_CFG_EN.of n) = true) ∧
  (∃ s : State, ∃ n : Fin 8, Awake s ∧ (s.dev.ain n).rst ≠ none ∧ s.dev.fb (F.AI_CFG_EN.of n) = true) ∧
  (∃ s : State, ∃ m : Agent, Serves s m ∧ s.dev.cap.analog = true ∧ s.dev.ainSel m < 8) ∧
  (∃ s : State, ∃ n : Fin 8, Awake s ∧ (s.dev.ain n).pga ≠ s.dev.pgaTarget n ∧ s.dev.fb (F.AI_CFG_PGAZC.of n) = true ∧ (s.dev.ain n).cross = true) ∧
  (∃ s : State, ∃ n : Fin 8, Awake s ∧ (s.dev.ain n).pga ≠ s.dev.pgaTarget n ∧ s.dev.fb (F.AI_CFG_PGAZC.of n) = true ∧ max 1 (s.dev.f (F.AI_ZCTO_TO.of n)) ≤ (s.dev.ain n).wait) ∧
  (∃ s : State, ∃ n : Fin 8, ∃ idx : Nat, Awake s ∧ s.dev.fb (F.AI_CFG_EN.of n) = true ∧ samplesPass s.dev n idx = true ∧ s.dev.inGate n (idx / 32) ≠ 0) ∧
  (∃ s : State, ∃ n : Fin 8, ∃ idx : Nat, Awake s ∧ s.dev.fb (F.AI_CFG_EN.of n) = true ∧ (samplesPass s.dev n idx = false ∨ s.dev.inGate n (idx / 32) = 0)) ∧
  (∃ s : State, ∃ n : Fin 8, Awake s ∧ s.dev.fb (F.AI_CFG_EN.of n) = false) ∧
  (∃ s : State, ∃ n : Fin 8, Awake s ∧ (s.dev.ain n).above = true ∧ max 1 (s.dev.f (F.AI_THR_TIME_MS.of n)) * s.dev.rate ≤ (s.dev.ain n).low * 1000) ∧
  (∃ s : State, ∃ m : Agent, ∃ v : Word, ∃ r, ∃ o, Serves s m ∧ bit v 0 = true ∧ r ∈ [R.AI_OVR_CNT, R.AI_CLIPCNT, R.AI_PEAK] ∧ o < 65536) :=
  ⟨⟨up (fun d => d.wr (R.AIN_SEL.of 1) 7), .pcie, 0x80000000, by decide⟩,
   ⟨up (fun d => (d.setF (F.AI_CFG_EN.of 7) 1).wr (R.AIN_SEL.of 1) 7), .pcie, 0xC0000000, by decide⟩,
   ⟨up (fun d => (d.setF (F.AI_CFG_EN.of 7) 1).wr (R.AIN_SEL.of 1) 7), .pcie, 0, by decide⟩,
   ⟨up (fun d => (d.setF (F.AI_CFG_EN.of 7) 1)), .pcie, 0x80000080, 7, by decide⟩,
   ⟨up (fun d => d.wr R.AI_SYNC_AT_LO 100), .pcie, 0x80000080, 7, by decide⟩,
   ⟨up (fun d => ((d.setF (F.AI_CFG_EN.of 7) 1)).onAi (fun a => { a with ain := [(7, { Ain.off with rst := some 5 })] })), 5, 7, by decide⟩,
   ⟨up (fun d => ((d.setF (F.AI_CFG_EN.of 7) 1)).onAi (fun a => { a with ain := [(7, { Ain.off with rst := some 5 })] })), 7, by decide⟩,
   ⟨up (fun d => d.wr (R.AIN_SEL.of 1) 7), .pcie, by decide⟩,
   ⟨up (fun d => ((d.setF (F.AI_CFG_PGAZC.of 7) 1).setF (F.AI_CFG_PGA.of 7) 23).onAi (fun a => { a with ain := [(7, { Ain.off with pga := 24, cross := true })] })), 7, by decide⟩,
   ⟨up (fun d => ((d.setF (F.AI_CFG_PGAZC.of 7) 1).setF (F.AI_CFG_PGA.of 7) 25).onAi (fun a => { a with ain := [(7, { Ain.off with pga := 23, wait := 48000 })] })), 7, by decide⟩,
   ⟨up (fun d => ((d.setF (F.AI_CFG_EN.of 7) 1)).onAi (fun a => { a with ain := [(7, { Ain.off with rst := some 5, ready := true })] })), 7, 200, by decide⟩,
   ⟨up (fun d => ((d.setF (F.AI_CFG_EN.of 7) 1)).onAi (fun a => { a with ain := [(7, { Ain.off with rst := some 5 })] })), 7, 199, by decide⟩,
   ⟨up id, 7, by decide⟩,
   ⟨up (fun d => d.onAi (fun a => { a with ain := [(7, { Ain.off with above := true, low := 48000000 })] })), 7, by decide⟩,
   ⟨up id, .pcie, 1, R.AI_PEAK, 65535, by decide⟩⟩

theorem witness_BiasesComplete :
  (∃ s : State, ∃ m : Agent, ∃ k : Fin 2, ∃ v : Word, Serves s m ∧ s.dev.cap.analog = true ∧ (s.dev.mb k).step = 0 ∧ bit v 31 = true) ∧
  (∃ s : State, ∃ m : Agent, ∃ k : Fin 2, ∃ v : Word, Serves s m ∧ s.dev.cap.analog = true ∧ (s.dev.mb k).step ≠ 0 ∧ bit v 31 = true) ∧
  (∃ s : State, ∃ m : Agent, ∃ k : Fin 2, ∃ v : Word, Serves s m ∧ s.dev.cap.analog = true ∧ (s.dev.mb k).step = 18 ∧ bit v 31 = false) ∧
  (∃ s : State, ∃ m : Agent, ∃ k : Fin 2, ∃ v : Word, Serves s m ∧ s.dev.cap.analog = true ∧ (s.dev.mb k).step ≠ 18 ∧ bit v 31 = false) ∧
  (∃ s : State, ∃ k : Fin 2, Awake s ∧ 0 < (s.dev.mb k).step ∧ (s.dev.mb k).step < 18) ∧
  (∃ s : State, ∃ k : Fin 2, Awake s ∧ 2 ≤ (s.dev.mb k).step) ∧
  (∃ s : State, ∃ k : Fin 2, Awake s ∧ (s.dev.mb k).step = 18) ∧
  (∃ s : State, ∃ n : Fin 4, bit (s.dev.rd R.JD_CFG) (28 + n) = true ∧ bit (s.dev.rd R.JD_STATUS) (4 * n + 3) = false) ∧
  (∃ s : State, ∃ n : Fin 4, (bit (s.dev.rd R.JD_CFG) (28 + n) = false ∨ bit (s.dev.rd R.JD_STATUS) (4 * n + 3) = true)) :=
  ⟨⟨up id, .pcie, 1, 0x80000000, by decide⟩,
   ⟨up (fun d => d.onAi (fun a => { a with mb := [(1, { Bias.off with step := 5 })] })), .pcie, 1, 0x80000003, by decide⟩,
   ⟨up (fun d => d.onAi (fun a => { a with mb := [(1, { Bias.off with step := 18 })] })), .pcie, 1, 0, by decide⟩,
   ⟨up (fun d => d.onAi (fun a => { a with mb := [(1, { Bias.off with step := 5 })] })), .pcie, 1, 0, by decide⟩,
   ⟨up (fun d => d.onAi (fun a => { a with mb := [(1, { Bias.off with step := 17 })] })), 1, by decide⟩,
   ⟨up (fun d => d.onAi (fun a => { a with mb := [(1, { Bias.off with step := 2 })] })), 1, by decide⟩,
   ⟨up (fun d => d.onAi (fun a => { a with mb := [(1, { Bias.off with step := 18 })] })), 1, by decide⟩,
   ⟨up (fun d => d.wr R.JD_CFG 0x80000000), 3, by decide⟩,
   ⟨up id, 3, by decide⟩⟩

theorem witness_AnalogOutputsComplete :
  (∃ s : State, ∃ m : Agent, ∃ v : Word, Serves s m ∧ s.dev.cap.analog = true ∧ s.dev.aoutSel m < 12 ∧ (s.dev.aout (s.dev.aoutSel m)).step = 0 ∧ s.dev.ao.force ≠ .down ∧ bit v 31 = true) ∧
  (∃ s : State, ∃ m : Agent, ∃ v : Word, Serves s m ∧ s.dev.cap.analog = true ∧ s.dev.aoutSel m < 12 ∧ (s.dev.aout (s.dev.aoutSel m)).step ≠ 0 ∧ bit v 31 = true) ∧
  (∃ s : State, ∃ m : Agent, ∃ v : Word, Serves s m ∧ s.dev.cap.analog = true ∧ s.dev.aoutSel m < 12 ∧ bit v 31 = false) ∧
  (∃ s : State, ∃ c : Fin 12, Awake s ∧ ((s.dev.aout c).step = 1 ∨ (s.dev.aout c).step = 2) ∧ s.dev.aoUp c = true) ∧
  (∃ s : State, ∃ c : Fin 12, Awake s ∧ ((s.dev.aout c).step = 2 ∨ ((s.dev.aout c).step = 1 ∧ s.dev.ao.force ≠ .hold)) ∧ s.dev.aoUp c = false) ∧
  (∃ s : State, ∃ c : Fin 12, Awake s ∧ (s.dev.aout c).step = 4 ∧ s.dev.aoUp c = true ∧ (s.dev.aout c).tick ≤ 255) ∧
  (∃ s : State, ∃ c : Fin 12, Awake s ∧ ((s.dev.aout c).step = 4 ∨ (s.dev.aout c).step = 3) ∧ s.dev.aoUp c = false) ∧
  (∃ s : State, ∃ c : Fin 12, Awake s ∧ (s.dev.aout c).step = 3 ∧ s.dev.aoUp c = true) ∧
  (∃ s : State, ∃ c : Fin 12, Awake s ∧ (s.dev.aout c).step < 3) ∧
  (∃ s : State, ∃ c : Fin 12, Awake s ∧ (s.dev.aout c).step = 3 ∧ s.dev.aoUp c = true ∧ 256 ≤ (s.dev.aout c).track) ∧
  (∃ s : State, ∃ m : Agent, Serves s m ∧ s.dev.cap.analog = true ∧ s.dev.aoutSel m < 8) ∧
  (∃ s : State, ∃ m : Agent, Serves s m ∧ s.dev.twCopy = false ∧ s.dev.cap.analog = true ∧ s.dev.aoutSel m < 12 ∧ bits (s.dev.aoSosSel m) 0 3 < 5) ∧
  (∃ s : State, ∃ m : Agent, Serves s m ∧ s.dev.cap.analog = true ∧ s.dev.aoutSel m < 12 ∧ bits (s.dev.aoSosSel m) 0 3 < 5) ∧
  (∃ s : State, ∃ m : Agent, ∃ v : Word, Serves s m ∧ s.dev.twCopy = false ∧ s.dev.cap.analog = true ∧ s.dev.aoutSel m < 12 ∧ bit v 0 = true) ∧
  (∃ s : State, ∃ m : Agent, ∃ k : Fin 8, Serves s m ∧ s.dev.twCopy = false ∧ s.dev.cap.analog = true ∧ s.dev.fb (F.EX_CFG_ACT.at k) = false) ∧
  (∃ s : State, ∃ m : Agent, ∃ k : Fin 8, Serves s m ∧ s.dev.twCopy = false ∧ s.dev.cap.analog = true ∧ s.dev.fb (F.EX_CFG_ACT.at k) = true) ∧
  (∃ s : State, ∃ k : Fin 8, Awake s ∧ s.dev.fb (F.EX_CFG_EN.at k) = false) ∧
  (∃ s : State, ∃ k : Fin 8, Awake s ∧ s.dev.fb (F.EX_CFG_EN.at k) = true) ∧
  (∃ s : State, ∃ m : Agent, ∃ v : Word, ∃ r, ∃ o, Serves s m ∧ bit v 0 = true ∧ r ∈ [R.AO_UND_CNT, R.AO_CLIPCNT, R.AO_PEAK] ∧ o < 65536) :=
  ⟨⟨up (fun d => d.wr (R.AOUT_SEL.of 1) 11), .pcie, 0x80000000, by decide⟩,
   ⟨up (fun d => aout 11 (fun x => { x with step := 3 }) (d.wr (R.AOUT_SEL.of 1) 11)), .pcie, 0x80000000, by decide⟩,
   ⟨up (fun d => d.wr (R.AOUT_SEL.of 1) 11), .pcie, 0, by decide⟩,
   ⟨up (fun d => aout 11 (fun x => { x with step := 2 }) (let d := d.setF (F.AO_CFG_EN.of 11) 1; { d with ao := { d.ao with force := .free } })), 11, by decide⟩,
   ⟨up (fun d => aout 11 (fun x => { x with step := 2, span := 3 }) d), 11, by decide⟩,
   ⟨up (fun d => aout 11 (fun x => { x with step := 4 }) (let d := d.setF (F.AO_CFG_EN.of 11) 1; { d with ao := { d.ao with force := .free } })), 11, by decide⟩,
   ⟨up (fun d => aout 11 (fun x => { x with step := 4, y := 5, fade := .full }) d), 11, by decide⟩,
   ⟨up (fun d => aout 11 (fun x => { x with step := 3, track := 9 }) (let d := d.setF (F.AO_CFG_EN.of 11) 1; { d with ao := { d.ao with force := .free } })), 11, by decide⟩,
   ⟨up (fun d => aout 11 (fun x => { x with step := 2 }) (let d := d.setF (F.AO_CFG_EN.of 11) 1; { d with ao := { d.ao with force := .free } })), 11, by decide⟩,
   ⟨up (fun d => aout 11 (fun x => { x with step := 3, track := 256 }) (let d := d.setF (F.AO_CFG_EN.of 11) 1; { d with ao := { d.ao with force := .free } })), 11, by decide⟩,
   ⟨up (fun d => d.wr (R.AOUT_SEL.of 1) 7), .pcie, by decide⟩,
   ⟨up (fun d => (d.wr (R.AOUT_SEL.of 1) 11).wr (R.AO_SOS_SEL.of 1) 0x174), .pcie, by decide⟩,
   ⟨up (fun d => (d.wr (R.AOUT_SEL.of 1) 11).wr (R.AO_SOS_SEL.of 1) 0x174), .pcie, by decide⟩,
   ⟨up (fun d => d.wr (R.AOUT_SEL.of 1) 11), .pcie, 1, by decide⟩,
   ⟨up id, .pcie, 7, by decide⟩,
   ⟨up (fun d => d.wr (R.EX_CFG.at 7) 0xC7050007), .pcie, 7, by decide⟩,
   ⟨up id, 7, by decide⟩,
   ⟨up (fun d => d.setF (F.EX_CFG_EN.at 7) 1), 7, by decide⟩,
   ⟨up id, .pcie, 1, R.AO_PEAK, 65535, by decide⟩⟩

theorem witness_TwinControlComplete :
  (∃ s : State, ∃ m : Agent, ∃ v : Word, Serves s m ∧ s.dev.cap.twin = true ∧ bit v 0 = true ∧ (∀ k ∈ [1, 3, 4, 5], bit v k = false) ∧ s.dev.fb F.TWN_CFG_EN = true ∧ s.dev.twSt = twOff) ∧
  (∃ s : State, ∃ m : Agent, ∃ v : Word, Serves s m ∧ s.dev.cap.twin = true ∧ bit v 1 = true ∧ (∀ k ∈ [0, 3, 4, 5], bit v k = false) ∧ s.dev.twSt = twActive ∧ s.dev.tw.peer = twStandby ∧ bit v 2 = false) ∧
  (∃ s : State, ∃ m : Agent, ∃ v : Word, Serves s m ∧ s.dev.cap.twin = true ∧ bit v 1 = true ∧ (∀ k ∈ [0, 3, 4, 5], bit v k = false) ∧ s.dev.twSt = twActive ∧ s.dev.tw.peer = twStandby ∧ bit v 2 = true ∧ s.dev.nextDep < s.dev.rd64 R.TWN_SW_AT_LO R.TWN_SW_AT_HI) ∧
  (∃ s : State, ∃ m : Agent, ∃ v : Word, Serves s m ∧ s.dev.cap.twin = true ∧ bit v 1 = true ∧ (∀ k ∈ [0, 3, 4, 5], bit v k = false) ∧ (s.dev.twSt ≠ twActive ∨ s.dev.tw.peer ≠ twStandby)) ∧
  (∃ s : State, ∃ m : Agent, ∃ v : Word, Serves s m ∧ s.dev.cap.twin = true ∧ bit v 3 = true ∧ (∀ k ∈ [0, 1, 4, 5], bit v k = false) ∧ (s.dev.twSt = twStandby ∨ s.dev.twSt = twSyncing ∨ s.dev.twSt = twDetached)) ∧
  (∃ s : State, ∃ m : Agent, ∃ v : Word, Serves s m ∧ s.dev.cap.twin = true ∧ bit v 4 = true ∧ (∀ k ∈ [0, 1, 3, 5], bit v k = false) ∧ twSolo ≤ s.dev.twSt) ∧
  (∃ s : State, ∃ m : Agent, ∃ v : Word, Serves s m ∧ s.dev.cap.twin = true ∧ bit v 5 = true ∧ (∀ k ∈ [0, 1, 3, 4], bit v k = false) ∧ ((s.dev.twSt = twDetached ∧ s.dev.fb F.STATUS_TWN_LINK = true) ∨ s.dev.twSt = twFaulted)) ∧
  (∃ s : State, ∃ h : HelloFrame, TwinHears s h.good ∧ s.dev.twSt = twHello ∧ s.dev.fb F.TWN_CFG_SIDE = false ∧ agrees s.dev h = true ∧ h.props.st ≠ twActive ∧ h.props.st ≠ twSolo) ∧
  (∃ s : State, ∃ h : HelloFrame, TwinHears s h.good ∧ s.dev.twSt = twHello ∧ agrees s.dev h = true ∧ (h.props.st = twActive ∨ h.props.st = twSolo)) ∧
  (∃ s : State, ∃ h : HelloFrame, TwinHears s h.good ∧ s.dev.twSt = twSolo ∧ agrees s.dev h = true ∧ h.props.st = twSyncing) ∧
  (∃ s : State, ∃ h : HelloFrame, TwinHears s h.good ∧ s.dev.twSt = twHello ∧ agrees s.dev h = false) ∧
  (∃ s : State, ∃ k : MarkFrame, TwinHears s k.good) ∧
  (∃ s : State, ∃ k : MarkFrame, TwinHears s k.good ∧ s.dev.twSt = twStandby ∧ k.st = twActive ∧ s.dev.tw.markBlk ≠ some k.blk ∧ (k.blk = s.dev.nextDep ∨ k.blk + 1 = s.dev.nextDep)) ∧
  (∃ s : State, ∃ k : MarkFrame, TwinHears s k.good ∧ s.dev.twSt = twActive ∧ (k.st = twOff ∨ k.st = twDetached)) ∧
  (∃ s : State, ∃ k : MarkFrame, TwinHears s k.good ∧ s.dev.twSt = twStandby ∧ (k.st = twOff ∨ k.st = twHello ∨ k.st = twSolo)) ∧
  (∃ s : State, ∃ h : HelloFrame, ∃ k : MarkFrame, ∃ a : AckFrame, ∃ b : BlockFrame, ∃ c : ChunkFrame, ∃ p : CrcPass, ∃ u : BulkFrame, Awake s ∧ s.dev.cap.twin = true ∧ twHello ≤ s.dev.twSt ∧ h.good = false ∧ k.good = false ∧ a.good = false ∧ b.good = false ∧ c.good = false ∧ p.good = false ∧ u.good = false) ∧
  (∃ s : State, TwinHears s true ∧ s.dev.twSt = twStandby) ∧
  (∃ s : State, TwinHears s true ∧ (s.dev.twSt = twActive ∨ s.dev.twSt = twStandby)) ∧
  (∃ s : State, TwinHears s true ∧ s.dev.twSt = twSyncing) ∧
  (∃ s : State, Awake s ∧ s.dev.cap.twin = true) ∧
  (∃ s : State, Awake s ∧ s.dev.cap.twin = true) ∧
  (∃ s : State, Awake s ∧ s.dev.cap.twin = false) :=
  ⟨⟨up (fun d => twin twOff id (d.setF F.TWN_CFG_EN 1)), .pcie, 1, by decide⟩,
   ⟨up (twin twActive (fun t => { t with peer := twStandby })), .pcie, 2, by decide⟩,
   ⟨up (fun d => twin twActive (fun t => { t with peer := twStandby }) ({ d.wr R.TWN_SW_AT_LO 9 with nextDep := 8 })), .pcie, 6, by decide⟩,
   ⟨up (twin twStandby id), .pcie, 2, by decide⟩,
   ⟨up (twin twDetached (fun t => { t with frames := [⟨true, 5, [], [], [], 0, 0, false, none⟩] })), .pcie, 8, by decide⟩,
   ⟨up (twin twSolo id), .pcie, 0x10, by decide⟩,
   ⟨up (twin twFaulted (fun t => { t with frames := [⟨true, 5, [], [], [], 0, 0, false, none⟩], chunks := [⟨true, 9, 70, 5, .gsv State.reset.dev.gsv⟩] })), .pcie, 0x20, by decide⟩,
   ⟨up (twin twHello id), ⟨true, { State.reset.dev.props with st := twHello, side := true }, 0⟩, by decide⟩,
   ⟨up (twin twHello id), ⟨true, { State.reset.dev.props with st := twSolo, side := true }, 0⟩, by decide⟩,
   ⟨up (twin twSolo id), ⟨true, { State.reset.dev.props with st := twSyncing, side := true }, 0⟩, by decide⟩,
   ⟨up (twin twHello id), ⟨true, { State.reset.dev.props with st := twHello }, 0⟩, by decide⟩,
   ⟨up (twin twHello id), ⟨true, 0, 0, twHello, true⟩, by decide⟩,
   ⟨up (fun d => twin twStandby id ({ d with nextDep := 8 })), ⟨true, 7, -65, twActive, true⟩, by decide⟩,
   ⟨up (twin twActive id), ⟨true, 0, 0, twOff, true⟩, by decide⟩,
   ⟨up (twin twStandby id), ⟨true, 0, 0, twSolo, true⟩, by decide⟩,
   ⟨up (twin twHello id), ⟨false, State.reset.dev.props, 0⟩, ⟨false, 0, 0, 0, false⟩, ⟨false, 0, none, []⟩, ⟨false, 0, [], [], [], 0, 0, false, none⟩, ⟨false, 9, 70, 5, .gsv State.reset.dev.gsv⟩, ⟨false, 0, 0, [], false⟩, ⟨false, ⟨.node, 0, 0, 0⟩, [], false⟩, by decide⟩,
   ⟨up (twin twStandby id), by decide⟩,
   ⟨up (twin twStandby id), by decide⟩,
   ⟨up (twin twSyncing id), by decide⟩,
   ⟨up id, by decide⟩,
   ⟨up id, by decide⟩,
   ⟨up (fun d => { d with cap := { d.cap with twin := false } }), by decide⟩⟩

theorem witness_TwinPhasesComplete :
  (∃ s : State, ∃ f : AckFrame, TwinHears s f.good ∧ s.dev.twSt = twActive) ∧
  (∃ s : State, ∃ blk : Nat, ∃ crc : Word, ∃ e : Nat × Word × Bool, TwinHears s true ∧ s.dev.twSt = twStandby ∧ s.dev.tw.sums.find? (fun e => e.1 == blk) = some e ∧ e.2.2 = false ∧ e.2.1 = crc) ∧
  (∃ s : State, ∃ blk : Nat, ∃ crc : Word, ∃ e : Nat × Word × Bool, TwinHears s true ∧ s.dev.twSt = twStandby ∧ s.dev.tw.sums.find? (fun e => e.1 == blk) = some e ∧ e.2.2 = false ∧ e.2.1 ≠ crc) ∧
  (∃ s : State, ∃ blk : Nat, ∃ e : Nat × Word × Bool, TwinHears s true ∧ s.dev.twSt = twSyncing ∧ s.dev.f F.STATUS_TWN_PHASE = 4 ∧ s.dev.tw.sums.find? (fun e => e.1 == blk) = some e ∧ e.2.2 = false) ∧
  (∃ s : State, ∃ blk : Nat, ∃ late : Bool, ∃ e : Nat × Word × Bool, TwinHears s true ∧ s.dev.tw.sums.find? (fun e => e.1 == blk) = some e ∧ (late = true ∨ e.2.2 = true)) ∧
  (∃ s : State, TwinHears s true) ∧
  (∃ s : State, Awake s ∧ s.dev.cap.twin = true ∧ s.dev.twSt = twStandby ∧ s.dev.fb F.TWN_CFG_LINKTAKE = true) ∧
  (∃ s : State, Awake s ∧ s.dev.cap.twin = true ∧ twHello ≤ s.dev.twSt) ∧
  (∃ s : State, ∃ b : Nat, ∃ c : Nat, Awake s ∧ s.dev.cap.twin = true ∧ twSolo ≤ s.dev.twSt ∧ s.dev.tw.closeAt = some c ∧ c ≤ b) ∧
  (∃ s : State, ∃ b : Nat, ∃ o : Nat, Awake s ∧ s.dev.cap.twin = true ∧ twSolo ≤ s.dev.twSt ∧ s.dev.tw.closeAt = none ∧ s.dev.tw.openAt = some o ∧ o ≤ b) ∧
  (∃ s : State, Awake s ∧ s.dev.cap.twin = true ∧ s.dev.twCopy = true ∧ 64 ≤ s.dev.tw.skewN) ∧
  (∃ s : State, Awake s ∧ s.dev.cap.twin = true ∧ twSolo ≤ s.dev.twSt) ∧
  (∃ s : State, Awake s ∧ s.dev.cap.twin = true ∧ s.dev.twSt = twSyncing ∧ s.dev.f F.STATUS_TWN_PHASE = 1 ∧ s.dev.rd R.TWN_XFER_TOTAL ≠ 0#32 ∧ (s.dev.rd R.TWN_XFER_TOTAL).toNat ≤ (s.dev.rd R.TWN_XFER_DONE).toNat ∧ (s.dev.q.settle.get 300).balanced = true) ∧
  (∃ s : State, Awake s ∧ s.dev.cap.twin = true ∧ s.dev.twSt = twSyncing ∧ s.dev.f F.STATUS_TWN_PHASE = 1 ∧ s.dev.rd R.TWN_XFER_TOTAL ≠ 0#32 ∧ (s.dev.rd R.TWN_XFER_TOTAL).toNat ≤ (s.dev.rd R.TWN_XFER_DONE).toNat ∧ (s.dev.q.settle.get 300).balanced = false) ∧
  (∃ s : State, Awake s ∧ s.dev.cap.twin = true ∧ s.dev.twSt = twSyncing ∧ s.dev.f F.STATUS_TWN_PHASE = 3 ∧ s.dev.tw.held = []) ∧
  (∃ s : State, Awake s ∧ s.dev.cap.twin = true ∧ s.dev.twSt = twSyncing ∧ s.dev.f F.STATUS_TWN_PHASE = 4 ∧ 64 ≤ s.dev.tw.confirm) ∧
  (∃ s : State, ∃ c : CrcPass, TwinHears s c.good ∧ s.dev.twSt = twSyncing ∧ s.dev.f F.STATUS_TWN_PHASE = 2 ∧ s.dev.ownNext ≤ c.blk) ∧
  (∃ s : State, ∃ c : CrcPass, TwinHears s c.good ∧ s.dev.twSt = twSyncing ∧ (s.dev.f F.STATUS_TWN_PHASE ≠ 2 ∨ c.blk < s.dev.ownNext)) ∧
  (∃ s : State, ∃ b : BulkFrame, TwinHears s b.good ∧ s.dev.twCopy = true) ∧
  (∃ s : State, ∃ b : BlockFrame, TwinHears s b.good ∧ s.dev.twCopy = true ∧ s.dev.inMode mHalt = false ∧ s.dev.tw.frames.all (fun g => decide (g.blk < b.blk)) = true) ∧
  (∃ s : State, ∃ b : BlockFrame, TwinHears s b.good ∧ s.dev.twCopy = false ∧ s.dev.tw.last = some b.blk ∧ s.dev.tw.frames.all (fun g => decide (g.blk < b.blk)) = true) ∧
  (∃ s : State, ∃ b : BlockFrame, TwinHears s b.good ∧ s.dev.twCopy = true ∧ s.dev.inMode mHalt = false ∧ s.dev.tw.frames.any (fun g => decide (b.blk ≤ g.blk)) = true) ∧
  (∃ s : State, ∃ c : ChunkFrame, TwinHears s c.good ∧ s.dev.twSt = twSyncing ∧ s.dev.ownNext ≤ c.blk) ∧
  (∃ s : State, ∃ c : ChunkFrame, TwinHears s c.good ∧ s.dev.twSt = twSyncing ∧ c.blk < s.dev.ownNext) ∧
  (∃ s : State, ∃ b : Nat, ∃ own : Tbl QSlot, ∃ rest : List (Nat × Tbl QSlot), Awake s ∧ s.dev.cap.twin = true ∧ s.dev.tw.held = (b, own) :: rest ∧ b + s.dev.twLag < s.dev.nextDep ∧ ((s.dev.twCopy = false ∧ s.dev.tw.last ≠ some b) ∨ s.dev.tw.frames.any (fun f => f.blk == b) = true)) ∧
  (∃ s : State, ∃ b : Nat, ∃ own : Tbl QSlot, ∃ rest : List (Nat × Tbl QSlot), Awake s ∧ s.dev.cap.twin = true ∧ s.dev.tw.held = (b, own) :: rest ∧ (s.dev.nextDep ≤ b + s.dev.twLag ∨ ((s.dev.twCopy = true ∨ s.dev.tw.last = some b) ∧ s.dev.tw.frames.any (fun f => f.blk == b) = false))) ∧
  (∃ s : State, ∃ m : Agent, ∃ v : Word, ∃ r, Serves s m ∧ s.dev.cap.twin = true ∧ bit v 0 = true ∧ r ∈ [R.TWN_MISM_CNT, R.TWN_SKIP_CNT, R.TWN_TAKE_CNT, R.TWN_LINK_ERR_CNT, R.TWN_RESEND_CNT, R.TWN_WR_IGN_CNT]) :=
  ⟨⟨up (fun d => twin twActive (fun t => { t with bulkPend := [⟨.fir, 0, 0, 0⟩] }) (d.onQ (fun q => q.put 300 ⟨64, 60, 2, 2, 0⟩))), ⟨true, 2, some .fir, [(5, 1)]⟩, by decide⟩,
   ⟨up (twin twStandby (fun t => { t with sums := [(9, 0x1234, false)] })), 9, 0x1234, (9, 0x1234, false), by decide⟩,
   ⟨up (twin twStandby (fun t => { t with sums := [(9, 0x1234, false)] })), 9, 0x1235, (9, 0x1234, false), by decide⟩,
   ⟨up (fun d => twin twSyncing (fun t => { t with sums := [(9, 0x1234, false)] }) (d.setF F.STATUS_TWN_PHASE 4)), 9, (9, 0x1234, false), by decide⟩,
   ⟨up (twin twActive (fun t => { t with sums := [(9, 0x1234, true)] })), 9, false, (9, 0x1234, true), by decide⟩,
   ⟨up (twin twHello id), by decide⟩,
   ⟨up (fun d => twin twStandby id (d.setF F.TWN_CFG_LINKTAKE 1)), by decide⟩,
   ⟨up (twin twHello id), by decide⟩,
   ⟨up (twin twSolo (fun t => { t with closeAt := some 9 })), 9, 9, by decide⟩,
   ⟨up (twin twSolo (fun t => { t with openAt := some 9 })), 9, 9, by decide⟩,
   ⟨up (twin twSyncing (fun t => { t with skewN := 64 })), by decide⟩,
   ⟨up (twin twSolo id), by decide⟩,
   ⟨up (fun d => twin twSyncing id ((((d.setF F.STATUS_TWN_PHASE 1).wr R.TWN_XFER_TOTAL 5).wr R.TWN_XFER_DONE 5).onQ (fun q => q.put 300 (.fresh 64)))), by decide⟩,
   ⟨up (fun d => twin twSyncing id ((((d.setF F.STATUS_TWN_PHASE 1).wr R.TWN_XFER_TOTAL 5).wr R.TWN_XFER_DONE 5).onQ (fun q => q.put 300 ⟨64, 63, 0, 0, 0⟩))), by decide⟩,
   ⟨up (fun d => twin twSyncing id (d.setF F.STATUS_TWN_PHASE 3)), by decide⟩,
   ⟨up (fun d => twin twSyncing (fun t => { t with confirm := 64 }) (d.setF F.STATUS_TWN_PHASE 4)), by decide⟩,
   ⟨up (fun d => twin twSyncing id (d.setF F.STATUS_TWN_PHASE 2)), ⟨true, 9, 0, [5], false⟩, by decide⟩,
   ⟨up (twin twSyncing id), ⟨true, 9, 0, [5], false⟩, by decide⟩,
   ⟨up (twin twStandby id), ⟨true, ⟨.node, 0, 0, 0⟩, [5], false⟩, by decide⟩,
   ⟨up (twin twStandby id), ⟨true, 5, [], [], [], 0, 0, false, none⟩, by decide⟩,
   ⟨up (twin twSolo (fun t => { t with last := some 5 })), ⟨true, 5, [], [], [], 0, 0, false, none⟩, by decide⟩,
   ⟨up (twin twStandby (fun t => { t with frames := [⟨true, 5, [], [], [], 0, 0, false, none⟩] })), ⟨true, 5, [], [], [], 0, 0, false, none⟩, by decide⟩,
   ⟨up (fun d => twin twSyncing id ({ d with nextDep := 5 })), ⟨true, 9, 70, 5, .gsv State.reset.dev.gsv⟩, by decide⟩,
   ⟨up (fun d => twin twSyncing id ({ d with nextDep := 10 })), ⟨true, 9, 70, 5, .gsv State.reset.dev.gsv⟩, by decide⟩,
   ⟨up (fun d => twin twSolo (fun t => { t with held := [(5, [])] }) ({ d with nextDep := 9 })), 5, [], [], by decide⟩,
   ⟨up (fun d => twin twStandby (fun t => { t with held := [(5, [])] }) ({ d with nextDep := 6 })), 5, [], [], by decide⟩,
   ⟨up id, .pcie, 1, R.TWN_WR_IGN_CNT, by decide⟩⟩

theorem witness_TwinWire :
  (∃ w : World, ∃ c : CrcPass, w.dev.twSt = twSyncing ∧ w.dev.f F.STATUS_TWN_PHASE = 2 ∧ c.first = w.dev.tw.crcPos ∧ 0 < c.first ∧ c.last = true) ∧
  (∃ w : World, ∃ c : CrcPass, w.dev.twSt = twSyncing ∧ w.dev.f F.STATUS_TWN_PHASE = 2 ∧ c.first = w.dev.tw.crcPos ∧ 0 < c.first ∧ c.last = false) :=
  ⟨⟨⟨(up (fun d => twin twSyncing (fun t => { t with crcPos := 5 }) (d.setF F.STATUS_TWN_PHASE 2))).fuses, (up (fun d => twin twSyncing (fun t => { t with crcPos := 5 }) (d.setF F.STATUS_TWN_PHASE 2))).mem, (up (fun d => twin twSyncing (fun t => { t with crcPos := 5 }) (d.setF F.STATUS_TWN_PHASE 2))).dev⟩, ⟨true, 9, 5, [7], true⟩, by decide⟩,
   ⟨⟨(up (fun d => twin twSyncing (fun t => { t with crcPos := 5 }) (d.setF F.STATUS_TWN_PHASE 2))).fuses, (up (fun d => twin twSyncing (fun t => { t with crcPos := 5 }) (d.setF F.STATUS_TWN_PHASE 2))).mem, (up (fun d => twin twSyncing (fun t => { t with crcPos := 5 }) (d.setF F.STATUS_TWN_PHASE 2))).dev⟩, ⟨true, 9, 5, [7], false⟩, by decide⟩⟩

theorem witness_MemorySystemComplete :
  (∃ s : State, ∃ st : Nat, ∃ w : Nat, Awake s ∧ s.dev.scrubs = true ∧ st < 8 ∧ w < storeWords st) ∧
  (∃ s : State, Awake s ∧ s.dev.scrubs = false) ∧
  (∃ s : State, ∃ m : Agent, Serves s m ∧ (4 ≤ m.num ∧ m.num ≤ 7 ∨ m.num = 31)) ∧
  (∃ s : State, ∃ m : Agent, Serves s m ∧ (m.num < 4 ∨ (7 < m.num ∧ m.num ≠ 31))) ∧
  (∃ s : State, ∃ res : List (Bool × Nat), Awake s ∧ s.dev.checks = true ∧ (∀ r ∈ res, r.1 = true ∧ r.2 ≤ 4096) ∧ AllGood s [] 0x30000000 16 ∧ TopSegReady s) ∧
  (∃ s : State, ∃ res : List (Bool × Nat), ∃ k : Nat, ∃ r : Bool × Nat, Awake s ∧ s.dev.checks = true ∧ k < 14 ∧ (k = 10 → s.dev.topSeg ≠ none) ∧ res[k]? = some r ∧ (r.1 = false ∨ 4096 < r.2)) ∧
  (∃ s : State, ∃ m : Agent, ∃ k, Serves s m ∧ s.dev.cap.dram = true ∧ s.dev.inMode mShunt = true ∧ k < 8) ∧
  (∃ s : State, ∃ m : Agent, Serves s m ∧ (s.dev.cap.dram = false ∨ s.dev.inMode mShunt = false)) ∧
  (∃ s : State, ∃ n, ∃ k, Awake s ∧ s.dev.f F.DR_STATUS_STATE = drReady ∧ k ∈ zeroed s n) ∧
  (∃ s : State, ∃ n, Awake s ∧ (zeroed s n = [] ∨ s.dev.f F.DR_STATUS_STATE ≠ drReady)) ∧
  (∃ s : State, ∃ lanes : List Word, Awake s ∧ s.dev.cap.dram = true ∧ s.dev.f F.DR_STATUS_STATE = drTraining ∧ lanes.length = 4) ∧
  (∃ s : State, ∃ r : DramReq, ∃ q : DReq, Awake s ∧ s.dev.cap.dram = true ∧ drServed s r = some q ∧ q.port = 2 ∧ q.refuse = false ∧ s.dev.drAns q.addr = .data ∧ (q.write = false → AllGood s r.ecc q.addr q.size)) ∧
  (∃ s : State, ∃ r : DramReq, ∃ q : DReq, Awake s ∧ s.dev.cap.dram = true ∧ drServed s r = some q ∧ q.port = 2 ∧ (q.refuse = true ∨ s.dev.drAns q.addr ≠ .data ∨ (q.write = false ∧ ¬ AllGood s r.ecc q.addr q.size))) ∧
  (∃ s : State, ∃ r : DramReq, ∃ q : DReq, Awake s ∧ s.dev.cap.dram = true ∧ drServed s r = some q ∧ q.port < 2 ∧ q.refuse = false ∧ s.dev.drAns q.addr = .data) ∧
  (∃ s : State, ∃ r : DramReq, Awake s ∧ s.dev.cap.dram = true ∧ drServed s r = none) ∧
  (∃ s : State, ∃ l : Nat, Awake s ∧ s.dev.f F.DR_STATUS_STATE = drReady ∧ l < 4) ∧
  (∃ s : State, ∃ m : Agent, ∃ v : Word, Serves s m ∧ s.dev.cap.dram = true ∧ bit v 0 = true ∧ s.dev.inMode mShunt = true ∧ s.dev.f F.DR_STATUS_STATE ≠ 0) ∧
  (∃ s : State, ∃ m : Agent, ∃ v : Word, Serves s m ∧ (s.dev.cap.dram = false ∨ bit v 0 = false ∨ s.dev.inMode mShunt = false)) ∧
  (∃ s : State, ∃ m : Agent, ∃ v : Word, ∃ r, ∃ o, Serves s m ∧ bit v 0 = true ∧ r ∈ [R.MS_SCHK_FAIL_CNT, R.MS_UE_CNT, R.MS_UE_INFO, R.TG_WAIT_PEAK, R.DR_INORDER_CNT, R.DR_CE_CNT, R.DR_UE_CNT, R.DR_INVAL_CNT] ∧ o < 65536) ∧
  (∃ s : State, Awake s ∧ s.dev.cap.twin = true ∧ s.dev.twCopy = true ∧ s.dev.patternAt ≠ none) ∧
  (∃ s : State, ∃ a, Awake s ∧ s.dev.twCopy = true ∧ s.dev.patternAt = some a) ∧
  (∃ s : State, Awake s ∧ (s.dev.twCopy = false ∨ s.dev.patternAt = none)) ∧
  (∃ s : State, ∃ e : Fin 16, Awake s ∧ s.dev.twCopy = true ∧ e.val < s.dev.cap.engines ∧ (s.dev.vf.get e).run = false) ∧
  (∃ s : State, ∃ e : Fin 16, Awake s ∧ s.dev.cap.twin = true ∧ s.dev.twCopy = true ∧ e.val < s.dev.cap.engines ∧ (s.dev.vf.get e).run = false) :=
  ⟨⟨up (fun d => d.setF F.MS_SCRUB_EN 1), 1, 2097151, by decide⟩,
   ⟨up (fun d => d.wr R.MS_SCRUB 0x14), by decide⟩,
   ⟨up id, .debug, by decide⟩,
   ⟨up id, .pcie, by decide⟩,
   ⟨up (fun d => d.setF F.MS_SCHK_EN 1), [(true, 4096)], by decide, by decide, by decide, by decide, (by intro x h; cases h)⟩,
   ⟨up (fun d => d.setF F.MS_SCHK_EN 1), List.replicate 14 (true, 4097), 13, (true, 4097), by decide⟩,
   ⟨up id, .pcie, 7, by decide⟩,
   ⟨up (fun d => d.setF F.STATUS_SYS_MODE 3), .pcie, by decide⟩,
   ⟨up (fun d => (dram d).onMs (fun x => { x with zeroing := [7] })), 3, 7, by decide⟩,
   ⟨up (fun d => d.onMs (fun x => { x with zeroing := [7] })), 3, by decide⟩,
   ⟨up (fun d => d.setF F.DR_STATUS_STATE 1), [0x10100000#32, 0x10100000#32, 0x10100000#32, 0x0F100000#32], by decide⟩,
   ⟨up (fun d => (dram d).onMs (fun x => { x with drq := [⟨2, 0x100000000, true, 0, 0, 64, [], 0, 0, false, false⟩] })), ⟨[], 1, 0, 0, []⟩, ⟨2, 0x100000000, true, 0, 0, 64, [], 0, 0, false, false⟩, by decide⟩,
   ⟨up (fun d => (dram d).onMs (fun x => { x with drq := [⟨2, 0x2F0000000, false, 0, 0, 64, [], 0, 0, false, false⟩] })), ⟨[], 1, 0, 0, []⟩, ⟨2, 0x2F0000000, false, 0, 0, 64, [], 0, 0, false, false⟩, by decide⟩,
   ⟨up (fun d => (dram d).onMs (fun x => { x with drq := [⟨1, 0x100000040, true, 0, 0, 64, [], 0, 0, false, false⟩] })), ⟨[], 1, 0, 0, []⟩, ⟨1, 0x100000040, true, 0, 0, 64, [], 0, 0, false, false⟩, by decide⟩,
   ⟨up dram, ⟨[], 1, 0, 0, []⟩, by decide⟩,
   ⟨up (fun d => d.setF F.DR_STATUS_STATE 2), 1, by decide⟩,
   ⟨up (fun d => d.setF F.DR_STATUS_STATE 2), .pcie, 1, by decide⟩,
   ⟨up id, .pcie, 0, by decide⟩,
   ⟨up id, .pcie, 1, R.DR_INVAL_CNT, 65535, by decide⟩,
   ⟨up (fun d => twin twSyncing id ((let d := dram d; { d with cs := { d.cs with test := some 0 } }))), by decide⟩,
   ⟨up (fun d => twin twSyncing id ((let d := dram d; { d with cs := { d.cs with test := some 0 } }))), 0x101EFF000, by decide⟩,
   ⟨up id, by decide⟩,
   ⟨up (twin twSyncing id), 15, by decide⟩,
   ⟨up (twin twSyncing id), 15, by decide⟩⟩

theorem witness_MailboxesComplete :
  (∃ s : State, ∃ m : Agent, Serves s m ∧ s.dev.mbSel m < 32 ∧ s.dev.sender (s.dev.mbSel m) = m.num) ∧
  (∃ s : State, ∃ m : Agent, Serves s m ∧ (32 ≤ s.dev.mbSel m ∨ s.dev.sender (s.dev.mbSel m) ≠ m.num)) ∧
  (∃ s : State, ∃ m : Agent, ∃ v : Word, Serves s m ∧ (s.dev.mbSel m) < 32 ∧ s.dev.sender (s.dev.mbSel m) = m.num ∧ m.num ≠ 0 ∧ s.dev.receiver (s.dev.mbSel m) ≠ 0 ∧ (s.dev.mbx (s.dev.mbSel m)).occ = false ∧ bits v 0 5 ≠ 0 ∧ bits v 0 5 ≤ 16) ∧
  (∃ s : State, ∃ m : Agent, ∃ v : Word, Serves s m ∧ (s.dev.mbSel m) < 32 ∧ (s.dev.sender (s.dev.mbSel m) = 0 ∨ s.dev.receiver (s.dev.mbSel m) = 0 ∨ (s.dev.sender (s.dev.mbSel m) = m.num ∧ ((s.dev.mbx (s.dev.mbSel m)).occ = true ∨ bits v 0 5 = 0 ∨ 16 < bits v 0 5)))) ∧
  (∃ s : State, ∃ m : Agent, Serves s m ∧ (32 ≤ (s.dev.mbSel m) ∨ (s.dev.sender (s.dev.mbSel m) ≠ 0 ∧ s.dev.receiver (s.dev.mbSel m) ≠ 0 ∧ s.dev.sender (s.dev.mbSel m) ≠ m.num))) ∧
  (∃ s : State, ∃ m : Agent, Serves s m ∧ (s.dev.mbSel m) < 32 ∧ s.dev.receiver (s.dev.mbSel m) = m.num ∧ (s.dev.mbx (s.dev.mbSel m)).occ = true) ∧
  (∃ s : State, ∃ m : Agent, Serves s m ∧ (32 ≤ (s.dev.mbSel m) ∨ s.dev.receiver (s.dev.mbSel m) ≠ m.num ∨ (s.dev.mbx (s.dev.mbSel m)).occ = false)) ∧
  (∃ s : State, ∃ x : Fin 32, Awake s ∧ (s.dev.mbx x).occ = true ∧ (s.dev.mbx x).tout = false ∧ bits (s.dev.mbCfg x) 16 16 ≠ 0) ∧
  (∃ s : State, ∃ x : Fin 32, Awake s ∧ ((s.dev.mbx x).occ = false ∨ bits (s.dev.mbCfg x) 16 16 = 0)) ∧
  (∃ s : State, Awake s ∧ (∀ x : Fin 32, s.dev.mbOk x = true)) ∧
  (∃ s : State, ∃ x : Fin 32, Awake s ∧ s.dev.mbOk x = false) ∧
  (∃ s : State, ∃ m : Agent, ∃ v : Word, ∃ o, Serves s m ∧ bit v 0 = true ∧ o < 65536) ∧
  (∃ s : State, ∃ x : Fin 32, ∃ ws : List Word, ∃ rest : List (List Word), Awake s ∧ (s.dev.mbx x).occ = false ∧ Tbl.getD s.dev.hi.lost x 0 = 0 ∧ s.dev.heldOf x = ws :: rest) ∧
  (∃ s : State, ∃ x : Fin 32, Awake s ∧ (s.dev.mbx x).occ = true) ∧
  (∃ s : State, ∃ x : Fin 32, ∃ n, Awake s ∧ (s.dev.mbx x).occ = false ∧ Tbl.getD s.dev.hi.lost x 0 = n ∧ n ≠ 0) :=
  ⟨⟨up (fun d => mbox 31 (fun b => { b with occ := false }) (((d.wr (R.MB_CFG.of 31) 260).wr (R.MB_SEL.of 1) 31))), .pcie, by decide⟩,
   ⟨up (fun d => mbox 31 (fun b => { b with occ := false }) (((d.wr (R.MB_CFG.of 31) 516).wr (R.MB_SEL.of 1) 31))), .pcie, by decide⟩,
   ⟨up (fun d => mbox 31 (fun b => { b with occ := false }) (((d.wr (R.MB_CFG.of 31) 260).wr (R.MB_SEL.of 1) 31))), .pcie, 16, by decide⟩,
   ⟨up (fun d => mbox 31 (fun b => { b with occ := true }) (((d.wr (R.MB_CFG.of 31) 260).wr (R.MB_SEL.of 1) 31))), .pcie, 3, by decide⟩,
   ⟨up (fun d => mbox 31 (fun b => { b with occ := true }) (((d.wr (R.MB_CFG.of 31) 516).wr (R.MB_SEL.of 1) 31))), .pcie, by decide⟩,
   ⟨up (fun d => mbox 31 (fun b => { b with occ := true }) (((d.wr (R.MB_CFG.of 31) 1025).wr (R.MB_SEL.of 1) 31))), .pcie, by decide⟩,
   ⟨up (fun d => mbox 31 (fun b => { b with occ := true }) (((d.wr (R.MB_CFG.of 31) 260).wr (R.MB_SEL.of 1) 31))), .pcie, by decide⟩,
   ⟨up (fun d => mbox 31 (fun b => { b with occ := true }) (d.wr (R.MB_CFG.of 31) 0x00010104)), 31, by decide⟩,
   ⟨up id, 3, by decide⟩,
   ⟨up id, by decide⟩,
   ⟨up (mbox 31 (fun b => { b with occ := true })), 31, by decide⟩,
   ⟨up id, .pcie, 1, 65535, by decide⟩,
   ⟨up (fun d => d.onHi (fun h => { h with held := [(7, [[5]])] })), 7, [5], [], by decide⟩,
   ⟨up (mbox 31 (fun b => { b with occ := true })), 31, by decide⟩,
   ⟨up (fun d => d.onHi (fun h => { h with lost := [(7, 9)] })), 7, 9, by decide⟩⟩

theorem witness_HostSideComplete :
  (∃ s : State, ∃ m : Agent, ∃ v : Word, Serves s m ∧ (m.num = 2 ∨ m.num = 3) ∧ bit v 0 = true) ∧
  (∃ s : State, ∃ m : Agent, ∃ v : Word, Serves s m ∧ ((m.num ≠ 2 ∧ m.num ≠ 3) ∨ bit v 0 = false)) ∧
  (∃ s : State, ∃ m : Agent, ∃ v : Word, Serves s m ∧ qsAgent m = true ∧ bit v 31 = true) ∧
  (∃ s : State, ∃ m : Agent, Serves s m ∧ qsAgent m = false) ∧
  (∃ s : State, ∃ bs : List Byte, Awake s ∧ s.dev.fb F.QS_STAT_BUSY = true ∧ s.dev.hi.qs = none ∧ s.dev.fb F.QS_CMD_WRITE = false ∧ s.dev.hi.fifo.length + (min bs.length (s.dev.f F.QS_CMD_LEN) + 3) / 4 ≤ 64) ∧
  (∃ s : State, ∃ bs : List Byte, Awake s ∧ s.dev.fb F.QS_STAT_BUSY = true ∧ s.dev.hi.qs = none ∧ s.dev.fb F.QS_CMD_WRITE = false ∧ s.dev.hi.fifo.length ≤ 64 ∧ 64 < s.dev.hi.fifo.length + (min bs.length (s.dev.f F.QS_CMD_LEN) + 3) / 4) ∧
  (∃ s : State, Awake s ∧ s.dev.fb F.QS_STAT_BUSY = true ∧ s.dev.hi.qs = none ∧ s.dev.fb F.QS_CMD_WRITE = true ∧ (s.dev.f F.QS_CMD_LEN + 3) / 4 ≤ s.dev.hi.fifo.length) ∧
  (∃ s : State, Awake s ∧ s.dev.fb F.QS_STAT_BUSY = true ∧ s.dev.hi.qs = none ∧ s.dev.fb F.QS_CMD_WRITE = true ∧ s.dev.hi.fifo.length < (s.dev.f F.QS_CMD_LEN + 3) / 4) ∧
  (∃ s : State, Awake s ∧ (s.dev.fb F.QS_STAT_BUSY = false ∨ s.dev.hi.qs ≠ none)) ∧
  (∃ s : State, ∃ m : Agent, ∃ k : Fin 64, Serves s m ∧ s.dev.owner k = 0) ∧
  (∃ s : State, ∃ m : Agent, ∃ k : Fin 64, Serves s m ∧ s.dev.owner k ≠ 0) ∧
  (∃ s : State, ∃ m : Agent, ∃ k : Fin 64, Serves s m ∧ s.dev.owner k = m.num) ∧
  (∃ s : State, ∃ m : Agent, ∃ k : Fin 64, ∃ v : Word, Serves s m ∧ (v ≠ 0#32 ∨ s.dev.owner k ≠ m.num)) :=
  ⟨⟨up id, .i2c, 1, by decide⟩,
   ⟨up id, .pcie, 1, by decide⟩,
   ⟨up id, .debug, 0x80000000, by decide⟩,
   ⟨up id, .pcie, by decide⟩,
   ⟨up (fun d => ((d.setF F.QS_STAT_BUSY 1).setF F.QS_CMD_LEN 5).onHi (fun h => { h with fifo := [1, 2] })), [1, 2, 3, 4, 5, 6], by decide⟩,
   ⟨up (fun d => ((d.setF F.QS_STAT_BUSY 1).setF F.QS_CMD_LEN 5).onHi (fun h => { h with fifo := List.replicate 63 7 })), [1, 2, 3, 4, 5, 6], by decide⟩,
   ⟨up (fun d => (((d.setF F.QS_STAT_BUSY 1).setF F.QS_CMD_WRITE 1).setF F.QS_CMD_LEN 5).onHi (fun h => { h with fifo := [1, 2] })), by decide⟩,
   ⟨up (fun d => (((d.setF F.QS_STAT_BUSY 1).setF F.QS_CMD_WRITE 1).setF F.QS_CMD_LEN 5).onHi (fun h => { h with fifo := [1] })), by decide⟩,
   ⟨up id, by decide⟩,
   ⟨up id, .pcie, 63, by decide⟩,
   ⟨up (fun d => d.onHi (fun h => { h with locks := [(63, 5)] })), .pcie, 63, by decide⟩,
   ⟨up (fun d => d.onHi (fun h => { h with locks := [(63, 5)] })), .station 1, 63, by decide⟩,
   ⟨up (fun d => d.onHi (fun h => { h with locks := [(63, 5)] })), .pcie, 63, 0, by decide⟩⟩

theorem witness_HostCommandsComplete :
  (∃ s : State, ∃ h : Fin 3, ∃ c : Word, ∃ args : List Word, Asks s h 0x01 c args) ∧
  (∃ s : State, ∃ h : Fin 3, ∃ c : Word, Asks s h 0x02 c []) ∧
  (∃ s : State, ∃ h : Fin 3, ∃ c : Word, Asks s h 0x03 c []) ∧
  (∃ s : State, ∃ h : Fin 3, ∃ c : Word, ∃ args : List Word, Asks s h (bits c 0 16) c args ∧ fwCodes.contains (bits c 0 16) = false) ∧
  (∃ s : State, ∃ h : Fin 3, ∃ c : Word, ∃ a : Word, ∃ args : List Word, Awake s ∧ Asks s h 0x02 c (a :: args)) ∧
  (∃ s : State, ∃ h : Fin 3, ∃ c : Word, ∃ a : Word, ∃ args : List Word, Awake s ∧ Asks s h 0x03 c (a :: args)) ∧
  (∃ s : State, ∃ h : Fin 3, ∃ c : Word, ∃ a0 : Word, ∃ a1 : Word, Asks s h 0x10 c [a0, a1] ∧ a0.toNat ≤ 5 ∧ a0.toNat ≠ mMainline ∧ s.dev.ld = none ∧ (s.dev.twCopy = false ∨ a0.toNat ≠ mHalt)) ∧
  (∃ s : State, ∃ h : Fin 3, ∃ c : Word, ∃ a0 : Word, ∃ a1 : Word, ∃ a2 : Word, Asks s h 0x10 c [a0, a1, a2] ∧ a0.toNat = mMainline ∧ s.dev.ld = none ∧ s.dev.twCopy = false) ∧
  (∃ s : State, ∃ h : Fin 3, ∃ c : Word, ∃ a0 : Word, ∃ a1 : Word, ∃ a2 : Word, ∃ a3 : Word, Asks s h 0x20 c [a0, a1, a2, a3] ∧ s.dev.inMode mShunt = true ∧ s.dev.trans = false ∧ s.dev.ld = none ∧ (a0 = 0#32 ∨ a0 = 1#32 ∧ s.dev.cap.dram = true ∧ inDram (pair a1 a2) = true ∧ (mbTake (3 * h.val) s.dev).region (pair a1 a2) a3.toNat = true) ∧ a3.toNat % 4 = 0 ∧ 64 ≤ a3.toNat ∧ a3.toNat ≤ 67108864 ∧ lifeCycle s.fuses ≠ lcRetired) ∧
  (∃ s : State, ∃ h : Fin 3, ∃ c : Word, ∃ a0 : Word, ∃ a1 : Word, ∃ a2 : Word, ∃ a3 : Word, ∃ bs : List Byte, ∃ ecc : List EccHit, Asks s h 0x30 c [a0, a1, a2, a3] ∧ s.dev.ld = none ∧ 0 < a1.toNat ∧ a1.toNat ≤ 65536 ∧ a1.toNat ≤ bs.length ∧ FwReaches s a1 a2 a3 ∧ (⟨s.fuses, s.mem, mbTake (3 * h.val) s.dev⟩ : World).dev.region (pair a2 a3) a1.toNat = true ∧ (fwStore (pair a2 a3) (bs.take a1.toNat) ecc (⟨s.fuses, s.mem, mbTake (3 * h.val) s.dev⟩ : World)).1 = false) ∧
  (∃ s : State, ∃ h : Fin 3, ∃ c : Word, ∃ a0 : Word, ∃ a1 : Word, ∃ a2 : Word, ∃ a3 : Word, ∃ ecc : List EccHit, Asks s h 0x31 c [a0, a1, a2, a3] ∧ s.dev.ld = none ∧ a0.toNat % 256 = 0 ∧ FwReaches s a1 a2 a3 ∧ (mbTake (3 * h.val) s.dev).region (pair a2 a3) a1.toNat = true ∧ AllGood s ecc (pair a2 a3) a1.toNat) ∧
  (∃ s : State, ∃ h : Fin 3, ∃ c : Word, ∃ a0 : Word, ∃ a1 : Word, ∃ a2 : Word, ∃ a3 : Word, Asks s h 0x31 c [a0, a1, a2, a3] ∧ s.dev.ld = none ∧ a0.toNat % 256 ≠ 0 ∧ FwReaches s a1 a2 a3) ∧
  (∃ s : State, ∃ h : Fin 3, ∃ c : Word, ∃ a0 : Word, ∃ a1 : Word, Asks s h 0x32 c [a0, a1] ∧ s.dev.ld = none ∧ (a0.toNat % 4096 ≠ 0 ∨ a1.toNat % 4096 ≠ 0)) ∧
  (∃ s : State, ∃ h : Fin 3, ∃ c : Word, ∃ a0 : Word, ∃ a1 : Word, Asks s h 0x32 c [a0, a1] ∧ s.dev.ld = none ∧ a0.toNat % 4096 = 0 ∧ a1.toNat % 4096 = 0) :=
  ⟨⟨up (asked [0x5a030001, 1, 2, 3]), 2, 0x5a030001, [1, 2, 3], by decide⟩,
   ⟨up (asked [0x5a000002]), 2, 0x5a000002, by decide⟩,
   ⟨up (asked [0x5a000003]), 2, 0x5a000003, by decide⟩,
   ⟨up (asked [0x5a010099, 1]), 2, 0x5a010099, [1], by decide⟩,
   ⟨up (asked [0x5a010002, 7]), 2, 0x5a010002, 7, [], by decide⟩,
   ⟨up (asked [0x5a010003, 7]), 2, 0x5a010003, 7, [], by decide⟩,
   ⟨up (fun d => asked [0x5a020010, 5, 300] (calm 2 d)), 2, 0x5a020010, 5, 300, by decide⟩,
   ⟨up (fun d => asked [0x5a030010, 3, 300, 0] (calm 4 d)), 2, 0x5a030010, 3, 300, 0, by decide⟩,
   ⟨up (fun d => asked [0x5a040020, 0, 4096, 0, 64] (calm 2 d)), 2, 0x5a040020, 0, 4096, 0, 64, by decide⟩,
   ⟨up (asked [0x5a040030, 0, 2, 268435456, 0]), 2, 0x5a040030, 0, 2, 268435456, 0, [7, 8], [], by decide⟩,
   ⟨up (fun d => asked [0x5a040031, 256, 16, 0, 1] (dram d)), 2, 0x5a040031, 256, 16, 0, 1, [], by decide⟩,
   ⟨up (fun d => asked [0x5a040031, 257, 16, 0, 1] (dram d)), 2, 0x5a040031, 257, 16, 0, 1, by decide⟩,
   ⟨up (asked [0x5a020032, 4096, 8193]), 2, 0x5a020032, 4096, 8193, by decide⟩,
   ⟨up (asked [0x5a020032, 4096, 8192]), 2, 0x5a020032, 4096, 8192, by decide⟩⟩

theorem witness_HostServicesComplete :
  (∃ s : State, ∃ h : Fin 3, ∃ c : Word, ∃ args : List Word, Asks s h 0x40 c args) ∧
  (∃ s : State, ∃ h : Fin 3, ∃ c : Word, ∃ a : Word, Asks s h 0x41 c [a] ∧ 3 < a.toNat) ∧
  (∃ s : State, ∃ h : Fin 3, ∃ c : Word, ∃ a : Word, Asks s h 0x50 c [a] ∧ (a.toNat < 128 ∨ 255 < a.toNat)) ∧
  (∃ s : State, ∃ h : Fin 3, ∃ c : Word, ∃ a : Word, Asks s h 0x41 c [a] ∧ a.toNat ≤ 3) ∧
  (∃ s : State, ∃ h : Fin 3, ∃ c : Word, ∃ a : Word, Asks s h 0x50 c [a] ∧ 128 ≤ a.toNat ∧ a.toNat ≤ 255) ∧
  (∃ s : State, ∃ h : Fin 3, ∃ c : Word, ∃ a0 : Word, ∃ a1 : Word, ∃ a2 : Word, ∃ a3 : Word, ∃ k : Nat, ∃ rest : List Nat, ∃ ecc : List EccHit, Asks s h 0x60 c [a0, a1, a2, a3] ∧ FwReaches s a1 a2 a3 ∧ s.dev.ld = none ∧ a0.toNat ≤ 2 ∧ 0 < a1.toNat ∧ a1.toNat ≤ s.dev.bufBytes ∧ (mbTake (3 * h.val) s.dev).region (pair a2 a3) a1.toNat = true ∧ s.dev.npHas a0.toNat = true ∧ s.dev.net.free = k :: rest ∧ k < 4096 ∧ AllGood s ecc (pair a2 a3) a1.toNat ∧ FwStores s ecc (descBuf s.mem (s.dev.descAt k)).1 a1.toNat ∧ FwStores s ecc (s.dev.descAt k + 4) 8) ∧
  (∃ s : State, ∃ h : Fin 3, ∃ c : Word, ∃ a0 : Word, ∃ a1 : Word, ∃ a2 : Word, ∃ a3 : Word, Asks s h 0x60 c [a0, a1, a2, a3] ∧ FwReaches s a1 a2 a3 ∧ a0.toNat ≤ 2 ∧ 0 < a1.toNat ∧ a1.toNat ≤ s.dev.bufBytes ∧ (mbTake (3 * h.val) s.dev).region (pair a2 a3) a1.toNat = true ∧ s.dev.npHas a0.toNat = true ∧ s.dev.net.free = []) ∧
  (∃ s : State, ∃ h : Fin 3, ∃ c : Word, ∃ a0 : Word, ∃ a1 : Word, ∃ a2 : Word, ∃ a3 : Word, ∃ a4 : Word, Asks s h 0x61 c [a0, a1, a2, a3, a4] ∧ a0.toNat ≤ 7 ∧ a1.toNat < 65536 ∧ (a0.toNat = 2 → s.dev.cap.netb = true)) ∧
  (∃ s : State, ∃ h : Fin 3, ∃ c : Word, ∃ a : Word, ∃ r : RxRing, Asks s h 0x62 c [a] ∧ s.dev.hi.ring = some r ∧ a.toNat ∈ r.busy ∧ (∀ p : Fin 3, (s.dev.np p).rdy = [])) ∧
  (∃ s : State, ∃ h : Fin 3, ∃ c : Word, Asks s h 0x70 c []) ∧
  (∃ s : State, ∃ h : Fin 3, ∃ c : Word, Asks s h 0x80 c []) ∧
  (∃ s : State, ∃ h : Fin 3, ∃ c : Word, ∃ a : Word, ∃ args : List Word, Asks s h 0x81 c (a :: args) ∧ args.length = 8 ∧ bits a 0 2 < 3 ∧ bits a 0 2 = s.dev.se.parts.length) ∧
  (∃ s : State, ∃ h : Fin 3, ∃ c : Word, ∃ a : Word, ∃ args : List Word, Asks s h 0x81 c (a :: args) ∧ args.length = 8 ∧ bits a 0 2 ≠ s.dev.se.parts.length) ∧
  (∃ s : State, ∃ h : Fin 3, ∃ c : Word, ∃ a : Word, ∃ args : List Word, Asks s h 0x81 c (a :: args) ∧ args.length = 8 ∧ bits a 0 2 = 3 ∧ s.dev.se.parts.length = 3 ∧ s.dev.fb F.STATUS_SEC_UNLOCK_DIS = false ∧ (s.dev.lc = lcOpen ∨ s.dev.lc = lcSealed) ∧ s.dev.trans = false ∧ (s.dev.inMode mShunt = true ∨ s.dev.inMode mInspection = true) ∧ s.dev.se.attempt = none) :=
  ⟨⟨up (asked [0x5a030040, 1, 2, 3]), 2, 0x5a030040, [1, 2, 3], by decide⟩,
   ⟨up (asked [0x5a010041, 4]), 2, 0x5a010041, 4, by decide⟩,
   ⟨up (asked [0x5a010050, 127]), 2, 0x5a010050, 127, by decide⟩,
   ⟨up (asked [0x5a010041, 3]), 2, 0x5a010041, 3, by decide⟩,
   ⟨up (asked [0x5a010050, 255]), 2, 0x5a010050, 255, by decide⟩,
   ⟨{ up (fun d => asked [0x5a040060, 2, 64, 268435456, 0] ((d.wr R.NB_BASE 0x10000000).onNet (fun n => { n with free := [4095] }))) with mem := [(0x1000FFF1, 0x10), (0x1000FFF3, 0x10)] }, 2, 0x5a040060, 2, 64, 268435456, 0, 4095, [], [], by decide⟩,
   ⟨up (fun d => asked [0x5a040060, 2, 64, 268435456, 0] (d.onNet (fun n => { n with free := [] }))), 2, 0x5a040060, 2, 64, 268435456, 0, by decide⟩,
   ⟨up (asked [0x5a050061, 7, 65535, 268435456, 0, 4]), 2, 0x5a050061, 7, 65535, 268435456, 0, 4, by decide⟩,
   ⟨up (fun d => asked [0x5a010062, 3] (d.onHi (fun h => { h with ring := some ⟨7, 0, 0x10000000, 4, [3]⟩ }))), 2, 0x5a010062, 3, ⟨7, 0, 0x10000000, 4, [3]⟩, by decide⟩,
   ⟨up (asked [0x5a000070]), 2, 0x5a000070, by decide⟩,
   ⟨up (asked [0x5a000080]), 2, 0x5a000080, by decide⟩,
   ⟨up (asked [0x5a090081, 0, 9, 9, 9, 9, 9, 9, 9, 9]), 2, 0x5a090081, 0, List.replicate 8 9, by decide⟩,
   ⟨up (fun d => asked [0x5a090081, 2, 9, 9, 9, 9, 9, 9, 9, 9] (d.onSe (fun x => { x with parts := [(0, [5])] }))), 2, 0x5a090081, 2, List.replicate 8 9, by decide⟩,
   ⟨up (fun d => asked [0x5a090081, 259, 9, 9, 9, 9, 9, 9, 9, 9] ((calm 2 d).onSe (fun x => { x with parts := [(0, [5]), (1, [6]), (2, [7])], nonce := some [1] }))), 2, 0x5a090081, 259, List.replicate 8 9, by decide⟩⟩

theorem witness_LoadsComplete :
  (∃ s : State, ∃ c : Car, ∃ l : Load, Awake s ∧ s.dev.ld = some l ∧ streamFail l.cars c = none ∧ 4 * c.payload.length = c.len ∧ c.type ≠ tMemory ∧ c.type ≠ tTail ∧ cutShort (l.cars ++ [c]) = none) ∧
  (∃ s : State, ∃ c : Car, ∃ l : Load, ∃ f : CarFail, ∃ k : Nat, Awake s ∧ s.dev.ld = some l ∧ streamFail l.cars c = some f ∧ (l.src = 1 ∨ l.src = 2) ∧ l.next = some k) ∧
  (∃ s : State, Awake s ∧ s.dev.ld = none) ∧
  (∃ s : State, ∃ sel : Fin 4, ∃ dir : List Word, s.dev.md.boot = true ∧ s.dev.dark = false ∧ s.dev.md.insp = false ∧ sel.val < 2 ∧ lifeCycle s.fuses ≠ lcRetired ∧ dirOk dir = true ∧ wd dir 3 ≠ 0xFFFFFFFF#32) ∧
  (∃ s : State, ∃ sel : Fin 4, ∃ dir : List Word, s.dev.md.boot = true ∧ s.dev.dark = false ∧ s.dev.md.insp = false ∧ sel.val < 2 ∧ lifeCycle s.fuses ≠ lcRetired ∧ dirOk dir = true ∧ wd dir 3 = 0xFFFFFFFF#32) ∧
  (∃ s : State, ∃ sel : Fin 4, ∃ dir : List Word, s.dev.md.boot = true ∧ s.dev.dark = false ∧ s.dev.md.insp = false ∧ (2 ≤ sel.val ∨ lifeCycle s.fuses = lcRetired ∨ dirOk dir = false)) ∧
  (∃ s : State, s.dev.md.boot = true ∧ s.dev.dark = false ∧ s.dev.md.insp = true) ∧
  (∃ s : State, (s.dev.md.boot = false ∨ s.dev.dark = true)) ∧
  (∃ s : State, ∃ l : Load, ∃ k : Nat, Awake s ∧ s.dev.ld = some l ∧ (l.src = 1 ∨ l.src = 2) ∧ l.next = some k) ∧
  (∃ s : State, ∃ l : Load, Awake s ∧ s.dev.ld = some l ∧ (l.src = 1 ∨ l.src = 2) ∧ l.next = none) :=
  ⟨⟨up loading, ⟨0x02010000, 8, 0, 1, [1, 2]⟩, ⟨1, some 2, false, 0, 0, [⟨0x01010000, 64, 0, 0, [0x00010001, 1024, 9] ++ List.replicate 13 0⟩], 0, none⟩, by decide⟩,
   ⟨up loading, ⟨0x02010000, 8, 0, 9, [1, 2]⟩, ⟨1, some 2, false, 0, 0, [⟨0x01010000, 64, 0, 0, [0x00010001, 1024, 9] ++ List.replicate 13 0⟩], 0, none⟩, ⟨4, 0, (⟨0x02010000, 8, 0, 9, [1, 2]⟩ : Car).type, 1⟩, 2, by decide⟩,
   ⟨up id, by decide⟩,
   ⟨up id, 1, [0xF9B007D0, 0, 0, 0x1000, crc32c (leBytes [0xF9B007D0, 0, 0, 0x1000])], by decide⟩,
   ⟨up id, 1, [0xF9B007D0, 0, 0, 0xFFFFFFFF, crc32c (leBytes [0xF9B007D0, 0, 0, 0xFFFFFFFF])], by decide⟩,
   ⟨up id, 2, [], by decide⟩,
   ⟨up (fun d => d.onMd (fun m => { m with insp := true })), by decide⟩,
   ⟨up (calm 2), by decide⟩,
   ⟨up loading, ⟨1, some 2, false, 0, 0, [⟨0x01010000, 64, 0, 0, [0x00010001, 1024, 9] ++ List.replicate 13 0⟩], 0, none⟩, 2, by decide⟩,
   ⟨up (fun d => { d with ld := some ⟨2, none, false, 0, 0, [⟨0x01010000, 64, 0, 0, [0x00010001, 1024, 9] ++ List.replicate 13 0⟩], 0, none⟩ }), ⟨2, none, false, 0, 0, [⟨0x01010000, 64, 0, 0, [0x00010001, 1024, 9] ++ List.replicate 13 0⟩], 0, none⟩, by decide⟩⟩

theorem witness_ModesComplete :
  (∃ s : State, ∃ m : Agent, ∃ v : Word, TakesBy s m ∧ bits v 0 3 = mHalt ∧ s.dev.inMode mMainline = true) ∧
  (∃ s : State, ∃ m : Agent, ∃ v : Word, TakesBy s m ∧ bits v 0 3 = mMainline ∧ (s.dev.inMode mHalt = true ∨ s.dev.inMode mShunt = true ∧ s.dev.sb.curOk = true)) ∧
  (∃ s : State, ∃ m : Agent, ∃ v : Word, TakesBy s m ∧ bits v 0 3 = mShunt ∧ s.dev.inMode mMainline = true) ∧
  (∃ s : State, ∃ m : Agent, ∃ v : Word, TakesBy s m ∧ bits v 0 3 = mShunt ∧ (s.dev.inMode mHalt = true ∨ s.dev.inMode mInspection = true)) ∧
  (∃ s : State, ∃ m : Agent, ∃ v : Word, TakesBy s m ∧ bits v 0 3 = mInspection ∧ s.dev.inMode mShunt = true ∧ s.dev.inspOk = true) ∧
  (∃ s : State, ∃ m : Agent, ∃ v : Word, TakesBy s m ∧ bits v 0 3 = mInspection ∧ (s.dev.inMode mShunt = false ∨ s.dev.inspOk = false)) ∧
  (∃ s : State, ∃ m : Agent, ∃ v : Word, Serves s m ∧ (s.dev.md.boot = true ∨ s.dev.ld.isSome = true) ∧ bits v 0 3 = mShunt) ∧
  (∃ s : State, ∃ m : Agent, ∃ v : Word, Serves s m ∧ s.dev.twCopy = true ∧ m.num ≠ 24 ∧ bits v 0 3 = mHalt) ∧
  (∃ s : State, ∃ m : Agent, ∃ v : Word, TakesBy s m ∧ bits v 0 3 = mSiding ∧ s.dev.inMode mMainline = true ∧ s.dev.wakePend = false) ∧
  (∃ s : State, ∃ m : Agent, ∃ v : Word, TakesBy s m ∧ (bits v 0 3 = mSiding ∨ bits v 0 3 = mDepot) ∧ s.dev.wakePend = true) ∧
  (∃ s : State, ∃ m : Agent, ∃ v : Word, TakesBy s m ∧ bits v 0 3 = mSiding ∧ (s.dev.inMode mShunt = true ∨ s.dev.inMode mHalt = true) ∧ s.dev.wakePend = false) ∧
  (∃ s : State, ∃ m : Agent, ∃ v : Word, TakesBy s m ∧ (bit v 0 = true ∨ bits v 0 3 = mDepot) ∧ (s.dev.inMode mShunt = true ∨ s.dev.inMode mHalt = true) ∧ s.dev.wakePend = false) ∧
  (∃ s : State, ∃ m : Agent, ∃ v : Word, s.dev.dark = false ∧ s.dev.inMode mSiding = true ∧ s.dev.knocks m = false ∧ s.dev.lockedBy m.master = none ∧ bit v 0 = true ∧ s.dev.booting = false ∧ s.dev.trans = false ∧ s.dev.md.leave = none ∧ s.dev.md.resume = none ∧ s.dev.wakePend = false) ∧
  (∃ s : State, StepRuns s 2 false false ∧ s.dev.md.change = none ∧ (s.dev.cap.analog = false ∨ s.dev.aoDown false = true)) ∧
  (∃ s : State, StepRuns s 2 false false ∧ (s.dev.md.change.isSome = true ∨ s.dev.cap.analog = true ∧ s.dev.aoDown false = false)) ∧
  (∃ s : State, ∃ turned : Bool, StepRuns s 3 turned true) ∧
  (∃ s : State, StepRuns s 3 false false) ∧
  (∃ s : State, StepRuns s 3 true false ∧ s.dev.md.aim < 8) ∧
  (∃ s : State, StepRuns s 4 false false ∧ s.dev.f F.STATUS_SYS_TARGET = mSiding ∧ s.dev.mode ≠ mDepot ∧ s.dev.md.resume = none) ∧
  (∃ s : State, StepRuns s 5 false false ∧ s.dev.mode ≠ mDepot ∧ s.dev.se.pgm = none ∧ s.dev.se.burn = none) ∧
  (∃ s : State, StepRuns s 2 true true ∧ s.dev.inMode mSiding = true ∧ (s.dev.md.origin = mShunt ∨ s.dev.md.origin = mHalt) ∧ s.dev.md.resume = none ∧ s.dev.se.heldInsp = false) ∧
  (∃ s : State, ∃ m : Agent, s.dev.knocks m = true) ∧
  (∃ s : State, ∃ k, bit (s.dev.rd R.DP_WAKE_CAUSE) k = true ∧ s.dev.wakeEn k = true ∧ s.dev.inMode mSiding = true ∧ s.dev.trans = false) ∧
  (∃ s : State, ∃ k, bit (s.dev.rd R.DP_WAKE_CAUSE) k = true ∧ s.dev.wakeEn k = true ∧ s.dev.inMode mDepot = true ∧ s.dev.f F.STATUS_DP_RSTEP = 0) ∧
  (∃ s : State, ∃ k, bit (s.dev.rd R.DP_WAKE_CAUSE) k = true ∧ s.dev.wakeEn k = true ∧ s.dev.inMode mDepot = false ∧ s.dev.seqOn = true) ∧
  (∃ s : State, ∃ k, (bit (s.dev.rd R.DP_WAKE_CAUSE) k = false ∨ s.dev.wakeEn k = false)) ∧
  (∃ s : State, ∃ n : Fin 4, max 1 (s.dev.f F.JD_CFG_DEB) ≤ (Tbl.getD s.dev.ai.jd n .reset).cnt ∧ (Tbl.getD s.dev.ai.jd n .reset).cls < 8 ∧ (Tbl.getD s.dev.ai.jd n .reset).cls ≠ bits (s.dev.rd R.JD_STATUS) (4 * n) 3) ∧
  (∃ s : State, ∃ n : Fin 4, ((Tbl.getD s.dev.ai.jd n .reset).cnt < max 1 (s.dev.f F.JD_CFG_DEB) ∨ (Tbl.getD s.dev.ai.jd n .reset).cls = bits (s.dev.rd R.JD_STATUS) (4 * n) 3)) :=
  ⟨⟨up (calm 3), .pcie, 0x10004, by decide⟩,
   ⟨up (fun d => calm 2 (d.onSb (fun s => { s with curOk := true }))), .pcie, 0x103, by decide⟩,
   ⟨up (calm 3), .pcie, 2, by decide⟩,
   ⟨up (calm 4), .pcie, 2, by decide⟩,
   ⟨up (calm 2), .pcie, 5, by decide⟩,
   ⟨up (calm 4), .pcie, 5, by decide⟩,
   ⟨up id, .pcie, 2, by decide⟩,
   ⟨up (twin twSyncing id), .pcie, 4, by decide⟩,
   ⟨up (calm 3), .pcie, 0x10001, by decide⟩,
   ⟨up (fun d => ((calm 2 d).wr R.DP_WAKE_CAUSE 1).wr R.DP_WAKE_EN 1), .pcie, 0, by decide⟩,
   ⟨up (calm 4), .pcie, 1, by decide⟩,
   ⟨up (calm 2), .pcie, 0, by decide⟩,
   ⟨up (calm 1), .station 0, 1, by decide⟩,
   ⟨up (moving 1 2), by decide⟩,
   ⟨up (fun d => aout 11 (fun x => { x with step := 1 }) (moving 1 2 d)), by decide⟩,
   ⟨up (fun d => (moving 1 3 d).onMd (fun m => { m with back := true })), false, by decide⟩,
   ⟨up (moving 1 3), by decide⟩,
   ⟨up (moving 2 3), by decide⟩,
   ⟨up (moving 1 4), by decide⟩,
   ⟨up (moving 0 5), by decide⟩,
   ⟨up (fun d => (((moving 2 2 d).setF F.STATUS_SYS_MODE 1)).onMd (fun m => { m with back := true })), by decide⟩,
   ⟨up (calm 1), .spi, by decide⟩,
   ⟨up (fun d => (calm 1 d).wr R.DP_WAKE_CAUSE 0x80), 7, by decide⟩,
   ⟨up (fun d => (((calm 0 d).wr R.DP_WAKE_CAUSE 8).wr R.DP_WAKE_EN 8).setF F.STATUS_DP_RSTEP 0), 3, by decide⟩,
   ⟨up (fun d => (moving 1 3 d).wr R.DP_WAKE_CAUSE 0x80), 7, by decide⟩,
   ⟨up id, 0, by decide⟩,
   ⟨up (fun d => d.onAi (fun a => { a with jd := [(3, ⟨7, 256⟩)] })), 3, by decide⟩,
   ⟨up id, 3, by decide⟩⟩

theorem witness_ResetsComplete :
  (∃ s : State, (s.dev.f F.STATUS_DP_RSTEP = 1 ∨ s.dev.f F.STATUS_DP_RSTEP = 2)) ∧
  (∃ s : State, s.dev.f F.STATUS_DP_RSTEP = 0 ∧ s.dev.inMode mDepot = false) ∧
  (∃ s : State, s.dev.f F.STATUS_DP_RSTEP = 3 ∧ s.dev.inMode mDepot = false) ∧
  (∃ s : State, s.dev.f F.STATUS_DP_RSTEP = 3 ∧ s.dev.inMode mDepot = true) ∧
  (∃ s : State, s.dev.se.pgm = none ∧ s.dev.se.burn = none) ∧
  (∃ s : State, ∃ k : Nat, ∃ v : Word, s.dev.se.pgm = some (k, v)) ∧
  (∃ s : State, s.dev.dark = true) ∧
  (∃ s : State, s.dev.dark = false ∧ s.dev.se.pgm = none ∧ s.dev.se.burn = none) ∧
  (∃ s : State, ∃ m : Agent, ∃ v : Word, Serves s m ∧ bits v 8 8 = 0x5A ∧ bit v 0 = true ∧ s.dev.se.pgm = none ∧ s.dev.se.burn = none) ∧
  (∃ s : State, ∃ m : Agent, ∃ v : Word, Serves s m ∧ (bits v 8 8 ≠ 0x5A ∨ bit v 0 = false)) ∧
  (∃ s : State, ∃ m : Agent, ∃ v : Word, ∃ n, Serves s m ∧ 2 ≤ n ∧ n ≤ 5 ∧ bit v n = true ∧ s.dev.fb F.TWN_CFG_EN = true ∧ s.dev.inMode mShunt = false ∧ s.dev.inMode mInspection = false) ∧
  (∃ s : State, ∃ m : Agent, ∃ v : Word, ∃ n, Serves s m ∧ 2 ≤ n ∧ n ≤ 15 ∧ bit v n = true ∧ s.dev.fb F.TWN_CFG_EN = false) ∧
  (∃ s : State, s.dev.dark = false ∧ s.dev.se.pgm = none ∧ s.dev.se.burn = none) :=
  ⟨⟨up (fun d => d.setF F.STATUS_DP_RSTEP 2), by decide⟩,
   ⟨up (fun d => (calm 2 d).setF F.STATUS_DP_RSTEP 0), by decide⟩,
   ⟨up (fun d => (calm 2 d).setF F.STATUS_DP_RSTEP 3), by decide⟩,
   ⟨up (fun d => (calm 0 d).setF F.STATUS_DP_RSTEP 3), by decide⟩,
   ⟨up id, by decide⟩,
   ⟨up (fun d => d.onSe (fun x => { x with pgm := some (15, 9) })), 15, 9, by decide⟩,
   ⟨up (calm 0), by decide⟩,
   ⟨up id, by decide⟩,
   ⟨up id, .pcie, 0x5A01, by decide⟩,
   ⟨up id, .pcie, 0x5A00, by decide⟩,
   ⟨up (fun d => (calm 3 d).setF F.TWN_CFG_EN 1), .pcie, 0x20, 5, by decide⟩,
   ⟨up id, .pcie, 0x8000, 15, by decide⟩,
   ⟨up id, by decide⟩⟩

theorem witness_SecurityComplete :
  (∃ s : State, ∃ m : Agent, ∃ v : Word, Serves s m ∧ bits v 8 8 = 0xA5 ∧ s.dev.inMode mShunt = true ∧ s.dev.trans = false ∧ s.dev.f F.CFG_STATUS_STATE = 0 ∧ hostOrCore m = true ∧ s.dev.se.burn = none ∧ lcAllowed s.dev.lc (bits v 0 2) (s.dev.fb F.STATUS_SEC_KEYSET) = true) ∧
  (∃ s : State, ∃ m : Agent, ∃ v : Word, Serves s m ∧ bits v 8 8 = 0xA5 ∧ (s.dev.inMode mShunt = false ∨ hostOrCore m = false ∨ lcAllowed s.dev.lc (bits v 0 2) (s.dev.fb F.STATUS_SEC_KEYSET) = false)) ∧
  (∃ s : State, ∃ m : Agent, ∃ v : Word, Serves s m ∧ bits v 8 8 ≠ 0xA5) ∧
  (∃ s : State, ∃ k, s.dev.se.burn = some (k + 1) ∧ s.dev.se.pgm = none) ∧
  (∃ s : State, ∃ k, s.dev.se.burn = some (k + 1)) ∧
  (∃ s : State, ∃ m : Agent, ∃ v : Word, Serves s m ∧ bit v 31 = true ∧ bits v 8 8 = 0xC3 ∧ s.dev.lc ≤ lcDev ∧ s.dev.inMode mShunt = true ∧ hostOrCore m = true ∧ 8 ≤ bits v 0 7 ∧ bits v 0 7 < 16 ∧ s.dev.se.pgm = none) ∧
  (∃ s : State, ∃ m : Agent, ∃ v : Word, Serves s m ∧ bit v 31 = true ∧ (bits v 8 8 ≠ 0xC3 ∨ lcDev < s.dev.lc ∨ s.dev.inMode mShunt = false ∨ hostOrCore m = false ∨ bits v 0 7 < 8 ∨ 16 ≤ bits v 0 7)) ∧
  (∃ s : State, ∃ k, ∃ v : Word, s.dev.se.pgm = some (k, v)) ∧
  (∃ s : State, ∃ k, ∃ v : Word, s.dev.se.pgm = some (k, v)) ∧
  (∃ s : State, s.dev.dark = false ∧ s.dev.secStep = false) ∧
  (∃ s : State, s.dev.dark = false ∧ s.dev.secStep = true) ∧
  (∃ (s : State) (a : Attempt), s.dev.se.attempt = some a ∧ passes s.fuses a = true) ∧
  (∃ s : State, ∃ a : Attempt, s.dev.se.attempt = some a ∧ passes s.fuses a = false) ∧
  (∃ s : State, ∃ m : Agent, ∃ v : Word, Serves s m ∧ bit v 0 = true ∧ s.dev.fb F.STATUS_SEC_UNLOCKED = true) ∧
  (∃ s : State, ∃ m : Agent, ∃ v : Word, TakesBy s m ∧ bit v 0 = true ∧ s.dev.fb F.STATUS_SEC_UNLOCKED = true ∧ s.dev.lc = lcSealed ∧ s.dev.inMode mInspection = true) ∧
  (∃ s : State, ∃ m : Agent, ∃ v : Word, Serves s m ∧ (bit v 0 = false ∨ s.dev.fb F.STATUS_SEC_UNLOCKED = false)) ∧
  (∃ s : State, s.dev.se.attempt = none) :=
  ⟨⟨up (fun d => d.setF F.STATUS_SEC_KEYSET 1), .station 3, 0xA502, by decide⟩,
   ⟨up id, .pcie, 0xA500, by decide⟩,
   ⟨up id, .pcie, 0xA401, by decide⟩,
   ⟨up (fun d => d.onSe (fun x => { x with burn := some 3 })), 2, by decide⟩,
   ⟨up (fun d => d.onSe (fun x => { x with burn := some 3 })), 2, by decide⟩,
   ⟨up id, .pcie, 0x8000C30F, by decide⟩,
   ⟨up id, .pcie, 0x8000C307, by decide⟩,
   ⟨up (fun d => d.onSe (fun x => { x with pgm := some (15, 9) })), 15, 9, by decide⟩,
   ⟨up (fun d => d.onSe (fun x => { x with pgm := some (15, 9) })), 15, 9, by decide⟩,
   ⟨up (calm 2), by decide⟩,
   ⟨up id, by decide⟩,
   ⟨{ up (fun d => d.onSe (fun x => { x with attempt := some sig0 })) with fuses := keyFuses }, sig0, rfl, by decide +kernel⟩,
   ⟨up (fun d => d.onSe (fun x => { x with attempt := some { sig0 with msg := none } })), { sig0 with msg := none }, by decide⟩,
   ⟨up (fun d => d.setF F.STATUS_SEC_UNLOCKED 1), .pcie, 1, by decide⟩,
   ⟨up (fun d => ((calm 5 d).setF F.STATUS_SEC_UNLOCKED 1).setF F.STATUS_SEC_LC 2), .pcie, 1, by decide⟩,
   ⟨up id, .pcie, 0, by decide⟩,
   ⟨up id, by decide⟩⟩

theorem witness_DebugPortComplete :
  (∃ s : State, s.dev.dark = false) ∧
  (∃ s : State, s.dev.dark = false) ∧
  (∃ s : State, s.dev.dark = false) ∧
  (∃ s : State, TapOn s ∧ s.dev.level ≠ 0) ∧
  (∃ s : State, TapOn s ∧ s.dev.level ≠ 0 ∧ s.dev.inMode mInspection = true) ∧
  (∃ s : State, TapOn s ∧ s.dev.level = 0) ∧
  (∃ s : State, TapOn s ∧ (s.dev.level = 0 ∨ s.dev.inMode mInspection = false)) ∧
  (∃ s : State, s.dev.dark = false ∧ s.dev.inMode mSiding = true) ∧
  (∃ s : State, TapOn s) ∧
  (∃ s : State, TapOn s) ∧
  (∃ s : State, TapOn s) ∧
  (∃ s : State, s.dev.dark = false ∧ s.dev.inMode mSiding = true) ∧
  (∃ s : State, Takes s ∧ s.dev.fb F.STATUS_SEC_ATTACH = true ∧ s.dev.inMode mShunt = true ∧ s.dev.inspOk = true) ∧
  (∃ s : State, TapOn s ∧ s.dev.fb F.STATUS_SEC_ATTACH = false) ∧
  (∃ s : State, s.dev.dark = false ∧ s.dev.inMode mSiding = true) ∧
  (∃ s : State, s.dev.dark = false ∧ s.dev.inMode mSiding = true) ∧
  (∃ s : State, TapOn s ∧ (s.dev.fb F.STATUS_SEC_UNLOCK_DIS = true ∨ s.dev.lc = lcRetired)) ∧
  (∃ s : State, TapOn s) ∧
  (∃ s : State, TapOn s ∧ s.dev.fb F.STATUS_SEC_UNLOCK_DIS = false ∧ s.dev.lc = lcDev ∧ s.dev.trans = false) ∧
  (∃ s : State, TapOn s ∧ s.dev.fb F.STATUS_SEC_UNLOCK_DIS = false ∧ (s.dev.lc = lcOpen ∨ s.dev.lc = lcSealed) ∧ s.dev.trans = false ∧ (s.dev.inMode mShunt = true ∨ s.dev.inMode mInspection = true) ∧ s.dev.se.attempt = none) :=
  ⟨⟨up id, by decide⟩,
   ⟨up id, by decide⟩,
   ⟨up id, by decide⟩,
   ⟨up (fun d => ((calm 2 d).setF F.STATUS_SEC_ATTACH 1)), by decide⟩,
   ⟨up (fun d => ((calm 5 d).setF F.STATUS_SEC_ATTACH 1)), by decide⟩,
   ⟨up id, by decide⟩,
   ⟨up id, by decide⟩,
   ⟨up (calm 1), by decide⟩,
   ⟨up id, by decide⟩,
   ⟨up id, by decide⟩,
   ⟨up id, by decide⟩,
   ⟨up (calm 1), by decide⟩,
   ⟨up (fun d => ((calm 2 d).setF F.STATUS_SEC_ATTACH 1)), by decide⟩,
   ⟨up id, by decide⟩,
   ⟨up (calm 1), by decide⟩,
   ⟨up (calm 1), by decide⟩,
   ⟨up (fun d => d.setF F.STATUS_SEC_UNLOCK_DIS 1), by decide⟩,
   ⟨up id, by decide⟩,
   ⟨up (fun d => d.setF F.STATUS_SEC_LC 1), by decide⟩,
   ⟨up (fun d => (calm 5 d).setF F.STATUS_SEC_LC 2), by decide⟩⟩

theorem witness_PortsFrame :
  (∃ i : Instr, ∃ s : State, ∃ t : State, isTdm i = true ∧ exec i s = .next t) ∧
  (∃ s : State, ∃ t : State, ∃ p : Fin 16, ∃ fr, ∃ k, k ≠ p.val ∧ exec (.tdmFrame p fr) s = .next t) ∧
  (∃ s : State, ∃ t : State, ∃ p : Fin 16, ∃ tx, ∃ slot, ∃ k, k ≠ p.val ∧ exec (.slotZcSwitch p tx slot) s = .next t) ∧
  (∃ s : State, ∃ t : State, ∃ p : Fin 16, ∃ k, k ≠ p.val ∧ exec (.portLock p) s = .next t) ∧
  (∃ s : State, ∃ t : State, ∃ p : Fin 16, ∃ k, k ≠ p.val ∧ exec (.zcTo p) s = .next t) :=
  ⟨⟨.portLock 15, up id, _, by decide, rfl⟩,
   ⟨up id, _, 15, ⟨0, [], 0, 0, false⟩, 14, by decide, rfl⟩,
   ⟨up id, _, 15, false, 1, 14, by decide, rfl⟩,
   ⟨up id, _, 15, 14, by decide, rfl⟩,
   ⟨up id, _, 15, 14, by decide, rfl⟩⟩

theorem witness_NetworkFrame :
  (∃ i : Instr, ∃ s : State, ∃ t : State, isNet i = true ∧ i.wellFormed = true ∧ exec i s = .next t) ∧
  (∃ i : Instr, ∃ s : State, ∃ t : State, isArrival i = true ∧ i.wellFormed = true ∧ exec i s = .next t) ∧
  (∃ s : State, ∃ t : State, ∃ p, ∃ r, exec (.txDone p r) s = .next t) :=
  ⟨⟨.nbAlloc .pcie, up id, _, by decide, by decide, rfl⟩,
   ⟨.frameReceive 2 ⟨List.replicate 60 0, 0, 0, 0, 0, []⟩, up id, _, by decide, by decide, rfl⟩,
   ⟨up id, _, 2, ⟨true, false, 0, 0, []⟩, rfl⟩⟩

theorem witness_TimeFrame :
  (∃ i : Instr, ∃ s : State, ∃ t : State, isTime i = true ∧ exec i s = .next t) ∧
  (∃ i : Instr, ∃ s : State, ∃ t : State, isRefs i = true ∧ exec i s = .next t) :=
  ⟨⟨.tiOfss .pcie 5, up id, _, by decide, rfl⟩,
   ⟨.holdoffExpire 7, up id, _, by decide, rfl⟩⟩

theorem witness_AnalogFrame :
  (∃ i : Instr, ∃ s : State, ∃ t : State, isAnalogIn i = true ∧ exec i s = .next t) ∧
  (∃ i : Instr, ∃ s : State, ∃ t : State, isAnalogOut i = true ∧ exec i s = .next t) :=
  ⟨⟨.fvalidSet 7, up id, _, by decide, rfl⟩,
   ⟨.aoDwellEnd 11, up id, _, by decide, rfl⟩⟩

theorem witness_SolverFrame :
  ∃ i : Instr, ∃ s : State, ∃ t : State, isGsv i = true ∧ exec i s = .next t :=
  ⟨.ringErr, up id, _, by decide, rfl⟩

theorem witness_RendererFrame :
  (∃ i : Instr, ∃ s : State, ∃ t : State, isCrm i = true ∧ s.dev.crm.nout ≤ 1024 ∧ exec i s = .next t) ∧
  (∃ i : Instr, ∃ s : State, ∃ t : State, isCce i = true ∧ i.wellFormed = true ∧ s.dev.crm.nout ≤ 1024 ∧ exec i s = .next t) :=
  ⟨⟨.copyDone, up id, _, by decide, by decide, rfl⟩,
   ⟨.fldErr 0, up id, _, by decide, by decide, by decide, rfl⟩⟩

theorem witness_SignalBoxFrame :
  (∃ i : Instr, ∃ s : State, ∃ t : State, isSbox i = true ∧ exec i s = .next t) ∧
  (∃ i : Instr, ∃ s : State, ∃ t : State, isItem i = true ∧ exec i s = .next t) :=
  ⟨⟨.gldStartAfterOld, up id, _, by decide, rfl⟩,
   ⟨.itemStart 15, up id, _, by decide, rfl⟩⟩

theorem witness_TwinFrame :
  (∃ i : Instr, ∃ s : State, ∃ t : State, isTwin i = true ∧ exec i s = .next t) ∧
  (∃ s : State, ∃ t : State, ∃ good, exec (.dramPatternTest good) s = .next t) :=
  ⟨⟨.synced, up id, _, by decide, rfl⟩,
   ⟨up id, _, true, rfl⟩⟩

theorem witness_MemorySystemFrame :
  (∃ i : Instr, ∃ s : State, ∃ t : State, isMsys i = true ∧ i.wellFormed = true ∧ exec i s = .next t) ∧
  (∃ s : State, ∃ t : State, ∃ k, exec (.lockTo k) s = .next t) :=
  ⟨⟨.drInitDone 3, up id, _, by decide, by decide, rfl⟩,
   ⟨up id, _, 9, rfl⟩⟩

theorem witness_HostSideFrame :
  (∃ i : Instr, ∃ s : State, ∃ t : State, isMbox i = true ∧ exec i s = .next t) ∧
  (∃ i : Instr, ∃ s : State, ∃ t : State, isService i = true ∧ exec i s = .next t) ∧
  (∃ s : State, ∃ t : State, ∃ m : Agent, ∃ k : Fin 64, ∃ j, j ≠ k.val ∧ exec (.lockRead m k) s = .next t) ∧
  (∃ s : State, ∃ t : State, ∃ m : Agent, ∃ k : Fin 64, ∃ v : Word, ∃ j, j ≠ k.val ∧ exec (.lockWrite m k v) s = .next t) :=
  ⟨⟨.mbAudit, up id, _, by decide, rfl⟩,
   ⟨.ping 2, up id, _, by decide, rfl⟩,
   ⟨up id, _, .pcie, 63, 62, by decide, rfl⟩,
   ⟨up id, _, .pcie, 63, 0, 62, by decide, rfl⟩⟩

theorem witness_ModesDebugFrame :
  (∃ i : Instr, ∃ s : State, ∃ t : State, isMode i = true ∧ exec i s = .next t) ∧
  (∃ i : Instr, ∃ s : State, ∃ t : State, isTap i = true ∧ exec i s = .next t) ∧
  (∃ i : Instr, ∃ s : State, ∃ t : State, isDebugCtl i = true ∧ exec i s = .next t) ∧
  (∃ s : State, ∃ t : State, ∃ m : Agent, ∃ v : Word, exec (.tkaClr m v) s = .next t) ∧
  (∃ s : State, ∃ t : State, ∃ n, exec (.queueSlotFilled n) s = .next t) ∧
  (∃ s : State, ∃ t : State, ∃ n, exec (.ticketReturn n) s = .next t) :=
  ⟨⟨.wake 7, up id, _, by decide, rfl⟩,
   ⟨.idcode, up id, _, by decide, rfl⟩,
   ⟨.trstN, up id, _, by decide, rfl⟩,
   ⟨up id, _, .pcie, 1, rfl⟩,
   ⟨up id, _, 5, rfl⟩,
   ⟨up id, _, 5, rfl⟩⟩

theorem witness_BundleFrame :
  (∃ i : Instr, ∃ s : State, ∃ t : State, ∃ e : Fin 16, ∃ o : Std, stdRow i = some (e, o) ∧ exec i s = .next t) ∧
  (∃ i : Instr, ∃ s : State, ∃ t : State, ∃ e : Fin 16, immRow i = some e ∧ exec i s = .next t) :=
  ⟨⟨.vAdd 15 std0, up (engine id), _, 15, std0, by decide, rfl⟩,
   ⟨.ldi 15 imm0, up (engine id), _, 15, by decide, rfl⟩⟩

theorem witness_MemoryAndFusesKept :
  (∃ i : Instr, ∃ s : State, ∃ t : State, touchesMem i = false ∧ exec i s = .next t) ∧
  (∃ i : Instr, ∃ s : State, ∃ t : State, touchesFuses i = false ∧ exec i s = .next t) :=
  ⟨⟨.mbAudit, up id, _, by decide, rfl⟩,
   ⟨.mbAudit, up id, _, by decide, rfl⟩⟩

theorem witness_FabricStoresFrame :
  (∃ s : State, ∃ t : State, ∃ m : Agent, ∃ a : Nat, ∃ v : Word, ∃ ecc : List EccHit, ∃ x : Nat, s.dev.targetOf a ≠ some 11 ∧ spares (wordChosen s false m true a v true ecc) x ∧ exec (.unlockingWrite m a v ecc) s = .next t) ∧
  (∃ s : State, ∃ t : State, ∃ m : Agent, ∃ a : Nat, ∃ ecc : List EccHit, exec (.lockedRead m a ecc) s = .next t) ∧
  (∃ s : State, ∃ t : State, ∃ g : Grant, ∃ x : Nat, spares (chosen (issued s g).dev g.tgt.val g.write g.cyc) x ∧ exec (.fabricGrant g) s = .next t) ∧
  (∃ s : State, ∃ t : State, ∃ a : Nat, ∃ v : Word, ∃ ecc : List EccHit, ∃ x : Nat, s.dev.targetOf (a % 2 ^ 40) ≠ some 11 ∧ spares (wordChosen s true .debug true (a % 2 ^ 40) v false ecc) x ∧ exec (.dbgMem true a v ecc) s = .next t) ∧
  (∃ s : State, ∃ t : State, ∃ a : Nat, ∃ v : Word, ∃ ecc : List EccHit, exec (.dbgMem false a v ecc) s = .next t) :=
  ⟨⟨up id, _, .station 0, 0x10000000, 5, [], 0x10000004, by decide, (by intro w h; cases h; decide), rfl⟩,
   ⟨up id, _, .pcie, 0x10000000, [], rfl⟩,
   ⟨up id, _, ⟨9, true, 0, [⟨0, some (.station 0), 0, 0, true, 0x10000000, 4, [some 1, some 0, some 0, some 0x80], false, []⟩]⟩, 0x10000004, (by intro w h; cases h; decide), rfl⟩,
   ⟨up id, _, 0x10000000, 5, [], 0x10000004, by decide, (by intro w h; cases h; decide), rfl⟩,
   ⟨up id, _, 0x10000000, 5, [], rfl⟩⟩

theorem witness_UnitStoresFrame :
  (∃ s : State, ∃ t : State, ∃ res : List (Bool × Nat), ∃ x : Nat, (∀ k a n, k < 14 → s.dev.checkArea k = some (a, n, true) → outside a n x) ∧ exec (.selfCheck res) s = .next t) ∧
  (∃ s : State, ∃ t : State, ∃ n : Nat, ∃ x : Nat, (∀ k ∈ zeroed s n, outside (drBase + k * s.dev.segBytes) s.dev.segBytes x) ∧ exec (.drInitDone n) s = .next t) ∧
  (∃ s : State, ∃ t : State, ∃ r : DramReq, ∃ x : Nat, (∀ q, drServed s r = some q → q.write = true → outside q.addr q.data.length x) ∧ exec (.dramRequest r) s = .next t) ∧
  (∃ s : State, ∃ t : State, ∃ good : Bool, ∃ x : Nat, (∀ a, s.dev.patternAt = some a → outside a (2 ^ 20) x) ∧ exec (.dramPatternTest good) s = .next t) ∧
  (∃ s : State, ∃ t : State, ∃ p : Fin 3, ∃ fr : RxFrame, ∃ i : Instr, ∃ x : Nat, i ∈ [.frameReceive p fr, .streamPacketRx p fr, .metadataPacket p fr] ∧ (∀ k rest, s.dev.net.free = k :: rest → outside (descBuf s.mem (s.dev.descAt k)).1 fr.bytes.length x ∧ outside (s.dev.descAt k + 4) 8 x) ∧ (∀ r, s.dev.hi.ring = some r → ∀ n, n < r.count → outside (r.addr + 2048 * n) 2048 x) ∧ exec i s = .next t) ∧
  (∃ s : State, ∃ t : State, ∃ e : Fin 16, ∃ c : Fin 4, ∃ waited : Nat, ∃ ecc : List EccHit, ∃ x : Nat, (∀ a, ((ctxOf s e.val).chan c.val).act = some a → if a.kind = 1 then outside a.ext (4 * a.n) x else ∀ i, i < a.n → outside (localAddr e.val a.y (a.word + i)) 4 x) ∧ exec (.xferDone e c waited ecc) s = .next t) :=
  ⟨⟨up id, _, [], 5, (by intro k a n h e; rcases k with _|_|_|_|_|_|_|_|_|_|_|_|_|_|k <;> first | omega | (cases e; done) | (cases e; decide)), rfl⟩,
   ⟨up (fun d => (dram d).onMs (fun x => { x with zeroing := [7] })), _, 1, 0xFFFFFFFF, by decide, rfl⟩,
   ⟨up id, _, ⟨[], 0, 0, 0, []⟩, 5, (by intro q h; cases h), rfl⟩,
   ⟨up id, _, true, 5, (by intro a h; cases h), rfl⟩,
   ⟨up id, _, 1, ⟨[], 0, 0, 0, 0, []⟩, .frameReceive 1 ⟨[], 0, 0, 0, 0, []⟩, 5, by decide, (by intro k r h; cases h), (by intro r h; cases h), rfl⟩,
   ⟨up (engine (busy ⟨1, true, 32767, 1, 0x20000000, false, [], 0⟩)), _, 15, 3, 0, [], 0x20000004, (by intro a h; cases h; decide), rfl⟩⟩

theorem witness_DescriptorAgents :
  ∃ s : State, ∃ m : Agent, Serves s m ∧ (m.num < 4 ∨ 7 < m.num) :=
  ⟨up id, .virif 0, ⟨by decide, by decide⟩, by decide⟩

theorem witness_StepTakesFront :
  (∃ i : Instr, ∃ rest : List Instr, ∃ s : State, s.pending = i :: rest) ∧
  (∃ s : State, s.pending = []) :=
  ⟨⟨.mbAudit, [.synced], { up id with pending := [.mbAudit, .synced] }, rfl⟩,
   ⟨up id, rfl⟩⟩

theorem witness_StepKeepsInv :
  ∃ s : State, ∃ t : State, Sys2Proof.Inv s ∧ step s = .next t :=
  ⟨{ up id with pending := [.synced] }, _, ⟨by decide, by decide⟩, rfl⟩

theorem witness_FusesStayBurned :
  ∃ s : State, ∃ t : State, step s = .next t :=
  ⟨{ up id with pending := [.lcBurnDone true] }, _, rfl⟩

end Sys2Proof.Tests
end

section
/-!
PROOFS. The move slots of a Virif engine (05_virif_engines.md R146, R149, R152, R155, R165, R168): what the local memories hold after a
bundle's stores (13_memory.md R368, R369; log 95), what a slot does, how a bundle without arithmetic ends, and from these
`Obligations.VirifMoves`. X and Y memory are apart, so that the slot on one side is read off whatever the other one does.
-/
namespace Sys2Proof.Moves

open Sys2Proof.Machine

/-! ### Words in memory -/

theorem byteOf_sum (v : Word) :
    w32 ((byteOf v.toNat 0).toNat + (byteOf v.toNat 1).toNat * 2 ^ 8 + (byteOf v.toNat 2).toNat * 2 ^ 16 +
      (byteOf v.toNat 3).toNat * 2 ^ 24) = v := by
  have hv := v.isLt
  apply BitVec.eq_of_toNat_eq
  simp only [w32, byteOf, BitVec.toNat_ofNat, Nat.shiftRight_eq_div_pow]
  omega

@[simp] theorem rd32_wr32_same (m : Memory) (a : Nat) (v : Word) : Memory.rd32 (Memory.wr32 m a v) a = v := by
  simpa [Memory.rd32, Memory.wr32, Memory.rd8_wr8] using byteOf_sum v

theorem rd32_wr32_apart (m : Memory) {a b : Nat} (v : Word) (h : b + 4 ≤ a ∨ a + 4 ≤ b) :
    Memory.rd32 (Memory.wr32 m a v) b = Memory.rd32 m b := by
  have keep : ∀ i, i < 4 → Memory.rd8 (Memory.wr32 m a v) (b + i) = Memory.rd8 m (b + i) :=
    fun i hi => Memory.rd8_wr32_other m a (b + i) v (by omega)
  have h0 := keep 0 (by omega)
  rw [Nat.add_zero] at h0
  rw [Memory.rd32, Memory.rd32, h0, keep 1 (by omega), keep 2 (by omega), keep 3 (by omega)]

/-! ### The local memories as stores (R142, R367) -/

/-- The 64-bit word of engine `e`'s store that holds local word `w` of the memory that `y` says. -/
def localWord (e : Nat) (y : Bool) (w : Nat) : Nat := e * 40960 + (if y then 24576 else 8192) + w % 32768 / 2

theorem localWord_ne_side (e : Nat) (y : Bool) (w v : Nat) : localWord e (!y) v ≠ localWord e y w := by
  cases y <;> simp only [localWord, Bool.not_true, Bool.not_false, if_true, Bool.false_eq_true, if_false] <;> omega

theorem localAddr_apart (e : Nat) (y : Bool) (w v : Nat) :
    localAddr e (!y) v + 4 ≤ localAddr e y w ∨ localAddr e y w + 4 ≤ localAddr e (!y) v := by
  cases y <;> simp only [localAddr, Bool.not_true, Bool.not_false, if_true, Bool.false_eq_true, if_false] <;> omega

/-- The second word of a pair at an even address stands 4 bytes up (R149). -/
theorem localAddr_succ (e : Nat) (y : Bool) {w : Nat} (h : w % 2 = 0) : localAddr e y (w + 1) = localAddr e y w + 4 := by
  simp only [localAddr]; omega

theorem storeOf_virif (e : Fin 16) (off : Nat) (hw : winMem off = true) (hoff : off < 2 ^ 20) :
    storeOf (virifBase e + off) = some (2, e.val * 40960 + virifWord off) := by
  have he := e.isLt
  have hlo : 0x40000000 ≤ virifBase e + off := by simp only [virifBase]; omega
  have hhi : virifBase e + off < 0x41000000 := by simp only [virifBase]; omega
  have hmod : (virifBase e + off) % 1048576 = off := by simp only [virifBase]; omega
  have hmod' : (virifBase e + off - 0x40000000) % 1048576 = off := by simp only [virifBase]; omega
  have hdiv : (virifBase e + off - 0x40000000) / 1048576 = e.val := by simp only [virifBase]; omega
  have ha : inAudio (virifBase e + off) = false := by simp [inAudio]; omega
  have hn : inNodes (virifBase e + off) = false := by simp [inNodes]; omega
  have hv : inVirif (virifBase e + off) = true := by simp [inVirif]; omega
  simp [storeOf, ha, hn, hv, hmod, hmod', hdiv, hw]

/-- The offset of a local word in its engine's window. -/
def localOff (y : Bool) (w : Nat) : Nat := (if y then 0x40000 else 0x20000) + 4 * (w % 32768)

theorem localAddr_eq (e : Nat) (y : Bool) (w : Nat) : localAddr e y w = virifBase e + localOff y w := by
  simp [localAddr, localOff, Nat.add_assoc]

theorem winMem_localOff (y : Bool) (w : Nat) : winMem (localOff y w / 8 * 8) = true := by
  cases y <;> simp [winMem, localOff] <;> omega

/-- X and Y memory stand above the gap of the engine's window. -/
theorem localOff_ge (y : Bool) (w : Nat) : 0x20000 ≤ localOff y w := by
  cases y <;> simp only [localOff, if_true, Bool.false_eq_true, if_false] <;> omega

theorem virifWord_above {off : Nat} (h : 0x20000 ≤ off) : virifWord off = (off - 0x10000) / 8 := by
  rw [virifWord, if_neg (by omega)]

theorem virifWord_localOff (e : Nat) (y : Bool) (w : Nat) : e * 40960 + virifWord (localOff y w) = localWord e y w := by
  rw [virifWord_above (localOff_ge y w)]
  cases y <;> simp only [localOff, localWord, if_true, Bool.false_eq_true, if_false] <;> omega

/-- The aligned 64-bit word around a local word is one word of the engines' store. -/
theorem storeOf_wordOf_local (e : Fin 16) (y : Bool) (w : Nat) :
    storeOf (localAddr e y w / 8 * 8) = some (2, localWord e y w) := by
  have hb : localAddr e y w / 8 * 8 = virifBase e + localOff y w / 8 * 8 := by
    rw [localAddr_eq]; simp only [virifBase]; omega
  have hlt : localOff y w / 8 * 8 < 2 ^ 20 := by cases y <;> simp [localOff] <;> omega
  rw [hb, storeOf_virif e _ (winMem_localOff y w) hlt, ← virifWord_localOff]
  have hge := localOff_ge y w
  rw [virifWord_above hge, virifWord_above (by omega : 0x20000 ≤ localOff y w / 8 * 8)]
  have hword : (localOff y w / 8 * 8 - 0x10000) / 8 = (localOff y w - 0x10000) / 8 := by omega
  rw [hword]

theorem storeOf_local (e : Fin 16) (y : Bool) (w : Nat) : storeOf (localAddr e y w) = some (2, localWord e y w) := by
  have hm : winMem (localOff y w) = true := by cases y <;> simp [winMem, localOff] <;> omega
  have hlt : localOff y w < 2 ^ 20 := by cases y <;> simp [localOff] <;> omega
  rw [localAddr_eq, storeOf_virif e _ hm hlt, virifWord_localOff]

/-! ### Uncorrectable words (13_memory.md R368, R369) -/

theorem badWord_local (d : Dev) (e : Fin 16) (y : Bool) (w : Nat) :
    d.badWord (localAddr e y w) = d.ms.bad.contains (2, localWord e y w) := by
  rw [Dev.badWord, storeOf_local]

theorem badWord_wordOf_local (d : Dev) (e : Fin 16) (y : Bool) (w : Nat) :
    d.badWord (localAddr e y w / 8 * 8) = d.badWord (localAddr e y w) := by
  rw [Dev.badWord, Dev.badWord, storeOf_wordOf_local, storeOf_local]

theorem badWord_congr {d d' : Dev} (h : d'.ms = d.ms) (a : Nat) : d'.badWord a = d.badWord a := by
  rw [Dev.badWord, Dev.badWord, h]

theorem storeHeal_contains (st k : Nat) (d : Dev) {p : Nat × Nat} (h : p ≠ (st, k)) :
    (storeHeal st k d).ms.bad.contains p = d.ms.bad.contains p := by
  rw [Bool.eq_iff_iff]
  simp [storeHeal, List.mem_filter, h]

/-- An uncorrectable word that is found is counted, raises its event and may be recorded, all in registers (R368). -/
theorem ueCount_cases (st w m : Nat) (d : Dev) :
    ueCount st w m d = (d.bump R.MS_UE_CNT).evt Ev.MS_UE ∨
    ∃ v, ueCount st w m d = ((d.bump R.MS_UE_CNT).evt Ev.MS_UE).wr R.MS_UE_INFO v := by
  cases h : (!((d.bump R.MS_UE_CNT).evt Ev.MS_UE).fb F.MS_UE_INFO_VALID)
  · exact Or.inl (by simp only [ueCount, Dev.when, h, Bool.false_eq_true, if_false])
  · exact Or.inr ⟨w32 (2 ^ 31 + st * 2 ^ 28 + m * 2 ^ 24 + w % 2 ^ 22), by simp only [ueCount, Dev.when, h, if_true]⟩

theorem ueCount_ms (st w m : Nat) (d : Dev) : (ueCount st w m d).ms = d.ms := by
  rcases ueCount_cases st w m d with h | ⟨v, h⟩ <;> rw [h] <;> rfl

theorem unitUe_vf (st w m : Nat) (d : Dev) : (unitUe st w m d).vf = d.vf := by
  rw [unitUe, storeMark, Dev.onMs_vf]
  rcases ueCount_cases st w m d with h | ⟨v, h⟩ <;> rw [h] <;> rfl

theorem unitUe_evt (st w m : Nat) (d : Dev) : evtBit (unitUe st w m d) Ev.MS_UE = true := by
  have hset : evtBit ((d.bump R.MS_UE_CNT).evt Ev.MS_UE) Ev.MS_UE = true := Dev.evt_bit _ Ev.MS_UE (by decide)
  have hrd : (unitUe st w m d).rd (evtReg Ev.MS_UE.blk) = (ueCount st w m d).rd (evtReg Ev.MS_UE.blk) := rfl
  rw [evtBit, hrd]
  rcases ueCount_cases st w m d with h | ⟨v, h⟩
  · rw [h]; exact hset
  · rw [h, Dev.rd_wr_other _ _ (by decide)]; exact hset

theorem unitUe_contains (st w m : Nat) (d : Dev) {p : Nat × Nat} (h : p ≠ (st, w)) :
    (unitUe st w m d).ms.bad.contains p = d.ms.bad.contains p := by
  rw [unitUe, storeMark, Dev.onMs_ms, ueCount_ms]
  split
  · rfl
  · rw [List.contains_cons, beq_eq_false_iff_ne.2 h, Bool.false_or]

/-! ### One word stored into a local memory (R368, R369) -/

/-- The four bytes of an aligned word lie in one 64-bit word. -/
theorem inWord_word (a : Nat) (v : Word) (h : a % 4 = 0) :
    inWord a ((wordBytes v).map some) (a / 8 * 8) =
      [(a, byteOf v.toNat 0), (a + 1, byteOf v.toNat 1), (a + 2, byteOf v.toNat 2), (a + 3, byteOf v.toNat 3)] := by
  have h0 : a / 8 = a / 8 * 8 / 8 := by omega
  have h1 : (a + 1) / 8 = a / 8 * 8 / 8 := by omega
  have h2 : (a + 2) / 8 = a / 8 * 8 / 8 := by omega
  have h3 : (a + 3) / 8 = a / 8 * 8 / 8 := by omega
  have hb : ((wordBytes v).map some).zipIdx =
      [(some (byteOf v.toNat 0), 0), (some (byteOf v.toNat 1), 1), (some (byteOf v.toNat 2), 2), (some (byteOf v.toNat 3), 3)] := rfl
  rw [inWord, hb]
  simp [← h0, h1, h2, h3]

theorem wordsIn_word (a : Nat) (h : a % 4 = 0) : wordsIn a 4 = [a / 8 * 8] := by
  have hn : (a % 8 + 4 + 7) / 8 = 1 := by omega
  simp [wordsIn, hn]

theorem localAddr_mod (e : Nat) (y : Bool) (w : Nat) : localAddr e y w % 4 = 0 := by
  cases y <;> simp [localAddr, virifBase] <;> omega

/-- A word stored alone into a good 64-bit word is written. -/
theorem bytesPut_good (e : Fin 16) (y : Bool) (w : Nat) (v : Word) (mem : Memory) (d : Dev)
    (h : d.badWord (localAddr e y w) = false) :
    bytesPut unitUe unitPort (localAddr e y w) ((wordBytes v).map some) [] mem d =
      (false, Memory.wr32 mem (localAddr e y w) v, d) := by
  have hl : ((wordBytes v).map some).length = 4 := rfl
  have hbad := badWord_wordOf_local d e y w
  rw [h] at hbad
  simp [bytesPut, hl, wordsIn_word _ (localAddr_mod e y w), wordPut, inWord_word _ v (localAddr_mod e y w), storeOf_wordOf_local,
    Dev.loses, hbad, Dev.when, Memory.wr32]

/-- A word stored alone into an uncorrectable 64-bit word is not written. -/
theorem bytesPut_bad (e : Fin 16) (y : Bool) (w : Nat) (v : Word) (mem : Memory) (d : Dev)
    (h : d.badWord (localAddr e y w) = true) :
    bytesPut unitUe unitPort (localAddr e y w) ((wordBytes v).map some) [] mem d =
      (true, mem, unitUe 2 (localWord e y w) unitPort d) := by
  have hl : ((wordBytes v).map some).length = 4 := rfl
  have hbad := badWord_wordOf_local d e y w
  rw [h] at hbad
  simp [bytesPut, hl, wordsIn_word _ (localAddr_mod e y w), wordPut, inWord_word _ v (localAddr_mod e y w), storeOf_wordOf_local,
    Dev.loses, hbad, wordUe]

theorem engStore_single (e : Nat) (y : Bool) (w : Nat) (v : Word) (a : Memory × Dev) :
    engStore e y [(w, v)] a = (bytesPut unitUe unitPort (localAddr e y w) ((wordBytes v).map some) [] a.1 a.2).2 := by
  simp [engStore]

/-- A single word stored into a good 64-bit word reads back. -/
theorem engStore_single_good (e : Fin 16) (y : Bool) (w : Nat) (v : Word) (a : Memory × Dev)
    (h : a.2.badWord (localAddr e y w) = false) : rdLocal (engStore e y [(w, v)] a).1 e y w = v := by
  rw [engStore_single, bytesPut_good e y w v a.1 a.2 h, rdLocal, rd32_wr32_same]

/-- A single word stored into half of an uncorrectable word leaves memory alone and raises the event. -/
theorem engStore_single_bad (e : Fin 16) (y : Bool) (w : Nat) (v : Word) (a : Memory × Dev)
    (h : a.2.badWord (localAddr e y w) = true) :
    (engStore e y [(w, v)] a).1 = a.1 ∧ evtBit (engStore e y [(w, v)] a).2 Ev.MS_UE = true := by
  rw [engStore_single, bytesPut_bad e y w v a.1 a.2 h]
  exact ⟨rfl, unitUe_evt _ _ _ _⟩

/-- Both words of a pair stored at an even address read back, whether the 64-bit word was good or not. -/
theorem engStore_pair (e : Nat) (y : Bool) {w : Nat} (v v' : Word) (a : Memory × Dev) (h : w % 2 = 0) :
    rdLocal (engStore e y [(w, v), (w + 1, v')] a).1 e y w = v ∧
    rdLocal (engStore e y [(w, v), (w + 1, v')] a).1 e y (w + 1) = v' := by
  have hhalf : (w + 1) / 2 = w / 2 := by omega
  have hmem : (engStore e y [(w, v), (w + 1, v')] a).1 =
      Memory.wr32 (Memory.wr32 a.1 (localAddr e y w) v) (localAddr e y w + 4) v' := by
    simp [engStore, hhalf, localAddr_succ e y h]
  rw [hmem, rdLocal, rdLocal, localAddr_succ e y h, rd32_wr32_same, rd32_wr32_apart _ _ (Or.inl (Nat.le_refl _)), rd32_wr32_same]
  exact ⟨rfl, rfl⟩

/-! ### What a store into one local memory keeps -/

/-- From `a` to `b`, stores into the memory of engine `e` on the side `y` kept the engines, the words of the memory on the other side and
their errors, and the event of an uncorrectable word. -/
structure OtherSideKept (e : Nat) (y : Bool) (a b : Memory × Dev) : Prop where
  engines : b.2.vf = a.2.vf
  words : ∀ w, rdLocal b.1 e (!y) w = rdLocal a.1 e (!y) w
  errors : ∀ w, b.2.badWord (localAddr e (!y) w) = a.2.badWord (localAddr e (!y) w)
  event : evtBit a.2 Ev.MS_UE = true → evtBit b.2 Ev.MS_UE = true

theorem OtherSideKept.refl (e : Nat) (y : Bool) (a : Memory × Dev) : OtherSideKept e y a a :=
  ⟨rfl, fun _ => rfl, fun _ => rfl, id⟩

theorem OtherSideKept.trans {e : Nat} {y : Bool} {a b c : Memory × Dev} (h : OtherSideKept e y a b) (h' : OtherSideKept e y b c) :
    OtherSideKept e y a c :=
  ⟨h'.engines.trans h.engines, fun w => (h'.words w).trans (h.words w), fun w => (h'.errors w).trans (h.errors w), h'.event ∘ h.event⟩

theorem rdLocal_wr32_other_side (m : Memory) (e : Nat) (y : Bool) (w u : Nat) (v : Word) :
    rdLocal (Memory.wr32 m (localAddr e y w) v) e (!y) u = rdLocal m e (!y) u :=
  rd32_wr32_apart _ _ (localAddr_apart e y w u)

/-- A word that replaces its half of a whole 64-bit word. -/
theorem otherSideKept_whole (e : Fin 16) (y : Bool) (w : Nat) (v : Word) (a : Memory × Dev) :
    OtherSideKept e y a (Memory.wr32 a.1 (localAddr e y w) v, storeHeal 2 (localWord e y w) a.2) where
  engines := rfl
  words u := rdLocal_wr32_other_side a.1 e y w u v
  errors u := by
    rw [badWord_local, badWord_local, storeHeal_contains _ _ _ (by simp [localWord_ne_side])]
  event := id

/-- A word stored alone. -/
theorem otherSideKept_single (e : Fin 16) (y : Bool) (w : Nat) (v : Word) (a : Memory × Dev) :
    OtherSideKept e y a (bytesPut unitUe unitPort (localAddr e y w) ((wordBytes v).map some) [] a.1 a.2).2 := by
  cases h : a.2.badWord (localAddr e y w)
  case false =>
    rw [bytesPut_good e y w v a.1 a.2 h]
    exact ⟨rfl, fun u => rdLocal_wr32_other_side a.1 e y w u v, fun _ => rfl, id⟩
  case true =>
    rw [bytesPut_bad e y w v a.1 a.2 h]
    refine ⟨unitUe_vf _ _ _ _, fun _ => rfl, fun u => ?_, fun _ => unitUe_evt _ _ _ _⟩
    rw [badWord_local, badWord_local, unitUe_contains _ _ _ _ (by simp [localWord_ne_side])]

theorem engStore_otherSideKept (e : Fin 16) (y : Bool) (ws : List (Nat × Word)) (a : Memory × Dev) :
    OtherSideKept e y a (engStore e y ws a) := by
  unfold engStore
  refine List.foldlRecOn ws _ (OtherSideKept.refl e y a) (fun b hb p _ => hb.trans ?_)
  dsimp only
  split
  · rw [storeOf_local]; exact otherSideKept_whole e y p.1 p.2 b
  · exact otherSideKept_single e y p.1 p.2 b

/-! ### What a slot does (R146, R149, R152) -/

/-- A slot with the move operation `n`. -/
def withMop (sl : Slot) (n : Fin 8) : Slot := { sl with mop := n }

theorem withMop_ptr (sl : Slot) (n : Fin 8) : (withMop sl n).ptr = sl.ptr := rfl
theorem withMop_am (sl : Slot) (n : Fin 8) : (withMop sl n).am = sl.am := rfl
theorem withMop_reg (sl : Slot) (n : Fin 8) : (withMop sl n).reg = sl.reg := rfl

/-- A slot whose move has no fault is a legal one, and a pair move of it goes to an even address. -/
theorem slotMove_sound {rd : Nat → Word} {c : Ctx} {y : Bool} {s : Slot} (h : (slotMove rd c y s).bad = none) :
    s.legal c (if y then 8 + s.ptr.val else s.ptr.val) = true ∧ (s.isPair = true → moveAddr c y s 2 % 2 = 0) := by
  unfold slotMove at h
  cases hl : s.legal c (if y then 8 + s.ptr.val else s.ptr.val)
  case false => simp [hl, Move.fail] at h
  case true =>
    refine ⟨rfl, fun hp => ?_⟩
    rcases Nat.mod_two_eq_zero_or_one (moveAddr c y s 2) with heven | hodd
    · exact heven
    · rw [moveAddr] at hodd
      simp [hl, hp, hodd, Move.fail] at h

section effects
variable {rd : Nat → Word} {c : Ctx} {y : Bool} {sl : Slot}

theorem slotMove_loadWord (h : (slotMove rd c y (withMop sl 1)).bad = none) :
    (slotMove rd c y (withMop sl 1)).dw = [(sl.reg.val, rd (moveAddr c y sl 1))] := by
  obtain ⟨hl, -⟩ := slotMove_sound h
  rw [withMop_ptr] at hl
  have hm : (withMop sl 1).mop.val = 1 := rfl
  have hp : (withMop sl 1).isPair = false := rfl
  simp only [slotMove, hl, hp, hm, withMop_ptr, withMop_am, withMop_reg, moveAddr, Bool.not_true, Bool.false_and, Bool.false_eq_true, if_false]

theorem slotMove_storeWord (h : (slotMove rd c y (withMop sl 2)).bad = none) :
    (slotMove rd c y (withMop sl 2)).sw = [(moveAddr c y sl 1, c.dr sl.reg.val)] := by
  obtain ⟨hl, -⟩ := slotMove_sound h
  rw [withMop_ptr] at hl
  have hm : (withMop sl 2).mop.val = 2 := rfl
  have hp : (withMop sl 2).isPair = false := rfl
  simp only [slotMove, hl, hp, hm, withMop_ptr, withMop_am, withMop_reg, moveAddr, Bool.not_true, Bool.false_and, Bool.false_eq_true, if_false]

theorem slotMove_loadPair (h : (slotMove rd c y (withMop sl 3)).bad = none) :
    (slotMove rd c y (withMop sl 3)).dw =
      [(sl.reg.val, rd (moveAddr c y sl 2)), (sl.reg.val + 1, rd (moveAddr c y sl 2 + 1))] := by
  obtain ⟨hl, he⟩ := slotMove_sound h
  rw [withMop_ptr] at hl
  have hm : (withMop sl 3).mop.val = 3 := rfl
  have hp : (withMop sl 3).isPair = true := rfl
  have heven : (moveAddr c y (withMop sl 3) 2 % 2 == 1) = false := by rw [he hp]; rfl
  rw [moveAddr, withMop_ptr, withMop_am] at heven
  simp only [slotMove, hl, hp, hm, heven, withMop_ptr, withMop_am, withMop_reg, moveAddr, Bool.not_true, Bool.and_false, Bool.false_eq_true,
    if_true, if_false]

theorem slotMove_storePair (h : (slotMove rd c y (withMop sl 4)).bad = none) :
    (slotMove rd c y (withMop sl 4)).sw =
      [(moveAddr c y sl 2, c.dr sl.reg.val), (moveAddr c y sl 2 + 1, c.dr (sl.reg.val + 1))] := by
  obtain ⟨hl, he⟩ := slotMove_sound h
  rw [withMop_ptr] at hl
  have hm : (withMop sl 4).mop.val = 4 := rfl
  have hp : (withMop sl 4).isPair = true := rfl
  have heven : (moveAddr c y (withMop sl 4) 2 % 2 == 1) = false := by rw [he hp]; rfl
  rw [moveAddr, withMop_ptr, withMop_am] at heven
  simp only [slotMove, hl, hp, hm, heven, withMop_ptr, withMop_am, withMop_reg, moveAddr, Bool.not_true, Bool.and_false, Bool.false_eq_true,
    if_true, if_false]

theorem slotMove_storeAcc (h : (slotMove rd c y (withMop sl 5)).bad = none) :
    (slotMove rd c y (withMop sl 5)).sw = [(moveAddr c y sl 1, (narrow62 c.sat (c.ac (sl.reg.val % 4))).1)] := by
  obtain ⟨hl, -⟩ := slotMove_sound h
  rw [withMop_ptr] at hl
  have hm : (withMop sl 5).mop.val = 5 := rfl
  have hp : (withMop sl 5).isPair = false := rfl
  simp only [slotMove, hl, hp, hm, withMop_ptr, withMop_am, withMop_reg, moveAddr, Bool.not_true, Bool.false_and, Bool.false_eq_true, if_false]

theorem slotMove_registerCopy (h : (slotMove rd c y (withMop sl 6)).bad = none) :
    (slotMove rd c y (withMop sl 6)).dw = [(sl.ptr.val * 8 + sl.am.val, c.dr sl.reg.val)] := by
  obtain ⟨hl, -⟩ := slotMove_sound h
  rw [withMop_ptr] at hl
  have hm : (withMop sl 6).mop.val = 6 := rfl
  have hp : (withMop sl 6).isPair = false := rfl
  simp only [slotMove, hl, hp, hm, withMop_ptr, withMop_am, withMop_reg, Bool.not_true, Bool.false_and, Bool.false_eq_true, if_false]

/-- A pair move through an odd register is no legal slot. -/
theorem slotMove_oddRegister {n : Fin 8} (hn : n.val = 3 ∨ n.val = 4) (hr : sl.reg.val % 2 = 1) :
    (slotMove rd c y (withMop sl n)).bad = some 1 := by
  have hp : (withMop sl n).isPair = true := by simpa [Slot.isPair, withMop] using hn
  have hl : ∀ k, (withMop sl n).legal c k = false := by
    intro k
    have hr' : (withMop sl n).reg.val % 2 = 1 := hr
    simp [Slot.legal, hp, hr']
  simp [slotMove, hl, Move.fail]

/-- A legal pair move at an odd address is a misaligned one. -/
theorem slotMove_oddAddress {n : Fin 8} (hn : n.val = 3 ∨ n.val = 4) (hl : (slotMove rd c y (withMop sl n)).bad ≠ some 1)
    (ha : moveAddr c y sl 2 % 2 = 1) : (slotMove rd c y (withMop sl n)).bad = some 2 := by
  have hp : (withMop sl n).isPair = true := by simpa [Slot.isPair, withMop] using hn
  have ha' : moveAddr c y (withMop sl n) 2 % 2 = 1 := ha
  rw [moveAddr] at ha'
  unfold slotMove at hl ⊢
  cases hleg : (withMop sl n).legal c (if y then 8 + (withMop sl n).ptr.val else (withMop sl n).ptr.val)
  case false => simp [hleg, Move.fail] at hl
  case true => simp [hleg, hp, ha', Move.fail]

end effects

/-- The move of the bundle `o` on the side that `y` says. -/
def sideMove (s : State) (e : Nat) (y : Bool) (o : Std) : Move := if y then yMove s e o else xMove s e o

theorem sideMove_slotBundle (s : State) (e : Nat) (y : Bool) (sl other : Slot) (ce n : Fin 8) :
    sideMove s e y (slotBundle y sl other ce n) = slotMove (rdLocal s.mem e y) (ctxOf s e) y (withMop sl n) := by
  cases y <;> rfl

theorem sideMove_bad_none {s : State} {e : Nat} {o : Std} (y : Bool) (hx : (xMove s e o).bad = none) (hy : (yMove s e o).bad = none) :
    (sideMove s e y o).bad = none := by
  cases y
  · exact hx
  · exact hy

/-! ### Registers after a bundle (R155) -/

theorem dr_setD (c : Ctx) (i k : Nat) (v : Word) : (c.setD i v).dr k = if k = i then v else c.dr k :=
  Tbl.getD_set c.d 0#32 i k v

theorem writeD_append (c : Ctx) (ws us : List (Nat × Word)) : c.writeD (ws ++ us) = (c.writeD ws).writeD us :=
  List.foldl_append

theorem dr_writeD_unlisted (c : Ctx) (ws : List (Nat × Word)) {k : Nat} (h : ∀ p ∈ ws, p.1 ≠ k) : (c.writeD ws).dr k = c.dr k := by
  induction ws generalizing c with
  | nil => rfl
  | cons p ws ih =>
    have hp : k ≠ p.1 := Ne.symm (h p (by simp))
    calc (c.writeD (p :: ws)).dr k = ((c.setD p.1 p.2).writeD ws).dr k := rfl
      _ = (c.setD p.1 p.2).dr k := ih _ (fun q hq => h q (List.mem_cons_of_mem _ hq))
      _ = c.dr k := by rw [dr_setD, if_neg hp]

/-- The last write of a register stands. -/
theorem dr_writeD_last (c : Ctx) (ws us : List (Nat × Word)) {k : Nat} (v : Word) (h : ∀ p ∈ us, p.1 ≠ k) :
    (c.writeD (ws ++ (k, v) :: us)).dr k = v := by
  calc (c.writeD (ws ++ (k, v) :: us)).dr k = (((c.writeD ws).setD k v).writeD us).dr k := by rw [writeD_append]; rfl
    _ = ((c.writeD ws).setD k v).dr k := dr_writeD_unlisted _ us h
    _ = v := by rw [dr_setD, if_pos rfl]

/-- What the slot on the side `y` writes last to a register stands, where the Y slot does not write the register as well. -/
theorem dr_writeD_slots {s : State} {e : Nat} {o : Std} {y : Bool} {ws us : List (Nat × Word)} {k : Nat} {v : Word}
    (hd : (sideMove s e y o).dw = ws ++ (k, v) :: us) (hu : ∀ p ∈ us, p.1 ≠ k)
    (hy : y = true ∨ ∀ p ∈ (yMove s e o).dw, p.1 ≠ k) (c : Ctx) :
    (c.writeD ((xMove s e o).dw ++ (yMove s e o).dw)).dr k = v := by
  cases y
  case true =>
    have hd' : (yMove s e o).dw = ws ++ (k, v) :: us := hd
    rw [hd', ← List.append_assoc]
    exact dr_writeD_last c _ us v hu
  case false =>
    have hd' : (xMove s e o).dw = ws ++ (k, v) :: us := hd
    have hy' : ∀ p ∈ (yMove s e o).dw, p.1 ≠ k := hy.resolve_left (by decide)
    rw [hd', List.append_assoc, List.cons_append]
    refine dr_writeD_last c ws _ v (fun p hp => ?_)
    rcases List.mem_append.1 hp with hp | hp
    · exact hu p hp
    · exact hy' p hp

theorem foldl_setP_d (ps : List (Nat × Nat)) (c : Ctx) : (ps.foldl (fun c p => c.setP p.1 p.2) c).d = c.d := by
  induction ps generalizing c with
  | nil => rfl
  | cons p ps ih => exact ih (c.setP p.1 p.2)

theorem commit_none_d (c : Ctx) (x y : Move) : (c.commit x y Arith.none).d = (c.writeD (x.dw ++ y.dw)).d := by
  have hdw : x.dw ++ y.dw ++ Arith.none.dw = x.dw ++ y.dw := List.append_nil _
  rw [← hdw]
  exact foldl_setP_d _ _

theorem advance_d {c c' : Ctx} (h : c.advance = some c') : c'.d = c.d := by
  unfold Ctx.advance at h
  split at h
  case h_1 l rest _ =>
    split at h
    · cases h; rfl
    · dsimp only at h
      by_cases hpc : c.pc ≥ 8191
      · rw [if_pos hpc] at h; cases h
      · rw [if_neg hpc] at h
        cases h
        by_cases hstop : c.pc = l.stop
        · simp only [if_pos hstop]
        · simp only [if_neg hstop]
  case h_2 =>
    by_cases hpc : c.pc ≥ 8191
    · rw [if_pos hpc] at h; cases h
    · rw [if_neg hpc] at h; cases h; rfl

theorem stop_ctx (g : Engine) (cause pc : Nat) : (g.stop cause pc).ctx = g.ctx := by
  unfold Engine.stop; split <;> rfl

theorem proceed_d (g : Engine) (c : Ctx) (n : Nat) : (g.proceed c n).ctx.d = c.d := by
  unfold Engine.proceed
  dsimp only
  split
  next h => exact (advance_d h).trans rfl
  next => rw [stop_ctx]

theorem fail_fault {g : Engine} (h : g.fault = none) (cause pc : Nat) : (g.fail cause pc).fault = some (cause, pc) := by
  simp [Engine.fail, Engine.stop, h]

/-! ### How a bundle without arithmetic ends (R154, R155, R168, R174) -/

@[simp] theorem eng_setEng (d : Dev) (e : Nat) (g : Engine) : (d.setEng e g).eng e = g := by
  simp [Dev.eng, Dev.setEng, Virif.get, Virif.put]

theorem eng_congr {d d' : Dev} (h : d'.vf = d.vf) (e : Nat) : d'.eng e = d.eng e := by rw [Dev.eng, Dev.eng, h]

/-- Corrected errors change neither the engines nor the memory system's state. -/
theorem engCe_vf_ms (n : Nat) (d : Dev) : (engCe n d).vf = d.vf ∧ (engCe n d).ms = d.ms :=
  List.foldlRecOn (motive := fun d' : Dev => d'.vf = d.vf ∧ d'.ms = d.ms) (List.range n) _ ⟨rfl, rfl⟩ (fun _ h _ _ => h)

/-- The operands of a bundle with an empty arithmetic slot. -/
theorem nop_none {o : Std} (h : o.md = 0) (d : Dev) (e : Nat) (c : Ctx) (x y : Move) : pure' opNop d e c o x y = Arith.none := by
  simp [pure', opNop, AOp.plain, h]

theorem badBundle_of_fetches {s : State} {e : Nat} {b : Bundle} (h : s.dev.fetches s.mem e b = true) :
    s.dev.badWord (bundleAddr e (s.dev.eng e).ctx.pc) = false := by
  simp only [Dev.fetches, Bool.and_eq_true, Bool.not_eq_true'] at h
  exact h.1

theorem fault_of_issues {d : Dev} {e : Nat} (h : d.issues e = true) : (d.eng e).fault = none := by
  simp only [Dev.issues, Bool.and_eq_true, Option.isNone_iff_eq_none] at h
  exact h.2

section issue
variable {s : State} {e : Nat} {o : Std}

/-- An illegal slot stops the engine before anything else of the bundle acts (R149, R152). -/
theorem issueStd_nop_illegal (hf : Fetches s e (.std 0 { o with ce := 0 })) (hm : o.md = 0)
    (hb : (xMove s e o).bad = some 1 ∨ (yMove s e o).bad = some 1) :
    issueStd 0 (pure' opNop) e o s.mem s.dev =
      (s.mem, (engCe o.ce.val s.dev).setEng e ((s.dev.eng e).fail 1 (ctxOf s e).pc)) := by
  obtain ⟨-, hi, hfe, -⟩ := hf
  unfold xMove yMove at hb
  simp [issueStd, hi, badBundle_of_fetches hfe, hfe, nop_none hm, Arith.none, hb]

/-- In a legal bundle, a pair move at an odd address stops the engine (R149). -/
theorem issueStd_nop_misaligned (hf : Fetches s e (.std 0 { o with ce := 0 })) (hm : o.md = 0)
    (hx : (xMove s e o).bad ≠ some 1) (hy : (yMove s e o).bad ≠ some 1)
    (hb : (xMove s e o).bad.isSome = true ∨ (yMove s e o).bad.isSome = true) :
    issueStd 0 (pure' opNop) e o s.mem s.dev =
      (s.mem, (engCe o.ce.val s.dev).setEng e ((s.dev.eng e).fail 2 (ctxOf s e).pc)) := by
  obtain ⟨-, hi, hfe, -⟩ := hf
  unfold xMove at hx hb
  unfold yMove at hy hb
  simp [issueStd, hi, badBundle_of_fetches hfe, hfe, nop_none hm, Arith.none, hx, hy, hb]

/-- The words that the moves of a waiting bundle touch (R168). -/
def waitWords (x y : Move) : List (Bool × Bool × Nat) :=
  x.touch.map (fun w => (false, x.store, w)) ++ y.touch.map (fun w => (true, y.store, w))

/-- A move that meets a busy channel's range makes the bundle wait (R168). -/
theorem issueStd_nop_waits (hf : Fetches s e (.std 0 { o with ce := 0 })) (hm : o.md = 0)
    (hx : (xMove s e o).bad = none) (hy : (yMove s e o).bad = none)
    (hc : (ctxOf s e).meets false (xMove s e o).touch (xMove s e o).store = true ∨
      (ctxOf s e).meets true (yMove s e o).touch (yMove s e o).store = true) :
    issueStd 0 (pure' opNop) e o s.mem s.dev =
      (s.mem, (engCe o.ce.val s.dev).setEng e { s.dev.eng e with wait := .conflict (waitWords (xMove s e o) (yMove s e o)) }) := by
  obtain ⟨-, hi, hfe, -⟩ := hf
  unfold xMove at hx hc ⊢
  unfold yMove at hy hc ⊢
  simp [issueStd, hi, badBundle_of_fetches hfe, hfe, nop_none hm, Arith.none, hx, hy, ← or_assoc, hc, waitWords]

/-- The memory and the device after the stores of the bundle `o`. -/
def storesOf (s : State) (e : Nat) (o : Std) : Memory × Dev :=
  engStore e true (yMove s e o).sw (engStore e false (xMove s e o).sw (s.mem, engCe o.ce.val s.dev))

/-- The addresses that the slot with the move `m` loads. -/
def slotLoads (e : Nat) (y : Bool) (m : Move) : List Nat := if m.ld = [] then [] else m.touch.map (localAddr e y)

theorem slotLoads_good {d : Dev} {y : Bool} {m : Move}
    (h : (m.ld == [] || m.touch.all (fun w => !d.badWord (localAddr e y w))) = true) : ∀ a ∈ slotLoads e y m, d.badWord a = false := by
  simp only [Bool.or_eq_true, beq_iff_eq, List.all_eq_true, Bool.not_eq_true'] at h
  intro a ha
  rcases h with h | h
  · simp [slotLoads, h] at ha
  · by_cases hld : m.ld = []
    · simp [slotLoads, hld] at ha
    · rw [slotLoads, if_neg hld] at ha
      obtain ⟨w, hw, rfl⟩ := List.mem_map.1 ha
      exact h w hw

/-- No load of a bundle that fires finds an uncorrectable word. -/
theorem find?_slotLoads (hl : loadsGood s e o = true) (n : Nat) :
    (slotLoads e false (xMove s e o) ++ slotLoads e true (yMove s e o)).find? (engCe n s.dev).badWord = none := by
  obtain ⟨hx, hy⟩ := Bool.and_eq_true_iff.1 hl
  refine List.find?_eq_none.2 (fun a ha => ?_)
  rw [badWord_congr (engCe_vf_ms n s.dev).2]
  rcases List.mem_append.1 ha with ha | ha
  · simp [slotLoads_good hx a ha]
  · simp [slotLoads_good hy a ha]

theorem meets_nil (c : Ctx) (y store : Bool) : c.meets y [] store = false := rfl

/-- A bundle that fires stores, and the engine goes on to the next bundle with its loads written. -/
theorem issueStd_nop_fires (hf : Fires 0 s e o) (hm : o.md = 0) :
    issueStd 0 (pure' opNop) e o s.mem s.dev =
      ((storesOf s e o).1, (storesOf s e o).2.setEng e
        ((s.dev.eng e).proceed ((ctxOf s e).commit (xMove s e o) (yMove s e o) Arith.none) 1)) := by
  obtain ⟨⟨-, hi, hfe, -⟩, hx, hy, hcx, hcy, hl⟩ := hf
  have hlost := find?_slotLoads hl o.ce.val
  unfold slotLoads at hlost
  unfold storesOf
  unfold xMove at hx hcx hlost ⊢
  unfold yMove at hy hcy hlost ⊢
  simp [issueStd, hi, badBundle_of_fetches hfe, hfe, nop_none hm, Arith.none, hx, hy, hcx, hcy, hlost, meets_nil]

end issue

/-! ### The rows of the move slots (R152) -/

/-- Each of the six rows of a move operation issues its bundle with the arithmetic slot empty. -/
theorem exec_moveRow {n : Fin 8} (h0 : 0 < n.val) (h7 : n.val < 7) (e : Fin 16) (y : Bool) (sl other : Slot) (ce : Fin 8) (s : State) :
    exec (moveRow n e y sl other ce) s = okM s (issueStd 0 (pure' opNop) e.val (slotBundle y sl other ce n)) := by
  match n, h0, h7 with
  | 1, _, _ => rfl
  | 2, _, _ => rfl
  | 3, _, _ => rfl
  | 4, _, _ => rfl
  | 5, _, _ => rfl
  | 6, _, _ => rfl

theorem slotBundle_md (y : Bool) (sl other : Slot) (ce n : Fin 8) : (slotBundle y sl other ce n).md = 0 := by cases y <;> rfl

theorem moveRow_completes {n : Fin 8} (h0 : 0 < n.val) (h7 : n.val < 7) {e : Fin 16} {y : Bool} {sl other : Slot} {ce : Fin 8}
    {s : State} {P : State → Prop} {r : Memory × Dev} (ha : Awake s)
    (hr : issueStd 0 (pure' opNop) e.val (slotBundle y sl other ce n) s.mem s.dev = r)
    (hP : ∀ t : State, t.mem = r.1 → t.dev.regs = r.2.regs → t.dev.vf = r.2.vf → P t) :
    Completes (moveRow n e y sl other ce) s P := by
  refine ⟨_, (exec_moveRow h0 h7 e y sl other ce s).trans (okM_awake ha _), hP _ ?_ ?_ ?_⟩ <;> simp [hr]

section rows
variable {s : State} {e : Fin 16} {y : Bool} {sl other : Slot} {ce n : Fin 8}

/-- A bundle that stops its engine with the fault `cause` stores nothing. -/
theorem moveRow_stops (h0 : 0 < n.val) (h7 : n.val < 7) {cause : Nat} {d : Dev}
    (hf : Fetches s e.val (.std 0 { slotBundle y sl other ce n with ce := 0 }))
    (hr : issueStd 0 (pure' opNop) e.val (slotBundle y sl other ce n) s.mem s.dev =
      (s.mem, d.setEng e.val ((s.dev.eng e.val).fail cause (ctxOf s e.val).pc))) :
    Completes (moveRow n e y sl other ce) s (Stops s e.val cause) := by
  obtain ⟨ha, hi, -, -⟩ := hf
  refine moveRow_completes h0 h7 ha hr (fun t hm _ hv => ⟨?_, hm⟩)
  rw [eng_congr hv, eng_setEng, fail_fault (fault_of_issues hi)]

/-- What a bundle leaves that fires: its stores in memory, its loads in the D registers. -/
theorem moveRow_fires (h0 : 0 < n.val) (h7 : n.val < 7) (hf : Fires 0 s e.val (slotBundle y sl other ce n)) {P : State → Prop}
    (hP : ∀ t : State, t.mem = (storesOf s e.val (slotBundle y sl other ce n)).1 →
      t.dev.regs = (storesOf s e.val (slotBundle y sl other ce n)).2.regs →
      (∀ k, (ctxOf t e.val).dr k = ((ctxOf s e.val).writeD ((xMove s e.val (slotBundle y sl other ce n)).dw ++
        (yMove s e.val (slotBundle y sl other ce n)).dw)).dr k) → P t) :
    Completes (moveRow n e y sl other ce) s P := by
  refine moveRow_completes h0 h7 hf.1.1 (issueStd_nop_fires hf (slotBundle_md y sl other ce n)) (fun t hm hrg hv => hP t hm hrg (fun k => ?_))
  have hd : (ctxOf t e.val).d = ((ctxOf s e.val).writeD ((xMove s e.val (slotBundle y sl other ce n)).dw ++
      (yMove s e.val (slotBundle y sl other ce n)).dw)).d := by
    rw [ctxOf, eng_congr hv, eng_setEng, proceed_d, commit_none_d]
  rw [Ctx.dr, Ctx.dr, hd]

/-- A slot's register write stands, where the Y slot does not write the register as well. -/
theorem moveRow_writesD (h0 : 0 < n.val) (h7 : n.val < 7) (hf : Fires 0 s e.val (slotBundle y sl other ce n))
    {ws us : List (Nat × Word)} {k : Nat} {v : Word} (hd : (sideMove s e.val y (slotBundle y sl other ce n)).dw = ws ++ (k, v) :: us)
    (hu : ∀ p ∈ us, p.1 ≠ k) (hy : y = true ∨ ∀ p ∈ (yMove s e.val (slotBundle y sl other ce n)).dw, p.1 ≠ k) :
    Completes (moveRow n e y sl other ce) s (fun t => (ctxOf t e.val).dr k = v) := by
  refine moveRow_fires h0 h7 hf (fun t _ _ hdr => ?_)
  rw [hdr, dr_writeD_slots hd hu hy]

end rows

/-- The stores of the slot on the side `y`: they start where that side's memory and errors are as before the bundle, and what follows
them keeps that side. -/
theorem storesOf_side (s : State) (e : Fin 16) (y : Bool) (o : Std) :
    ∃ a, OtherSideKept e (!y) (s.mem, engCe o.ce.val s.dev) a ∧
      OtherSideKept e (!y) (engStore e y (sideMove s e y o).sw a) (storesOf s e o) := by
  cases y
  case false => exact ⟨_, OtherSideKept.refl _ _ _, engStore_otherSideKept e true _ _⟩
  case true => exact ⟨_, engStore_otherSideKept e false _ _, OtherSideKept.refl _ _ _⟩

section stores
variable {s : State} {e : Fin 16} {y : Bool} {o : Std} {w : Nat} {v v' : Word}

theorem storesOf_single_good (hs : (sideMove s e y o).sw = [(w, v)]) (hb : s.dev.badWord (localAddr e y w) = false) :
    rdLocal (storesOf s e o).1 e y w = v := by
  obtain ⟨a, hpre, hpost⟩ := storesOf_side s e y o
  have hgood := hpre.errors w
  rw [Bool.not_not, badWord_congr (engCe_vf_ms o.ce.val s.dev).2, hb] at hgood
  have hkept := hpost.words w
  rw [Bool.not_not] at hkept
  rw [hkept, hs, engStore_single_good e y w v a hgood]

theorem storesOf_single_bad (hs : (sideMove s e y o).sw = [(w, v)]) (hb : s.dev.badWord (localAddr e y w) = true) :
    rdLocal (storesOf s e o).1 e y w = rdLocal s.mem e y w ∧ evtBit (storesOf s e o).2 Ev.MS_UE = true := by
  obtain ⟨a, hpre, hpost⟩ := storesOf_side s e y o
  have hbad := hpre.errors w
  rw [Bool.not_not, badWord_congr (engCe_vf_ms o.ce.val s.dev).2, hb] at hbad
  obtain ⟨hmem, hevt⟩ := engStore_single_bad e y w v a hbad
  have hbefore := hpre.words w
  have hafter := hpost.words w
  rw [Bool.not_not] at hbefore hafter
  rw [hs] at hafter hpost
  exact ⟨by rw [hafter, hmem, hbefore], hpost.event hevt⟩

theorem storesOf_pair (hs : (sideMove s e y o).sw = [(w, v), (w + 1, v')]) (hw : w % 2 = 0) :
    rdLocal (storesOf s e o).1 e y w = v ∧ rdLocal (storesOf s e o).1 e y (w + 1) = v' := by
  obtain ⟨a, -, hpost⟩ := storesOf_side s e y o
  have hkept := hpost.words
  rw [Bool.not_not] at hkept
  rw [hkept, hkept, hs]
  exact engStore_pair e y v v' a hw

end stores

/-! ### The clauses of the statement -/

section clauses
variable {s : State} {e : Fin 16} {y : Bool} {sl other : Slot} {ce : Fin 8}

theorem side_bad_none {n : Fin 8} (hf : Fires 0 s e.val (slotBundle y sl other ce n)) :
    (slotMove (rdLocal s.mem e y) (ctxOf s e) y (withMop sl n)).bad = none := by
  obtain ⟨-, hx, hy, -⟩ := hf
  rw [← sideMove_slotBundle s e y sl other ce n]
  exact sideMove_bad_none y hx hy

theorem loadWord_completes (hf : Fires 0 s e.val (slotBundle y sl other ce 1))
    (hy : y = true ∨ ∀ p ∈ (yMove s e (slotBundle y sl other ce 1)).dw, p.1 ≠ sl.reg.val) :
    Completes (.loadWord e y sl other ce) s (fun t =>
      (ctxOf t e).dr sl.reg.val = rdLocal s.mem e y (moveAddr (ctxOf s e) y sl 1)) := by
  have hd := slotMove_loadWord (side_bad_none hf)
  rw [← sideMove_slotBundle s e y sl other ce 1] at hd
  exact moveRow_writesD (n := 1) (by decide) (by decide) hf (ws := []) hd (by simp) hy

theorem loadPair_completes (hf : Fires 0 s e.val (slotBundle y sl other ce 3))
    (hy : y = true ∨ ∀ p ∈ (yMove s e (slotBundle y sl other ce 3)).dw, p.1 ≠ sl.reg.val ∧ p.1 ≠ sl.reg.val + 1) :
    Completes (.loadPair e y sl other ce) s (fun t =>
      (ctxOf t e).dr sl.reg.val = rdLocal s.mem e y (moveAddr (ctxOf s e) y sl 2) ∧
      (ctxOf t e).dr (sl.reg.val + 1) = rdLocal s.mem e y (moveAddr (ctxOf s e) y sl 2 + 1)) := by
  have hd := slotMove_loadPair (side_bad_none hf)
  rw [← sideMove_slotBundle s e y sl other ce 3] at hd
  refine moveRow_fires (n := 3) (by decide) (by decide) hf (fun t _ _ hdr => ⟨?_, ?_⟩)
  · rw [hdr, dr_writeD_slots (ws := []) hd (by simp) (hy.imp_right fun h p hp => (h p hp).1)]
  · rw [hdr, dr_writeD_slots (ws := [_]) hd (by simp) (hy.imp_right fun h p hp => (h p hp).2)]

theorem registerCopy_completes (hf : Fires 0 s e.val (slotBundle y sl other ce 6))
    (hy : y = true ∨ ∀ p ∈ (yMove s e (slotBundle y sl other ce 6)).dw, p.1 ≠ sl.ptr.val * 8 + sl.am.val) :
    Completes (.registerCopy e y sl other ce) s (fun t =>
      (ctxOf t e).dr (sl.ptr.val * 8 + sl.am.val) = (ctxOf s e).dr sl.reg.val) := by
  have hd := slotMove_registerCopy (side_bad_none hf)
  rw [← sideMove_slotBundle s e y sl other ce 6] at hd
  exact moveRow_writesD (n := 6) (by decide) (by decide) hf (ws := []) hd (by simp) hy

theorem storeWord_completes (hf : Fires 0 s e.val (slotBundle y sl other ce 2))
    (hb : s.dev.badWord (localAddr e y (moveAddr (ctxOf s e) y sl 1)) = false) :
    Completes (.storeWord e y sl other ce) s (fun t =>
      rdLocal t.mem e y (moveAddr (ctxOf s e) y sl 1) = (ctxOf s e).dr sl.reg.val) := by
  have hs := slotMove_storeWord (side_bad_none hf)
  rw [← sideMove_slotBundle s e y sl other ce 2] at hs
  refine moveRow_fires (n := 2) (by decide) (by decide) hf (fun t hm _ _ => ?_)
  rw [hm, storesOf_single_good hs hb]

theorem storeWord_bad_completes (hf : Fires 0 s e.val (slotBundle y sl other ce 2))
    (hb : s.dev.badWord (localAddr e y (moveAddr (ctxOf s e) y sl 1)) = true) :
    Completes (.storeWord e y sl other ce) s (fun t =>
      rdLocal t.mem e y (moveAddr (ctxOf s e) y sl 1) = rdLocal s.mem e y (moveAddr (ctxOf s e) y sl 1) ∧
      evtBit t.dev Ev.MS_UE = true) := by
  have hs := slotMove_storeWord (side_bad_none hf)
  rw [← sideMove_slotBundle s e y sl other ce 2] at hs
  obtain ⟨hmem, hevt⟩ := storesOf_single_bad hs hb
  refine moveRow_fires (n := 2) (by decide) (by decide) hf (fun t hm hrg _ => ⟨by rw [hm, hmem], ?_⟩)
  rw [evtBit, Dev.rd_congr hrg]
  exact hevt

theorem storePair_completes (hf : Fires 0 s e.val (slotBundle y sl other ce 4)) :
    Completes (.storePair e y sl other ce) s (fun t =>
      rdLocal t.mem e y (moveAddr (ctxOf s e) y sl 2) = (ctxOf s e).dr sl.reg.val ∧
      rdLocal t.mem e y (moveAddr (ctxOf s e) y sl 2 + 1) = (ctxOf s e).dr (sl.reg.val + 1)) := by
  have hs := slotMove_storePair (side_bad_none hf)
  have heven := (slotMove_sound (side_bad_none hf)).2 rfl
  rw [← sideMove_slotBundle s e y sl other ce 4] at hs
  refine moveRow_fires (n := 4) (by decide) (by decide) hf (fun t hm _ _ => ?_)
  rw [hm]
  exact storesOf_pair hs heven

theorem storeAcc_completes (hf : Fires 0 s e.val (slotBundle y sl other ce 5))
    (hb : s.dev.badWord (localAddr e y (moveAddr (ctxOf s e) y sl 1)) = false) :
    Completes (.storeAcc e y sl other ce) s (fun t =>
      rdLocal t.mem e y (moveAddr (ctxOf s e) y sl 1) =
        (narrow62 (ctxOf s e).sat ((ctxOf s e).ac (sl.reg.val % 4))).1) := by
  have hs := slotMove_storeAcc (side_bad_none hf)
  rw [← sideMove_slotBundle s e y sl other ce 5] at hs
  refine moveRow_fires (n := 5) (by decide) (by decide) hf (fun t hm _ _ => ?_)
  rw [hm, storesOf_single_good hs hb]

variable {n : Fin 8}

theorem moveRow_illegal (h0 : 0 < n.val) (h7 : n.val < 7) (hf : Fetches s e.val (.std 0 { slotBundle y sl other ce n with ce := 0 }))
    (hb : (xMove s e (slotBundle y sl other ce n)).bad = some 1 ∨ (yMove s e (slotBundle y sl other ce n)).bad = some 1) :
    Completes (moveRow n e y sl other ce) s (Stops s e.val 1) :=
  moveRow_stops h0 h7 hf (issueStd_nop_illegal hf (slotBundle_md y sl other ce n) hb)

/-- A fault of the slot on the side `y` is a fault of the X or of the Y slot. -/
theorem bad_of_sideMove {o : Std} {b : Option Nat} (h : (sideMove s e.val y o).bad = b) :
    (xMove s e o).bad = b ∨ (yMove s e o).bad = b := by
  cases y
  · exact Or.inl h
  · exact Or.inr h

theorem moveRow_oddRegister (hn : n.val = 3 ∨ n.val = 4) (hf : Fetches s e.val (.std 0 { slotBundle y sl other ce n with ce := 0 }))
    (hr : sl.reg.val % 2 = 1) : Completes (moveRow n e y sl other ce) s (Stops s e.val 1) := by
  have hb := slotMove_oddRegister (rd := rdLocal s.mem e y) (c := ctxOf s e) (y := y) hn hr
  rw [← sideMove_slotBundle s e y sl other ce n] at hb
  exact moveRow_illegal (by omega) (by omega) hf (bad_of_sideMove hb)

theorem moveRow_oddAddress (hn : n.val = 3 ∨ n.val = 4) (hf : Fetches s e.val (.std 0 { slotBundle y sl other ce n with ce := 0 }))
    (hx : (xMove s e (slotBundle y sl other ce n)).bad ≠ some 1) (hy : (yMove s e (slotBundle y sl other ce n)).bad ≠ some 1)
    (ha : moveAddr (ctxOf s e) y sl 2 % 2 = 1) : Completes (moveRow n e y sl other ce) s (Stops s e.val 2) := by
  have hside : (sideMove s e y (slotBundle y sl other ce n)).bad ≠ some 1 := by
    cases y
    · exact hx
    · exact hy
  rw [sideMove_slotBundle] at hside
  have hb := slotMove_oddAddress hn hside ha
  rw [← sideMove_slotBundle s e y sl other ce n] at hb
  have hsome := (bad_of_sideMove hb).imp (fun h => Option.isSome_of_eq_some h) (fun h => Option.isSome_of_eq_some h)
  exact moveRow_stops (by omega) (by omega) hf (issueStd_nop_misaligned hf (slotBundle_md y sl other ce n) hx hy hsome)

theorem moveRow_waits (h0 : 0 < n.val) (h7 : n.val < 7) (hf : Fetches s e.val (.std 0 { slotBundle y sl other ce n with ce := 0 }))
    (hx : (xMove s e (slotBundle y sl other ce n)).bad = none) (hy : (yMove s e (slotBundle y sl other ce n)).bad = none)
    (hc : (ctxOf s e).meets y (sideMove s e y (slotBundle y sl other ce n)).touch (sideMove s e y (slotBundle y sl other ce n)).store = true) :
    Completes (moveRow n e y sl other ce) s (fun t =>
      (t.dev.eng e).wait ≠ .go ∧ ctxOf t e = ctxOf s e ∧ (t.dev.eng e).fault = none ∧ t.mem = s.mem) := by
  have hmeets : (ctxOf s e).meets false (xMove s e (slotBundle y sl other ce n)).touch (xMove s e (slotBundle y sl other ce n)).store = true ∨
      (ctxOf s e).meets true (yMove s e (slotBundle y sl other ce n)).touch (yMove s e (slotBundle y sl other ce n)).store = true := by
    cases y
    · exact Or.inl hc
    · exact Or.inr hc
  refine moveRow_completes h0 h7 hf.1 (issueStd_nop_waits hf (slotBundle_md y sl other ce n) hx hy hmeets) (fun t hm _ hv => ?_)
  have heng := (eng_congr hv e.val).trans (eng_setEng _ _ _)
  exact ⟨by rw [heng]; simp, by rw [ctxOf, heng], by rw [heng]; exact fault_of_issues hf.2.1, hm⟩

end clauses

/-- Settles O11: a bundle without arithmetic stops, waits, or stores and goes on, and each row's slot is read off that. -/
theorem virifMoves : Obligations.VirifMoves :=
  ⟨fun _ _ _ _ _ _ hf hy => loadWord_completes hf hy,
   fun _ _ _ _ _ _ hf hb => storeWord_completes hf hb,
   fun _ _ _ _ _ _ hf hb => storeWord_bad_completes hf hb,
   fun _ _ _ _ _ _ hf hy => loadPair_completes hf hy,
   fun _ _ _ _ _ _ hf => storePair_completes hf,
   fun _ _ _ _ _ _ hf hb => storeAcc_completes hf hb,
   fun _ _ _ _ _ _ hf hy => registerCopy_completes hf hy,
   fun _ _ _ _ _ _ _ h0 h7 hf hb => moveRow_illegal h0 h7 hf hb,
   fun _ _ _ _ _ _ _ hn hf hr => moveRow_oddRegister hn hf hr,
   fun _ _ _ _ _ _ _ hn hf hx hy ha => moveRow_oddAddress hn hf hx hy ha,
   fun _ _ _ _ _ _ _ h0 h7 hf hx hy hc => moveRow_waits h0 h7 hf hx hy hc⟩

end Sys2Proof.Moves
end

section
/-!
PROOFS. The registers of the frame interface (08_network.md R236): to an agent that is not a Station core each one's effect is a read of 0 or
nothing at all, no event rises, and from these `Obligations.DescriptorAgents`.
-/
namespace Sys2Proof.NetAgents

open Sys2Proof.Machine

/-! ### No event, no MSI-X vector (R21) -/

theorem evtWord_congr {d d' : Dev} (h : d'.regs = d.regs) (n : Nat) : d'.evtWord n = d.evtWord n := by
  have hrd : ∀ r, d'.rd r = d.rd r := Dev.rd_congr h
  simp only [Dev.evtWord, tioEvt, netEvt, Dev.aiEvt, Dev.aoEvt, Dev.jackSum, mbxEvt, hifEvt, hrd]

theorem sumBit_congr {d d' : Dev} (h : d'.regs = d.regs) (n : Nat) : d'.sumBit n = d.sumBit n := by
  rw [Dev.sumBit, Dev.sumBit, evtWord_congr h, Dev.rd_congr h]

/-- A step that writes no register raises no bit of EVT_SUM, so it sends no vector. -/
theorem notify_of_regs {old new : Dev} (h : new.regs = old.regs) : notify old new = new := by
  have hquiet : ∀ n, (!old.sumBit n && new.sumBit n) = false := fun n => by
    rw [sumBit_congr h, Bool.not_and_self]
  simp only [notify, hquiet, Bool.false_eq_true, if_false]
  rfl

@[simp] theorem granted_regs (t m : Nat) (write : Bool) (d : Dev) : (granted t m write d).regs = d.regs := rfl

/-! ### An access that its register does not act on (13_memory.md R376, R388) -/

section accesses
variable {s : State} {m : Agent} {g : Dev → Dev}

/-- An access whose effect writes no stored register: the bridge counts it, and no vector is sent. -/
theorem okBy_of_regs (hs : Serves s m) (a : Nat) (v : Word) (write : Bool) (hg : ∀ d, (g d).regs = d.regs) :
    okBy m a v s g write = .next { s with dev := g (granted 11 m.master write s.dev) } := by
  obtain ⟨hawake, hfree⟩ := hs
  rw [okBy_awake m a v hawake, State.onDev, bridged_free hfree, notify_of_regs (by rw [hg, granted_regs])]

theorem okBy_reads_zero (hs : Serves s m) (a : Nat) (hg : ∀ d, g d = d.answer 0#32) :
    okBy m a 0#32 s g false = .next { s with dev := { granted 11 m.master false s.dev with resp := ⟨[0#32], false⟩ } } := by
  rw [okBy_of_regs hs a 0#32 false fun d => by rw [hg, Dev.answer_regs], hg, Dev.answer]

theorem okBy_write_ignored (hs : Serves s m) (a : Nat) (v : Word) (hg : ∀ d, g d = d) :
    okBy m a v s g = .next { s with dev := granted 11 m.master true s.dev } := by
  rw [okBy_of_regs hs a v true fun d => by rw [hg], hg]

end accesses

/-! ### The registers of the frame interface (R236, R238, R256, R260) -/

theorem isStation_eq_false {m : Agent} (h : m.num < 4 ∨ 7 < m.num) : m.isStation = false := by
  simp only [Agent.isStation, Bool.and_eq_false_iff, decide_eq_false_iff_not]
  omega

section foreign
variable {m : Agent}

theorem nbAlloc_foreign (h : m.isStation = false) (d : Dev) : nbAlloc m d = d.answer 0#32 := by simp [nbAlloc, h]

theorem popIdx_foreign (h : m.isStation = false) (p : Nat) (rx : Bool) (d : Dev) : popIdx m p rx d = d.answer 0#32 := by
  simp [popIdx, h]

theorem tsPop_foreign (h : m.isStation = false) (p : Nat) (tx : Bool) (d : Dev) : tsPop m p tx d = d.answer 0#32 := by simp [tsPop, h]

theorem nbRelease_foreign (h : m.isStation = false) (v : Word) (d : Dev) : nbRelease m v d = d := by simp [nbRelease, Dev.when, h]

theorem txPost_foreign (h : m.isStation = false) (p : Nat) (v : Word) (mem : Memory) (d : Dev) : txPost m p v mem d = d := by
  simp [txPost, Dev.when, h]

end foreign

/-- Settles O55: to an agent outside 4 to 7 each register's effect is a read of 0 or nothing, and the count of the bridge is all that remains. -/
theorem descriptorAgents : Obligations.DescriptorAgents := by
  intro s m p tx v hs hm
  have h := isStation_eq_false hm
  exact ⟨okBy_reads_zero hs _ (nbAlloc_foreign h),
    okBy_reads_zero hs _ (popIdx_foreign h p false),
    okBy_reads_zero hs _ (popIdx_foreign h p true),
    okBy_reads_zero hs _ (tsPop_foreign h p tx),
    okBy_write_ignored hs _ v (nbRelease_foreign h v),
    okBy_write_ignored hs _ v (txPost_foreign h p v s.mem)⟩

end Sys2Proof.NetAgents
end
